-- ==== Sys2Proof/Word.lean ====
section
/-!
DEFINITION. The word types of the dictionary (R5: one 16-bit word a subindex), of a line (R10: 64 bytes)
and the sparse map in one canonical form that registers, counters and memories are held in.
-/
namespace Sys2Proof

/-- One dictionary word (R5). -/
abbrev Word := BitVec 16
/-- One byte. -/
abbrev Byte := BitVec 8
/-- A line of the store: 64 bytes, byte 0 in the lowest bits (R6, R10). -/
abbrev Line := BitVec 512
/-- A pseudo-channel PC0 to PC63 of the tile's stack (R10). -/
abbrev Pc := Fin 64
/-- A request port P0 to P31 (R87). -/
abbrev Port := Fin 32
/-- A tile number 0 to 7 (R22). -/
abbrev TileNo := Fin 8

/-- A sparse map from numbers: a list of pairs with rising keys that lists no default value. -/
abbrev SMap (α : Type) := List (Nat × α)

namespace SMap
variable {α : Type}

/-- The value listed at a key, if one is. -/
def look : SMap α → Nat → Option α
  | [], _ => none
  | (k, v) :: r, x => if k = x then some v else look r x

/-- The value at a key, `d` where none is listed. -/
def getD (m : SMap α) (k : Nat) (d : α) : α := (look m k).getD d

/-- The map without a key. -/
def del : SMap α → Nat → SMap α
  | [], _ => []
  | (k, v) :: r, x => if k = x then del r x else (k, v) :: del r x

/-- A pair put in its place among rising keys. -/
def ins : SMap α → Nat → α → SMap α
  | [], x, v => [(x, v)]
  | (k, w) :: r, x, v => if x < k then (x, v) :: (k, w) :: r else (k, w) :: ins r x v

/-- The map with a key listed at a value. -/
def set (m : SMap α) (k : Nat) (v : α) : SMap α := ins (del m k) k v

/-- The map with a key at a value, the default `d` not being listed. -/
def put [DecidableEq α] (d : α) (m : SMap α) (k : Nat) (v : α) : SMap α :=
  if v = d then del m k else set m k v

/-- Keys rise strictly. -/
def rising : SMap α → Bool
  | [] => true
  | [_] => true
  | (k, _) :: (k', v') :: r => decide (k < k') && rising ((k', v') :: r)

/-- The canonical form: keys rise strictly and no value listed is the default. -/
def wf [DecidableEq α] (d : α) (m : SMap α) : Bool :=
  rising m && m.all (fun p => decide (p.2 ≠ d))

/-- Every value changed by `f`. -/
def mapVals (f : Nat → α → α) (m : SMap α) : SMap α := m.map (fun p => (p.1, f p.1 p.2))
end SMap

end Sys2Proof
end

