-- ==== Sys2Proof/Machine/Bits.lean ====
section
/-!
DEFINITION. Bit fields (R4), multi-word values (R5, R6), saturation, serial-number comparison (R34) and the three
cyclic checks the spec names: CRC-8 of the maintenance bus (R369), CRC-32C (R1, R80, R348) and bytes of a line.
-/
namespace Sys2Proof.Machine
open Sys2Proof

/-- Bits [hi:lo] of a value, both ends included (R4). -/
def fld {n : Nat} (w : BitVec n) (hi lo : Nat) : Nat := (w.toNat >>> lo) % 2 ^ (hi + 1 - lo)

/-- Bit i of a value (R4). -/
def bit {n : Nat} (w : BitVec n) (i : Nat) : Bool := w.getLsbD i

/-- A value with bit i set to b. -/
def setBit {n : Nat} (w : BitVec n) (i : Nat) (b : Bool) : BitVec n :=
  if b then w ||| BitVec.ofNat n (2 ^ i) else w &&& ~~~(BitVec.ofNat n (2 ^ i))

/-- The number of bits that are 1. -/
def popCount {n : Nat} (w : BitVec n) : Nat := (List.range n).countP (fun i => w.getLsbD i)

/-- A word from a number, wrapping. -/
def w16 (x : Nat) : Word := BitVec.ofNat 16 x

/-- A word from a number, saturating at 0xFFFF (R34). -/
def sat16 (x : Nat) : Word := if x < 65536 then BitVec.ofNat 16 x else 0xFFFF

/-- A number saturating at 32 bits. -/
def sat32 (x : Nat) : Nat := if x < 2 ^ 32 then x else 2 ^ 32 - 1

/-- A bit as a number. -/
def b2n (b : Bool) : Nat := if b then 1 else 0

/-- A word whose bits are given from bit 0 up. -/
def bitsWord : List Bool → Nat
  | [] => 0
  | b :: r => b2n b + 2 * bitsWord r

/-- The words of a number, low word first (R5). -/
def wordsOf : Nat → Nat → List Word
  | 0, _ => []
  | k + 1, x => BitVec.ofNat 16 x :: wordsOf k (x / 65536)

/-- The number that words make, low word first (R5). -/
def ofWords : List Word → Nat
  | [] => 0
  | w :: r => w.toNat + 65536 * ofWords r

/-- Word k of a number (R5). -/
def wordAt (x k : Nat) : Word := BitVec.ofNat 16 (x / 65536 ^ k)

/-- A two's complement word as an integer (R373: I16). -/
def i16 (w : Word) : Int := w.toInt

/-- An integer as a two's complement word. -/
def ofI16 (x : Int) : Word := BitVec.ofInt 16 x

/-- Serial-number order on 32 bits: b is newer than a (R34, R144). -/
def serNewer (a b : BitVec 32) : Bool := a ≠ b && decide ((b - a).toNat < 2 ^ 31)

/-- The later of two serial numbers. -/
def serMax (a b : BitVec 32) : BitVec 32 := if serNewer a b then b else a

/-- Integer division rounded to the nearest, halves away from zero (R277), for a positive divisor. -/
def roundDiv (x : Int) (d : Nat) : Int :=
  if x ≥ 0 then (2 * x + d) / (2 * d) else -((2 * (-x) + d) / (2 * d))

/-- An integer clamped to a range. -/
def clampI (lo hi x : Int) : Int := if x < lo then lo else if x > hi then hi else x

/-- Division rounded up. -/
def ceilDiv (a b : Nat) : Nat := (a + b - 1) / b

/-- One bit of the CRC-8 with polynomial 0x07, most significant bit first (R369). -/
def crc8Bit (c : Byte) : Byte := if c.getLsbD 7 then (c <<< 1) ^^^ 0x07#8 else c <<< 1

/-- One byte of the CRC-8 (R369). -/
def crc8Byte (c b : Byte) : Byte := Nat.repeat crc8Bit 8 (c ^^^ b)

/-- The CRC-8 of the maintenance bus: start 0x00, no final inversion (R369). -/
def crc8 (bs : List Byte) : Byte := bs.foldl crc8Byte 0#8

/-- One bit of the reflected CRC-32C (polynomial 0x1EDC6F41, reflected 0x82F63B78); PRESUMED, log entry 7. -/
def crc32cBit (c : BitVec 32) : BitVec 32 :=
  if c.getLsbD 0 then (c >>> 1) ^^^ 0x82F63B78#32 else c >>> 1

/-- One byte of the CRC-32C. -/
def crc32cByte (c : BitVec 32) (b : Byte) : BitVec 32 := Nat.repeat crc32cBit 8 (c ^^^ b.setWidth 32)

/-- The CRC-32C of a byte sequence: start and final inversion all ones (PRESUMED, log entry 7). -/
def crc32c (bs : List Byte) : BitVec 32 := ~~~ (bs.foldl crc32cByte 0xFFFFFFFF#32)

/-- The two bytes of a word, low byte first (R6). -/
def wordBytes (w : Word) : List Byte := [w.setWidth 8, (w >>> 8).setWidth 8]

/-- The bytes of a number, lowest first (R6). -/
def bytesOf : Nat → Nat → List Byte
  | 0, _ => []
  | k + 1, x => BitVec.ofNat 8 x :: bytesOf k (x / 256)

/-- The number that bytes make, lowest first (R6). -/
def ofBytes : List Byte → Nat
  | [] => 0
  | b :: r => b.toNat + 256 * ofBytes r

/-- Words from bytes, low byte first (R6); an odd last byte is dropped. -/
def wordsOfBytes : List Byte → List Word
  | a :: b :: r => BitVec.ofNat 16 (a.toNat + 256 * b.toNat) :: wordsOfBytes r
  | _ => []

/-- Byte i of a line (R6). -/
def lineByte (d : Line) (i : Nat) : Byte := d.extractLsb' (8 * i) 8

/-- The 64 bytes of a line. -/
def lineBytes (d : Line) : List Byte := (List.range 64).map (lineByte d)

/-- A line from its bytes. -/
def lineOfBytes (bs : List Byte) : Line := BitVec.ofNat 512 (ofBytes bs)

/-- Element k of a list, `d` beyond its end. -/
def nth {α : Type} (l : List α) (k : Nat) (d : α) : α := (l[k]?).getD d

/-- A list with element k replaced. -/
def setNth {α : Type} : List α → Nat → α → List α
  | [], _, _ => []
  | _ :: r, 0, x => x :: r
  | y :: r, k + 1, x => y :: setNth r k x

/-- The first element a test accepts and the list without it. -/
def takeFirst {α : Type} (p : α → Bool) : List α → Option (α × List α)
  | [] => none
  | x :: r => if p x then some (x, r) else
      match takeFirst p r with
      | some (y, r') => some (y, x :: r')
      | none => none

/-- The least element under a strict order, the earliest of equals. -/
def firstMin {α : Type} (lt : α → α → Bool) : List α → Option α
  | [] => none
  | x :: r => match firstMin lt r with
      | none => some x
      | some y => some (if lt y x then y else x)

/-- A number put into a rising list without repeats. -/
def insNat : List Nat → Nat → List Nat
  | [], x => [x]
  | y :: r, x => if x < y then x :: y :: r else if x = y then y :: r else y :: insNat r x

end Sys2Proof.Machine
end

