-- ==== Sys2Proof/Machine/Types.lean ====
section
/-!
DEFINITION. The values that cross the block's faces and stand as operands of commands: request words (R88, R213),
cipher descriptors (R243), write lines (R90), response beats (R91, R259), snoops and answers (R215, R216), ring
messages, housekeeping results and the physical outcomes of a start (R339).
-/
namespace Sys2Proof.Machine
open Sys2Proof

/-- Scheduler service classes (R10, R131): B has the sub-levels BH and BL. -/
inductive Cls | p | t | l | bh | bl
  deriving DecidableEq, Repr

/-- Request opcodes (R89). -/
inductive Op | read | writePosted | writeAck | rdShared | rdUnique | upgrade | wrBack | masterReset
  deriving DecidableEq, Repr

/-- Response status codes (R92). -/
inductive Status
  | ok | poison | accessFault | addrFault | formatFault | keyEmpty | cipherFail | partition | resetDone | errMsg
  | specRefused | notValid
  deriving DecidableEq, Repr, Inhabited

/-- Coherence response types (R214); `none` is CRESP 0. -/
inductive Cresp | none | dataS | dataE | dataM | dataO | ack | retry | poison | partition
  deriving DecidableEq, Repr

/-- Stable and transient states of a line in a cache (R211, R227). -/
inductive CState | m | o | e | s | i | isD | imAd | smA | omA | miA | oiA | eiA | iiA
  deriving DecidableEq, Repr

/-- Snoop types (R215). -/
inductive SnpType | down | give | drop
  deriving DecidableEq, Repr

/-- Snoop answers (R216). -/
inductive SnpAns | gone | kept | fwd
  deriving DecidableEq, Repr

/-- OWNER_KIND of a filter entry (R218). -/
inductive OwnKind | none | x | o
  deriving DecidableEq, Repr

/-- INDOUBT of a filter entry (R218). -/
inductive Doubt | none | shared | dirty
  deriving DecidableEq, Repr

/-- Cipher modes (R245). -/
inductive CMode | xts128 | xts256 | gcm | ctr
  deriving DecidableEq, Repr

/-- The two access paths (R365, R367). -/
inductive Path | win | bus
  deriving DecidableEq, Repr

/-- How a package-wide write reaches a tile (R384): on its own path, sent onward by a TILE field, or copied by the anchor over the ring. -/
inductive Via | own | onward | copy
  deriving DecidableEq, Repr

/-- Tile states that a heartbeat reports (R83). -/
inductive TileSt | serving | quenched | recovering | fenced
  deriving DecidableEq, Repr

/-- Fault classes 0 to 8 (R304, R336). -/
inductive FClass | lane | calibration | row | bank | pc | stack | tile | link | reference
  deriving DecidableEq, Repr

/-- Causes of a dead agent (R241). -/
inductive DeadCause | reset | flushed | snoopLimit | fenced
  deriving DecidableEq, Repr

/-- Causes of a tile's fence (R304, class tile). -/
inductive FenceCause
  | lockstep | clock | commitHold | replica | config | notice | lone | heal | command
  deriving DecidableEq, Repr

/-- Outcomes of a decode (R183). -/
inductive Decoded | good | corrected | poisoned | misplaced | uncorrectable
  deriving DecidableEq, Repr

/-- The reason a recovery closes with (R308, R310, R311). -/
inductive RecResult | passed | noSpare | failed | abandoned | retired
  deriving DecidableEq, Repr

/-- The cipher descriptor of a port request (R243); reserved bits are `resv`. -/
structure CDesc where
  cv : Bool
  first : Bool
  last : Bool
  stream : BitVec 4
  mode : BitVec 3
  dir : Bool
  slot : BitVec 10
  du : BitVec 4
  len : BitVec 17
  iv : BitVec 128
  tag : BitVec 128
  resv : BitVec 6
  deriving DecidableEq, Repr

/-- A request word but for its opcode (R88), with the coherence sideband (R213) and the cipher sideband (R243). -/
structure ReqWord where
  epoch : BitVec 2
  priv : Bool
  spec : Bool
  lines : BitVec 2
  tag : BitVec 12
  tenant : BitVec 12
  master : BitVec 8
  addr : BitVec 38
  dirty : Bool
  rage : BitVec 3
  desc : Option CDesc
  deriving DecidableEq, Repr

/-- A write line on the write-data channel (R90). -/
structure WLine where
  epoch : BitVec 2
  last : Bool
  poison : Bool
  data : Line
  deriving DecidableEq, Repr

/-- Data of a line with its poison. -/
structure PLine where
  data : Line
  poison : Bool
  deriving DecidableEq, Repr

/-- A response beat (R91) with its cipher sideband (R259). -/
structure Beat where
  status : Status
  line : Nat
  last : Bool
  corrected : Bool
  tag : BitVec 12
  cresp : Cresp
  data : Line
  cstat : Nat
  ctag : BitVec 128
  deriving DecidableEq, Repr

/-- A mailbox record (R110). -/
structure MboxRec where
  cause : Nat
  master : BitVec 8
  tile : Nat
  tenant : BitVec 12
  addr : Nat
  tag : BitVec 12
  frame : BitVec 32
  deriving DecidableEq, Repr

/-- A request as it crosses the ring to its home (R15): what the home needs to order, queue and answer it. `total` is the length of the whole
request where this is a piece of it (0: the whole), whose first line is line `first` of it; `promoted` is the order of its last promotion (R154), and
`stamped` the clock and the tags that it carries from a retired unit (R168). -/
structure HReq where
  tile : Nat
  port : Port
  txid : Nat
  op : Op
  lines : Nat
  tenant : BitVec 12
  master : BitVec 8
  tag : BitVec 12
  addr : Nat
  cls : Cls
  demoted : Bool
  age : Nat
  coherent : Bool
  dirty : Bool
  rage : Nat
  data : List PLine
  total : Nat := 0
  promoted : Option Nat := none
  first : Nat := 0
  stamped : Option (Nat × BitVec 32 × BitVec 32) := none
  deriving DecidableEq, Repr

/-- One line's answer within a response from the home (R92). -/
structure LineAns where
  line : Nat
  status : Status
  corrected : Bool
  data : Line
  deriving DecidableEq, Repr

/-- A response that reaches the entry tile's port (R92, R214). `failed` is the record of a posted write that failed at its
home (R109). -/
structure RespMsg where
  port : Port
  txid : Nat
  cresp : Cresp
  lines : List LineAns
  failed : Option MboxRec := none
  deriving DecidableEq, Repr

/-- A snoop message on an arc of the ring (R210, R215, R223): `targets` are the agents it is for, `sup` the one that gets FWD 1, `after` the
request of an agent that the home answered last on the line, whose response goes first (R217). -/
structure SnoopMsg where
  ty : SnpType
  sup : Option Nat
  home : Nat
  txn : Nat
  req : Nat
  line : Nat
  targets : List Nat
  after : List (Nat × Nat)
  deriving DecidableEq, Repr

/-- A snoop presented to an agent (R215). -/
structure Snoop where
  agent : Nat
  ty : SnpType
  fwd : Bool
  home : Nat
  txn : Nat
  req : Nat
  line : Nat
  deriving DecidableEq, Repr

/-- A Seam update on its way to the parity tile (R195). `home` is the tile it comes from; `whole` holds the new line where Δ is unknown; `no` is the home's number for the write, 0
for one that awaits no acknowledgement; `req`, `start` and `finish` are the class, age and tags that its parts carry. -/
structure SeamUpd where
  home : Nat
  no : Nat
  req : HReq
  start : BitVec 32
  finish : BitVec 32
  line : Nat
  delta : Line
  oldPoison : Bool
  newPoison : Bool
  whole : Option Line
  deriving DecidableEq, Repr

/-- What another member of a stripe row decodes as (R198). -/
structure Member where
  data : Line
  res : Decoded
  deriving DecidableEq, Repr

/-- A heartbeat (R83) with the offset measured on it (R77). -/
structure Heartbeat where
  tile : TileNo
  frame : BitVec 16
  gen : BitVec 16
  anchor : TileNo
  st : TileSt
  offset : Int
  life : Option Nat := none
  deriving DecidableEq, Repr

/-- An entry of the repair map (R330, R352). -/
structure MapEnt where
  kind : Nat
  tile : Nat
  pc : Nat
  bankLane : Nat
  d : Nat
  deriving DecidableEq, Repr

/-- Messages and notices that the ring stop sends; a request and a response carry the arc they take (R14): ascending, descending, or none within
the tile (R80, R82, R83, R109, R132, R155, R195, R210, R232, R236, R313, R324, R326, R328). -/
inductive RingMsg
  | request (home : Nat) (arc : Option Bool) (r : HReq)
  | response (tile : Nat) (arc : Option Bool) (m : RespMsg)
  | notice (tile : Nat) (port : Port) (txid : Nat)
  | panic (port : Port) (on : Bool)
  | heartbeat (tile frame gen anchor : Nat) (st : TileSt)
  | fence (tile : Nat)
  | prepare (f : BitVec 64) (gen : BitVec 32) (digest : BitVec 32)
  | vote (tile : Nat) (digest : BitVec 32)
  | go (f : BitVec 64)
  | abort (missing differing : BitVec 8)
  | stagedCopy (obj : Nat) (ws : List Word)
  | snapshotAt (frame : BitVec 64)
  | snoop (arc : Option Bool) (m : SnoopMsg)
  | forward (tile : Nat) (port : Port) (line : Nat) (d : PLine) (dirty : Bool)
  | snoopAnswer (home agent txn : Nat) (a : SnpAns) (zero : Bool) (keep : CState) (dirty : Bool) (data : Option Line)
  | deadAgent (agent : Nat) (cause : DeadCause)
  | lostLine (home line req : Nat)
  | seamUpdate (tile : Nat) (u : SeamUpd)
  | seamAck (tile line no : Nat) (ok : Bool)
  | memberRead (line : Nat) (tiles : List Nat)
  | member (tile line : Nat) (m : Member)
  | retired (tile kind pc bank : Nat)
  | linkNotice (k : Nat)
  | resend (side : Nat)
  | split (d : BitVec 64)
  | heal (h : BitVec 64)
  | restart (tile : Nat)
  | shutdown
  | foster (tile : Nat)
  | repairEntries (l : List MapEnt)
  | config (gen digest : BitVec 32)
  | lifeEq (v : Nat)
  | ledger (tile : Nat) (map : List MapEnt) (failed : Nat) (counts : List Nat)
  | onward (tile no : Nat) (bytes : List Byte)
  | onwardReply (no : Nat) (bytes : List Byte)
  | imageRecord (obj : Nat) (ws : List Word)
  | chainRecord (up : Bool) (tile : Nat) (samples : List Word) (missing : BitVec 32) (crc : BitVec 32)
  | maps
  deriving DecidableEq, Repr

/-- Stack commands on a pseudo-channel's bus (R158). -/
inductive StackCmd
  | act (bank row : Nat)
  | rd (bank col : Nat) (ap : Bool)
  | wr (bank col : Nat) (ap : Bool)
  | refPb (bank : Nat) (forced : Bool)
  | refAb
  | pdEnter
  | pdExit
  | srEnter
  | srExit
  deriving DecidableEq, Repr

/-- What the block drives at its faces (R404), kept in the order driven. -/
inductive Out
  | ring (m : RingMsg)
  | beat (p : Port) (b : Beat)
  | initWord (p : Port) (epoch : BitVec 2) (req wr : Nat)
  | returnWord (p : Port) (epoch : BitVec 2) (req wr : Nat)
  | snoop (s : Snoop)
  | stack (pc : Nat) (at_ : Nat) (c : StackCmd)
  | trace (frame : BitVec 64) (slot : Nat)
  | reply (bytes : List Byte)
  | read (h : Path) (ws : List Word)
  | ibi (payload : List Byte)
  | i3c (bytes : List Byte)
  | agentReq (a : Nat) (op : Op) (line : Nat) (dirty : Bool) (rage : Nat) (data : Line)
  | agentAns (a : Nat) (home txn : Nat) (ans : SnpAns) (new : CState) (dirty : Bool) (data : Line)
  | store (cmd : Nat) (addr : Nat)
  deriving DecidableEq, Repr

/-- The measurements of an Assay step on a group, kinds 0 to 3 (R279). -/
structure AssayMeas where
  drvPu : Word
  drvPd : Word
  odt : Word
  dlyGain : Word
  deriving DecidableEq, Repr

/-- The measurements of the tile-wide kinds at a round's end (R280), where one was made. -/
structure HkMeas where
  trim : Option Word
  band0 : Option Word
  band1 : Option Word
  refclk : Bool
  deriving DecidableEq, Repr

/-- One lane in a Planish step or a lane check: its read and write eyes in taps, and how far the centres lie off (R285, R286). -/
structure LaneEye where
  lane : Nat
  readEye : Nat
  writeEye : Nat
  off : Int
  writeOff : Int := 0
  deriving DecidableEq, Repr

/-- What a tile's stack declares when it is read (R37, R169, R298). -/
structure StackDecl where
  answered : Bool
  ids : Nat
  rowBits : Nat
  timing : List Nat
  grades : BitVec 5
  laneSpares : Nat
  rowSpares : Nat
  deriving DecidableEq, Repr

/-- The anchor's tick marker as a joining tile takes it, corrected by the link delay (R76): FRAME_NO and the cycle within the frame. -/
structure Marker where
  frame : BitVec 64
  cyc : Fin 1024
  deriving DecidableEq, Repr

/-- A record of an image: index, first subindex, words (R348). -/
structure ImgRec where
  idx : Nat
  sub : Nat
  ws : List Word
  deriving DecidableEq, Repr

/-- The image that a tile takes from the store's reader or from the serving anchor (R339 step 5, R345): copy A (0) or B (1), SEQ, LENGTH, records. -/
structure ImgSent where
  copy : Fin 2
  seq : BitVec 32
  len : Nat
  records : List ImgRec
  deriving DecidableEq, Repr

/-- What the reader of the store, or the anchor that serves, sends a tile that starts (R339 steps 4 and 5, R345): the repair map, the tile's FAILED_STARTS in the
tally, SECONDS, CYCLES and the tile's LIFE_EQ, and the image, none where there is no valid one. -/
structure StoreSent where
  map : List MapEnt
  failed : Nat
  seconds : Nat
  cycles : Nat
  life : Nat
  image : Option ImgSent
  deriving DecidableEq, Repr

/-- What the store declares of itself by SFDP (R346): its density, 4-byte addressing, the 1-1-4 fast read with its quad enable, the page program's size and longest
time, the 4 KiB erase, the suspend's latency and a program beside it, and the highest clock in MHz; times in µs. -/
structure Sfdp where
  mib : Nat := 16
  fourByte : Bool := true
  quadRead : Bool := true
  page : Nat := 256
  programUs : Nat := 1500
  erase4k : Bool := true
  suspend : Bool := true
  suspendUs : Nat := 500
  programInSuspend : Bool := true
  maxMHz : Nat := 133
  deriving DecidableEq, Repr

/-- The first criterion of R346 that the store fails, by its place in the rule's list; none where it is usable. -/
def Sfdp.item (d : Sfdp) : Option Nat :=
  if d.mib < 16 then some 0
  else if !d.fourByte then some 1
  else if !d.quadRead then some 2
  else if d.page != 256 || decide (1500 < d.programUs) then some 3
  else if !d.erase4k then some 4
  else if !d.suspend || decide (500 < d.suspendUs) || !d.programInSuspend then some 5
  else none

/-- The physical outcomes a start meets, step by step (R339, R342), and what other tiles report in it; `failEarly` and `failLate` name the tiles
whose start fails before step 5 ends, and later (R340), `blankOthers` those in Blank mode when this tile's start fails (R344), `anchorTile` the tile that holds the
anchor duties where others serve, `sent` what the store's reader or the anchor sends this tile, `lives` the LIFE_EQ of other tiles for the tallies (R355). -/
structure StartEnv where
  bandgapOk : Bool
  witnessOk : Bool
  lockstepOk : Bool
  ringOk : Bool
  answering : BitVec 8
  othersServing : Bool
  anchorFrame : BitVec 64
  sfdp : Sfdp
  pllOk : Bool
  stack : StackDecl
  capsOthers : List (Nat × Nat)
  gradesOthers : BitVec 5
  annealFails : List Nat
  hardDue : Nat
  pairFails : List Nat
  gradeInForce : Option Nat
  ms10 : Nat
  assay : List AssayMeas := List.replicate 16 ⟨0, 0, 0, 256⟩
  tileAssay : HkMeas := ⟨none, none, none, true⟩
  eyes : List (Nat × LaneEye) := []
  failEarly : BitVec 8 := 0
  failLate : BitVec 8 := 0
  blankOthers : BitVec 8 := 0
  anchorTile : Fin 8 := 0
  sent : Option StoreSent := none
  lives : List (Fin 8 × Nat) := []
  deriving DecidableEq, Repr

/-- A Seam write as its acknowledgement names it: its line and the home's number for it (R195 step 6). -/
structure SeamRef where
  line : Nat
  no : Nat
  deriving DecidableEq, Repr

/-- The snoop that an answer names: TXN and HOME of the answer's header (R216). -/
structure SnpName where
  txn : BitVec 8
  home : Fin 8
  deriving DecidableEq, Repr

/-- An agent whose turn it is at its ring stop, with the messages of other homes that have come there since (R210). -/
structure SnoopTurn where
  agent : Fin 6
  arrived : List SnoopMsg := []
  deriving DecidableEq, Repr

/-- The words of a chain record behind its samples: the MISSING bits and the CRC-32C (R274). -/
structure ChainTail where
  missing : BitVec 32
  crc : BitVec 32
  deriving DecidableEq, Repr

/-- What a Quench restart finds (R296): the pseudo-channels that Anneal could not train, the measurements of Assay, the eyes of Anneal's lane check,
the anchor's tick marker, and the stack's identification (s, r) where it is read (R37, R304). -/
structure RestartEnv where
  fails : List Pc := []
  assay : List AssayMeas
  tile : HkMeas
  eyes : List (Pc × LaneEye) := []
  mark : Marker
  ident : Option (Nat × Nat) := none
  deriving DecidableEq, Repr

/-- What a heal finds beside the digests (R204, R328): `fostered` tells whether the anchor's arc fostered this tile under REPAIR_CMD code 8, `mark` is
the anchor's tick marker, `rows` the rows on the other tiles' resynchronisation lists, all of them where `whole`,
`at_` the tick that the anchor's declaration names (R328). -/
structure HealEnv where
  fostered : Bool
  mark : Marker
  rows : List Nat := []
  whole : Bool := false
  at_ : Option (BitVec 64) := none
  deriving DecidableEq, Repr

/-- The reply to a request sent onward over the ring, with the number under which the anchor sent it (R370, R372). -/
structure OnwardReply where
  no : Nat
  bytes : List Byte
  deriving DecidableEq, Repr

/-- A unit of the repair ladder: pseudo-channel, stack ID bank and row, or a lane (R305). -/
structure RUnit where
  pc : Nat
  bank : Nat
  row : Nat
  lane : Nat
  deriving DecidableEq, Repr

/-- The shaper registers of a queue (R148). -/
inductive ShaperReg | rate | burst | weight
  deriving DecidableEq, Repr

/-- The scheduler registers that SCHED_WRITE writes (R176). -/
inductive SchedReg | mode | ageT | ageL | ageB | wrWatermarks | pdIdle
  deriving DecidableEq, Repr

/-- The Pickle registers that PICKLE_WRITE writes (R205). -/
inductive PickleReg | period | ctrl | ceLimit
  deriving DecidableEq, Repr

/-- The home-agent registers that HA_WRITE writes (R239). -/
inductive HaReg | ctrl | snoopLimit | reserveLimit | holdTime
  deriving DecidableEq, Repr

end Sys2Proof.Machine
end

