-- ==== Sys2Proof/Syntax.lean ====
section
/-!
DEFINITION. The commands of the block: one constructor for each row of spec/opcode_table.json, in the table's order,
with the operands that come from outside the block. The rule each row names is cited beside its meaning.
-/
namespace Sys2Proof
open Sys2Proof.Machine

/-- The commands. A register write carries the path it arrives on (R365, R367). -/
inductive Instr
  -- power and start
  | powerOn
  | resetRelease
  | resetAssert (lowNs : Nat)
  | pwrfailFall (lowNs : Nat)
  | pwrfailRise
  | start (e : StartEnv)
  | startRetry
  | startTimeout
  | startCmdRestart (h : Path)
  | startCmdShutdown (h : Path) (carried : Bool)
  | tallyHourly
  | hmOpen (h : Path)
  | hmEraseDone (ok : Bool)
  | hmPageProgram (h : Path) (page : List Word)
  | hmClose (h : Path)
  | hmAbandon (h : Path)
  | repairMapWrite
  -- frame, slots, refresh
  | frameTick
  | slotStart
  | refreshDebtAccrue (pc : Pc) (bank : Pc)
  | forcedRefresh (pc : Pc)
  | perBankRefresh (pc : Pc)
  | allBankRefresh (pc : Pc)
  | lockstepMismatch
  | heartbeatReceive (hb : Heartbeat)
  | heartbeatLoss (u : TileNo)
  -- commit
  | commitArmTile (h : Path)
  | commitArmPackage (h : Path)
  | commitPrepare (f : BitVec 64) (gen digest : BitVec 32)
  | commitVote (u : TileNo) (digest : BitVec 32)
  | commitDecide
  | commitGo
  | commitAbort (missing differing : BitVec 8)
  | commitApply
  | mapInitDone
  | commitHoldTimeout
  | pdEnableWrite (h : Path) (v : BitVec 32)
  | domainPowered (d : Fin 30)
  | decodeAddrWrite (h : Path) (v : BitVec 64)
  -- ports
  | read (p : Port) (w : ReqWord)
  | writePosted (p : Port) (w : ReqWord)
  | writeAck (p : Port) (w : ReqWord)
  | rdShared (p : Port) (w : ReqWord)
  | rdUnique (p : Port) (w : ReqWord)
  | upgrade (p : Port) (w : ReqWord)
  | wrBack (p : Port) (w : ReqWord)
  | masterReset (p : Port) (w : ReqWord)
  | writeLine (p : Port) (l : WLine)
  | requestLeaveQueue (p : Port)
  | responsePush (p : Port)
  | pullStrobe (p : Port)
  | responseReturn (m : RespMsg)
  | watermarksWrite (h : Path) (p : Port) (v : Word)
  | portEnable (h : Path) (p : Port)
  | portDisable (h : Path) (p : Port)
  | portFlush (h : Path) (p : Port)
  | flushComplete (p : Port)
  | portPullSet (h : Path) (p : Port) (on : Bool)
  | portXoffPinSet (h : Path) (p : Port) (pin : BitVec 4)
  | creditsWrite (h : Path) (p : Port) (v : Word)
  | mboxPop (h : Path) (p : Port)
  | mboxClear (h : Path) (p : Port)
  | completionNotice (p : Port) (txid : Nat)
  -- budgets, queues, scheduling
  | budgetWindowStart (m : BitVec 8)
  | budgetWrite (h : Path) (m : BitVec 8) (v : Word)
  | outCapWrite (h : Path) (m : BitVec 8) (v : Word)
  | windowWrite (h : Path) (m : BitVec 8) (v : Word)
  | homeRequestArrive (r : HReq)
  | tenantMapWrite (h : Path) (who : BitVec 12 ⊕ Port) (v : Word)
  | shaperWrite (h : Path) (q : Fin 1024) (r : ShaperReg) (v : Word)
  | requestRelease (pc : Pc)
  | latencySample
  | latModeWrite (h : Path) (q : Option (Fin 1024)) (v : Word)
  | agePromotion
  | panicNotice (u : TileNo) (p : Port) (on : Bool)
  | accessIssue (pc : Pc)
  | schedWrite (h : Path) (r : SchedReg) (v : Word)
  | overrideWrite (h : Path) (k : Fin 17) (v : Word)
  | readDataReturn (pc : Pc) (errs : List (Fin 36 × Word))
  | readDataAbsent (pc : Pc)
  | writeDataDone (pc : Pc) (ok : Bool)
  -- Pickle and Seam
  | pickleDebtStep (pc : Pc)
  | picklePassEnd
  | pickleWrite (h : Path) (r : PickleReg) (v : Word)
  | seamUpdate (home : TileNo) (u : SeamUpd) (whole : Option Line)
  | seamAck (w : SeamRef) (ok : Bool)
  | seamReconstructDone (line : Nat) (members : List Member) (parity : Member)
  | rebuildRowSwitch (row : Nat) (u : TileNo)
  | rebuildDone
  | resyncDone (rows : List Nat)
  | rebuildLimitWrite (h : Path) (v : Word)
  -- coherence
  | snoopPresent (x : SnoopTurn)
  | rplGone (a : Fin 48) (n : SnpName)
  | rplKept (a : Fin 48) (n : SnpName)
  | rplFwd (a : Fin 48) (n : SnpName) (keep : CState) (dirty : Bool) (data : Line)
  | homeStackReadDone (txn : BitVec 8) (d : PLine)
  | homeWritebackDone (txn : BitVec 8)
  | snoopTimeout (a : Fin 6)
  | reservationExpire (line : Nat)
  | deadAgentNotice (a : Fin 48) (c : DeadCause)
  | reclaimWalkDone (a : Fin 48)
  | lostHomeRecallDone
  | splitClassifyDone
  | holdExpire
  | healResolveDone
  | lostLineNotice (line : Nat) (req : Fin 48)
  | haWrite (h : Path) (r : HaReg) (v : Word)
  | agentLoad (a : Fin 6) (line : Nat) (unique : Bool)
  | agentStore (a : Fin 6) (line : Nat) (d : Line)
  | agentEviction (a : Fin 6) (line : Nat) (tell : Bool)
  | agentSnoop (a : Fin 6)
  | agentResponse (a : Fin 6) (line : Nat) (c : Cresp) (d : Line)
  -- cipher
  | cipherAdmit (p : Port)
  | segmentCompare (e : Fin 256) (differ : Bool)
  | streamTimeout (p : Port) (stream : BitVec 4)
  | slotLoadKind1 (h : Path) (k : Fin 1024)
  | slotLoadKind2 (h : Path) (k : Fin 1024)
  | slotLoadKind3 (h : Path) (k : Fin 1024)
  | slotErase (h : Path) (k : Fin 1024)
  | slotCmdApply (k : Fin 1024)
  | kcvDone (k : Fin 1024)
  | keyWrite (h : Path) (k : Fin 1024) (w : Fin 32) (v : Word)
  | keyBufferTimeout (h : Path)
  | eraseAll (h : Path)
  -- housekeeping, training, heat
  | hkSample (v : Option Word) (powered : Bool)
  | hkRoundEnd (m : HkMeas)
  | chainRecordReceive (u : TileNo) (samples : List Word) (tail : ChainTail)
  | chainRecordTimeout (u : TileNo)
  | assayStepDone (g : Fin 16) (m : AssayMeas)
  | planishStepDone (pc : Pc) (lanes : List LaneEye)
  | pllLockLoss (k : Fin 2)
  | annealDone (g : Fin 16) (fails : BitVec 4) (eyes : List (Pc × LaneEye))
  | coeffSetWrite (h : Path) (kind : Fin 7) (g : Fin 16) (k : Fin 5) (v : Word)
  | quenchTrip (sensor : Option (Fin 8)) (reading : Word)
  | quenchRestart
  | quenchRestartDone (e : RestartEnv)
  -- faults and repair
  | recoveryClose (r : RecResult)
  | retirementNotice (u : TileNo) (kind : Fin 3) (pc : Pc) (bank : Pc)
  | fenceNotice (u : TileNo)
  | linkTimeout (side : Fin 2)
  | linkNotice (k : TileNo)
  | linkRestore (k : TileNo)
  | splitApply
  | healApply (gen : BitVec 32) (digest : BitVec 32) (group : List (Nat × Word)) (stillDiffers : Bool) (e : HealEnv)
  | repairLane (h : Path)
  | repairRetireBank (h : Path)
  | repairRetirePc (h : Path)
  | repairRetireStack (h : Path)
  | repairFenceTile (h : Path) (u : BitVec 4)
  | repairRestartTile (h : Path) (u : BitVec 4) (carried : Bool)
  | repairFosterSplit (h : Path)
  | repairMapClear (h : Path)
  -- maintenance bus
  | maintRead (tile : BitVec 4) (idx : Word) (sub : Byte) (count : Byte) (carried : Option Nat)
  | maintWrite (tile : BitVec 4) (idx : Word) (sub : Byte) (ws : List Word) (carried : Option Nat)
  | maintReplyFetch
  | entdaa (a : BitVec 7)
  | setnewda (a : BitVec 7)
  | rstdaa
  | enec
  | disec
  | getpid
  | getbcr
  | getdcr
  | getstatus
  | getmwl
  | getmrl
  | hdrEntry
  | ibiAck
  -- dictionary
  | windowBadAccess (off : BitVec 25) (bits : Nat) (write : Bool)
  | registerWrite (h : Path) (idx : Word) (sub : Byte) (ws : List Word)
  | packageWideWrite (h : Path) (via : Via) (idx : Word) (sub : Byte) (ws : List Word)
  | latchRead (h : Path) (idx : Word) (sub : Byte) (width : Fin 3)
  | unlockWrite (h : Path) (v : Word)
  | unlockLatchExpire (h : Path)
  | pathLockExpire (h : Path)
  | phaseWrite (h : Path) (v : Word)
  | snapshotTile (h : Path)
  | snapshotPackage (h : Path)
  | packageSnapshotTake
  | replicaRestoreDone (idx : Word) (sub : Byte) (v : Word) (digest : BitVec 32)
  | logPop (h : Path)
  | logClear (h : Path)
  | powerLoss
  | unlistedOpcode (p : Port) (op : BitVec 4) (w : ReqWord)
  | respZeroAnswer (a : Fin 48) (n : SnpName)
  | discardedRequest (bytes : List Byte)
  | onwardReply (m : OnwardReply)
  | hdrExitPattern
  | pageProgramDone (ok : Bool)
  | coolingCountStart
  deriving DecidableEq, Repr

end Sys2Proof
end

