-- ==== Sys2Proof/Decode.lean ====
section
/-!
DEFINITION. The table gives no row of its commands any bits: no word spells a command.
-/
namespace Sys2Proof

/-- The command that a word of the table spells: none, since every row's field list is empty. -/
def decodeTableWord (_nbits _w : Nat) : Option Instr := none

end Sys2Proof
end

