-- ==== Sys2Proof/Machine/Aes.lean ====
section
/-!
DEFINITION. The block cipher and the modes that R245 to R249 name: AES with 128- and 256-bit keys, XTS (IEEE 1619), GCM
(NIST SP 800-38D) and CTR. The manual names the standards and does not print them: their text is PRESUMED (log entry 12).
-/
namespace Sys2Proof.Machine
open Sys2Proof

/-- A byte times x modulo x^8 + x^4 + x^3 + x + 1. -/
def gb2 (a : Byte) : Byte := if a.getLsbD 7 then (a <<< 1) ^^^ 0x1B#8 else a <<< 1

/-- A product of two bytes, by the bits of the second. -/
def gbMulN : Nat → Byte → Byte → Byte
  | 0, _, _ => 0
  | k + 1, a, b => (if b.getLsbD 0 then a else 0) ^^^ gbMulN k (gb2 a) (b >>> 1)

/-- The product of two bytes. -/
def gbMul (a b : Byte) : Byte := gbMulN 8 a b

/-- a to the power 2^(k+1) − 2: with k = 7, the inverse. -/
def gbInvN : Nat → Byte → Byte → Byte
  | 0, _, acc => acc
  | k + 1, x, acc => let y := gbMul x x; gbInvN k y (gbMul acc y)

/-- The substitution of a byte: the inverse, then the affine map. -/
def subByte (a : Byte) : Byte :=
  let v := gbInvN 7 a 1
  v ^^^ v.rotateLeft 1 ^^^ v.rotateLeft 2 ^^^ v.rotateLeft 3 ^^^ v.rotateLeft 4 ^^^ 0x63#8

/-- The inverse substitution. -/
def unsubByte (a : Byte) : Byte :=
  gbInvN 7 (a.rotateLeft 1 ^^^ a.rotateLeft 3 ^^^ a.rotateLeft 6 ^^^ 0x05#8) 1

/-- Byte lists added. -/
def xorBytes (a b : List Byte) : List Byte := List.zipWith (fun x y => x ^^^ y) a b

/-- Byte i of the moved rows: row r of column c comes from column c + r (forward) or c − r. -/
def moveRows (fwd : Bool) (st : List Byte) : List Byte :=
  (List.range 16).map (fun i =>
    let r := i % 4
    let c := i / 4
    nth st (4 * ((if fwd then c + r else c + 4 - r) % 4) + r) 0)

/-- A column times a circulant matrix given by its first row. -/
def mixColumns (m : List Byte) (st : List Byte) : List Byte :=
  (List.range 16).map (fun i =>
    let r := i % 4
    let c := i / 4
    (List.range 4).foldl (fun a k => a ^^^ gbMul (nth m ((k + 4 - r) % 4) 0) (nth st (4 * c + k) 0)) 0)

/-- The next key words: `w` lists the words so far, last first. -/
def keyWordsN (nk : Nat) : Nat → Nat → Byte → List (List Byte) → List (List Byte)
  | 0, _, _, w => w
  | k + 1, i, rc, w =>
    let prev := nth w 0 []
    let old := nth w (nk - 1) []
    if i % nk = 0 then
      let rot := (prev.drop 1 ++ prev.take 1).map subByte
      keyWordsN nk k (i + 1) (gb2 rc) (xorBytes old (xorBytes rot [rc, 0, 0, 0]) :: w)
    else if 6 < nk ∧ i % nk = 4 then keyWordsN nk k (i + 1) rc (xorBytes old (prev.map subByte) :: w)
    else keyWordsN nk k (i + 1) rc (xorBytes old prev :: w)

/-- Bytes cut into pieces of `n`. -/
def chunksN {α : Type} (n : Nat) : Nat → List α → List (List α)
  | 0, _ => []
  | k + 1, l => l.take n :: chunksN n k (l.drop n)

/-- The round keys of a key of 16 or 32 bytes, first round first. -/
def roundKeys (key : List Byte) : List (List Byte) :=
  let nk := key.length / 4
  let w := keyWordsN nk (4 * (nk + 7) - nk) nk 1 (chunksN 4 nk key).reverse
  (chunksN 4 (nk + 7) w.reverse).map (fun x => x.flatten)

/-- One block enciphered. -/
def aesEnc (key blk : List Byte) : List Byte :=
  let rk := roundKeys key
  let st0 := xorBytes blk (nth rk 0 [])
  let mid := (rk.drop 1).dropLast.foldl
    (fun st k => xorBytes (mixColumns [2, 3, 1, 1] (moveRows true (st.map subByte))) k) st0
  xorBytes (moveRows true (mid.map subByte)) (rk.getLastD [])

/-- One block deciphered. -/
def aesDec (key blk : List Byte) : List Byte :=
  let rk := (roundKeys key).reverse
  let st0 := xorBytes blk (nth rk 0 [])
  let mid := (rk.drop 1).dropLast.foldl
    (fun st k => mixColumns [14, 11, 13, 9] (xorBytes ((moveRows false st).map unsubByte) k)) st0
  xorBytes ((moveRows false mid).map unsubByte) (rk.getLastD [])

/-- The 16 bytes of a 128-bit value, lowest first. -/
def le16 (x : BitVec 128) : List Byte := bytesOf 16 x.toNat
/-- A 128-bit value from 16 bytes, lowest first. -/
def ofLe16 (b : List Byte) : BitVec 128 := BitVec.ofNat 128 (ofBytes b)
/-- The 16 bytes of a 128-bit value, highest first. -/
def be16 (x : BitVec 128) : List Byte := (le16 x).reverse
/-- A 128-bit value from 16 bytes, highest first. -/
def ofBe16 (b : List Byte) : BitVec 128 := ofLe16 b.reverse

/-- A tweak times x. -/
def xtsNext (t : BitVec 128) : BitVec 128 := if t.getLsbD 127 then (t <<< 1) ^^^ 0x87#128 else t <<< 1

/-- The tweak of block j of a data unit. -/
def xtsTweak (key2 : List Byte) (unit : BitVec 128) (j : Nat) : List Byte :=
  le16 (Nat.repeat xtsNext j (ofLe16 (aesEnc key2 (le16 unit))))

/-- One block of XTS. -/
def xtsBlock (enc : Bool) (key1 tw blk : List Byte) : List Byte :=
  xorBytes ((if enc then aesEnc else aesDec) key1 (xorBytes blk tw)) tw

/-- One step of the product of the GCM field. -/
def ghStep (p : BitVec 128 × BitVec 128) (b : Bool) : BitVec 128 × BitVec 128 :=
  (if b then p.1 ^^^ p.2 else p.1,
   if p.2.getLsbD 0 then (p.2 >>> 1) ^^^ (0xE1#128 <<< 120) else p.2 >>> 1)

/-- The product of the GCM field, the highest bit being the first. -/
def ghMul (x y : BitVec 128) : BitVec 128 :=
  ((List.range 128).foldl (fun p i => ghStep p (x.getLsbD (127 - i))) (0, y)).1

/-- The hash of the ciphertext blocks and the length block, no associated data (R247). -/
def ghash (h : BitVec 128) (blocks : List (List Byte)) (len : Nat) : BitVec 128 :=
  let body := blocks.foldl (fun a b => ghMul (a ^^^ ofBe16 b) h) 0
  ghMul (body ^^^ BitVec.ofNat 128 (8 * len)) h

/-- J0: the IV of 96 bits, 31 zero bits and a one bit (R247). -/
def gcmJ0 (iv : BitVec 128) : List Byte := (le16 iv).take 12 ++ [0, 0, 0, 1]

/-- A counter block with its low 32 bits raised. -/
def inc32 (b : List Byte) (k : Nat) : List Byte :=
  b.take 12 ++ (bytesOf 4 ((ofBytes (b.drop 12).reverse + k) % 2 ^ 32)).reverse

/-- The key stream of block i under GCM (R247). -/
def gcmStream (key : List Byte) (iv : BitVec 128) (i : Nat) : List Byte := aesEnc key (inc32 (gcmJ0 iv) (i + 1))

/-- The key stream of block i under CTR: the counter block is a big-endian integer modulo 2^128 (R248). -/
def ctrStream (key : List Byte) (iv : BitVec 128) (i : Nat) : List Byte :=
  aesEnc key (be16 (ofBe16 (le16 iv) + BitVec.ofNat 128 i))

/-- The key check value: the first three bytes of the cipher of an all-zero block (R264). -/
def keyCheck (key : List Byte) : BitVec 24 :=
  BitVec.ofNat 24 (ofBytes ((aesEnc key (List.replicate 16 0)).take 3))

/-- The bytes of a block of the range, those beyond LEN left out. -/
def rangeBlock (inp : Nat → Byte) (len i : Nat) : List Byte :=
  ((List.range 16).filter (fun b => decide (16 * i + b < len))).map (fun b => inp (16 * i + b))

/-- Block i of an XTS range of `len` bytes in units of `d` bytes, with ciphertext stealing in the last unit (R246). -/
def xtsOut (enc : Bool) (key1 key2 : List Byte) (iv : BitVec 128) (d len : Nat) (inp : Nat → Byte) (i : Nat) : List Byte :=
  let u := 16 * i / d
  let j := i - u * d / 16
  let unit := iv + BitVec.ofNat 128 u
  let tw := fun k => xtsTweak key2 unit k
  let blk := rangeBlock inp len
  let ulen := min d (len - u * d)
  let m := ulen / 16
  let b := ulen % 16
  let at_ := fun k => blk (u * d / 16 + k)
  if b = 0 ∨ j + 1 < m then xtsBlock enc key1 (tw j) (at_ j)
  else
    -- the block before the last is processed with the other tweak first; its tail fills the short block
    let first := xtsBlock enc key1 (if enc then tw (m - 1) else tw m) (at_ (m - 1))
    if j = m then first.take b
    else xtsBlock enc key1 (if enc then tw m else tw (m - 1)) (at_ m ++ first.drop b)

/-- The tag of a GCM range, over its ciphertext (R247). -/
def gcmTag (key : List Byte) (iv : BitVec 128) (len : Nat) (cipher : Nat → Byte) : BitVec 128 :=
  let pad := fun (l : List Byte) => l ++ List.replicate (16 - l.length) 0
  let h := ofBe16 (aesEnc key (List.replicate 16 0))
  let s := ghash h ((List.range (ceilDiv len 16)).map (fun i => pad (rangeBlock cipher len i))) len
  ofLe16 (xorBytes (be16 s) (aesEnc key (gcmJ0 iv)))

end Sys2Proof.Machine
end

