-- ==== Sys2Proof/Config.lean ====
section
/-!
DEFINITION. What the spec leaves to the part or leaves open: opaque constants, of which no proof can see a value
(log entries 2, 6, 8, 9).
-/
namespace Sys2Proof.Config
open Sys2Proof Sys2Proof.Machine

/-- A free bit, drawn at the state's counter: whether a pulse between 100 ns and 1 µs takes effect (R400). Log entry 2. -/
opaque freeBit : Nat → Bool
/-- A free word, drawn at the state's counter. Log entry 2. -/
opaque freeWord : Nat → Word

/-- The status of a read beat of an aborted cipher stream that was not yet released (R256 states none), drawn at the
state's counter. Log entry 2. -/
opaque freeStatus : Nat → Status

/-- The data of such a beat where its status is OK, drawn at the state's counter. Log entry 2. -/
opaque freeLine : Nat → Line

/-- STEPPING [1000:03] (R392: no value stated). Log entry 6. -/
opaque stepping : Word
/-- UNIQUE_ID [1000:06-09] (R392: fused). Log entry 6. -/
opaque uniqueId : BitVec 64
/-- The coefficient sets fused into the part, by object index and point (R284, R301). Log entry 6. -/
opaque fusedSet : Nat → Nat → Word
/-- The provisional ID above its lowest 4 bits (R367). Log entry 6. -/
opaque pidHigh : BitVec 44
/-- The I3C bus and device characteristics bytes (R367: no value stated). Log entry 6. -/
opaque i3cBcr : Byte
/-- See `i3cBcr`. -/
opaque i3cDcr : Byte
/-- The two bytes GETSTATUS returns, of whether an interrupt is pending (R367: no layout stated). Log entry 6. -/
opaque i3cStatus : Bool → List Byte

/-- The digest of the staged package-wide words (R80: CRC-32C, order of words not stated). Log entry 8. -/
opaque stageDigest : List (Nat × Word) → BitVec 32
/-- The word for a message in event 0x0A03 (R241: not numbered). Log entry 9. -/
opaque msgCode : Nat → Word
/-- The word for a home state in event 0x0A03 (R241: not numbered). Log entry 9. -/
opaque homeCode : Nat → Word
/-- The word for a unit in the repair events (R337: not numbered). Log entry 9. -/
opaque unitCode : RUnit → Word
/-- The word for a cause of a retirement (R337: not numbered). Log entry 9. -/
opaque causeCode : FClass → Word
/-- The word for a cause of a fence (R337: not numbered). Log entry 9. -/
opaque fenceCode : FenceCause → Word
/-- The word for the result of a recovery, an Anneal or a reconciliation (R303, R337: not numbered). Log entry 9. -/
opaque resultCode : RecResult → Word
/-- The word for the direction of a narrow eye (R287: not numbered). Log entry 9. -/
opaque dirCode : Bool → Word
/-- The reason word of event 0x0E17 for a refused REPAIR_CMD (R334: not numbered). Log entry 9. -/
opaque repairReason : Nat → Word
/-- The word for the form of a row repair or the kind of a hard repair (R337: not numbered). Log entry 9. -/
opaque formCode : Bool → Word
/-- The word for a store region of events 0x010A and 0x010B (R364: not numbered). Log entry 9. -/
opaque regionCode : Nat → Word
/-- The cause word of event 0x0D08 (R303: not numbered) and of a parity outcome (R387). Log entry 9. -/
opaque quenchCode : Bool → Word
/-- The outcome word of event 0x0F10 (R387: not numbered). Log entry 9. -/
opaque parityOutcome : Nat → Word
/-- The cause word of event 0x0404 for the flush after a snoop limit (R113, R232: not numbered). Log entry 9. -/
opaque flushCause : Word
/-- The group word of events 0x0C06 and 0x0C07 for a tile-wide kind, which has no group (R303: not stated). Log entry 9. -/
opaque tileGroup : Word
/-- The sensor word of event 0x0D08 for a trip by the stack's indication (R303: not stated). Log entry 9. -/
opaque noSensor : Word
/-- The SFDP item word of event 0x0109, by the criterion's place in R346 (R364: not numbered). Log entry 9. -/
opaque sfdpCode : Nat → Word
/-- The path word of event 0x0B05 (R263: not numbered). Log entry 9. -/
opaque pathCode : Path → Word

end Sys2Proof.Config
end

