-- ==== Sys2Proof/Machine/State.lean ====
section
/-!
DEFINITION. The state of one tile's block (R10, R22): plain data, every register, FIFO, buffer, counter, mode and pin
the spec gives it, the queue of waiting commands, and the record of what it drove at its faces. Field defaults are the
values at reset; those the spec does not state are named in log entry 3.
-/
namespace Sys2Proof.Machine
open Sys2Proof

/-- Where the block stops. Raised only by caching-agent commands, since R212 and R228 give those cases no effect. -/
inductive Fault
  /-- Raised by AGENT_LOAD, AGENT_STORE, AGENT_EVICTION on a line in a transient state (R212: any other action is a protocol violation). Safe: the model stops. -/
  | agentActionUnlisted
  /-- Raised by AGENT_RESPONSE where R228 says the response is not sent. Safe: the model stops. -/
  | responseNotSent
  deriving DecidableEq, Repr

/-- Rejections by name. -/
inductive Refusal
  /-- Raised by exec for a command without a meaning. Safe. -/
  | notModelled (mnemonic : String)
  deriving DecidableEq, Repr

/-- Package and tile number (R22, R26). -/
structure Ident where
  n : Nat := 8
  t : Nat := 0
  deriving DecidableEq, Repr

/-- Levels of the input pins and what this tile drives on its outputs (R395, R398, R399). -/
structure Pins where
  resetN : Bool := false
  pwrfailN : Bool := true
  alertLow : Bool := false
  quenchLow : Bool := false
  stackResetN : Bool := false
  deriving DecidableEq, Repr

/-- Time: CCLK cycles (the frame is 1024 of them, R8) and powered time in 1/36 ns (R360). -/
structure Clock where
  now : Nat := 0
  pt : Nat := 0
  deriving DecidableEq, Repr

/-- The writable words of the dictionary: applied, staged (R383), and their parity (R386, R387); `known` are the words of the access group as they
were last written (R127), `phaseNew` a value written to PHASE with the cycle of the write, after which it is in force (R382). -/
structure Dict where
  applied : SMap Word := []
  known : SMap Word := []
  staged : SMap Word := []
  phase : Word := 0
  phaseNew : Option (Nat × Word) := none
  badApplied : List Nat := []
  badStaged : List Nat := []
  sweepAt : Nat := 0
  sweepBad : Bool := false
  parityStatus : Word := 0
  parityFaults : Nat := 0
  parityLast : Nat := 0
  restoring : List Nat := []
  parityDue : List (Nat × Word) := []
  deriving DecidableEq, Repr

/-- Holding copies of the objects read by snapshot (R377), with the frames at which package snapshots are due and, of each kind, the cycle and the path
of the last snapshot that a write asked for. -/
structure Snap where
  hold : SMap Nat := []
  seq : Word := 0
  frame : BitVec 64 := 0
  time : Nat := 0
  due : List (BitVec 64) := []
  from_ : Option (Nat × Path) := none
  fromPkg : Option (Nat × Path) := none
  deriving DecidableEq, Repr

/-- An entry of the event log (R388). -/
structure LogEntry where
  code : Nat
  tile : Nat
  time : Nat
  cycles : Nat
  args : List Word
  deriving DecidableEq, Repr

/-- The event log (R388) with the limits of R405: the mark of the last event of a code and key, and those held back. -/
structure Log where
  entries : List LogEntry := []
  overflow : Nat := 0
  total : Nat := 0
  seen : SMap Nat := []
  held : SMap Nat := []
  deriving DecidableEq, Repr

/-- What each access path keeps: unlock latch, lock, assembly, latch, key buffer (R263, R376, R378, R379, R380). -/
structure PathSt where
  armedAt : Option Nat := none
  keyTimes : List Nat := []
  lockedAt : Option Nat := none
  asm : Option (Nat × SMap Word) := none
  latch : Option (Nat × Nat) := none
  keySlot : Option Nat := none
  keyWords : SMap Word := []
  keyFrame : Nat := 0
  deriving DecidableEq, Repr

/-- The maintenance-bus target (R367, R368, R370). `reply`: none, or waiting (not ready, or its bytes); `asked` numbers the requests sent onward. -/
structure Maint where
  dyn : Option (BitVec 7) := none
  ibiOn : Bool := false
  ibiPending : Option Nat := none
  ibiNewest : Option Nat := none
  hdr : Bool := false
  reply : Option (Option (List Byte)) := none
  asked : Nat := 0
  invalidKeys : Nat := 0
  guardRefused : Nat := 0
  frameErrors : Nat := 0
  deriving DecidableEq, Repr

/-- What a tile's heartbeats say (R83, R393). -/
structure HbRec where
  missed : Nat := 0
  gen : BitVec 16 := 0
  st : TileSt := .serving
  got : Bool := false
  deriving DecidableEq, Repr

/-- Anvil (R58, R59, R67, R71, R73, R76, R77, R82-R84). -/
structure Anvil where
  frameNo : BitVec 64 := 0
  gen : BitVec 32 := 0
  descr : Nat := 0
  roundNo : Word := 0
  slot : Nat := 0
  slotWord : Word := 0xE304
  lockstepOk : Bool := true
  aligned : Bool := false
  tickOff : Int := 0
  offBad : Bool := false
  hb : SMap HbRec := []
  hbNow : BitVec 8 := 0
  hbSeen : BitVec 8 := 0
  forcedAt : Option Nat := none
  stopped : Option (Nat × Bool) := none
  guard : Word := 4
  refRef : Nat := 0
  deriving DecidableEq, Repr

/-- The object groups of a commit and whether each passed its checks (R80). -/
structure Groups where
  succ : Bool := true
  map : Bool := true
  acl : Bool := true
  frame : Bool := true
  deriving DecidableEq, Repr

/-- The commit strobe (R78-R81): what this tile armed with its tick, and the package commit it was prepared for with its own. -/
structure Commit where
  armed : Nat := 0
  f : BitVec 64 := 0
  prepared : Bool := false
  gen : BitVec 32 := 0
  digest : BitVec 32 := 0
  votes : SMap (BitVec 32) := []
  pf : BitVec 64 := 0
  go : Option (BitVec 64) := none
  groups : Groups := {}
  result : Nat := 0
  refused : Nat := 0
  holdSince : Option (BitVec 64) := none
  anchor : Nat := 0
  decided : Bool := false
  deriving DecidableEq, Repr

/-- Power domains: usable ones, the write awaiting the tick, domains switched on but not yet usable (R29-R31). -/
structure Power where
  status : BitVec 30 := 1
  due : Option (BitVec 32) := none
  rising : BitVec 30 := 0
  deriving DecidableEq, Repr

/-- A request in a port's request queue with the lines received for it (R90, R96): `adm` is its turn for admission to the
cipher lanes (R250), `bad` the opcode and cause of a malformed one that waits for its lines or for response space (R89, R90, R99), `rst` the
number of the first MASTER_RESET that waits for it, 0 for none (R107). -/
structure QReq where
  op : Op
  w : ReqWord
  got : List WLine := []
  adm : Option Nat := none
  bad : Option (BitVec 4 × Nat) := none
  rst : Nat := 0
  deriving DecidableEq, Repr

/-- A request passed onward that the port still accounts for (R99, R105, R132). `pieces` are lines of a cipher write that went home before the
others (R252), each with the number it travels under, its first line and its length; `rst` is as in QReq. -/
structure Onward where
  txid : Nat
  op : Op
  lines : Nat
  tag : BitVec 12
  tenant : BitVec 12
  master : BitVec 8
  addr : Nat
  epoch : BitVec 2
  home : Nat
  reserved : Nat
  dropped : Bool := false
  share : Bool := true
  beats : List LineAns := []
  cent : Option Nat := none
  seam : Bool := false
  coherent : Bool := false
  cls : Cls := .bh
  demoted : Bool := false
  promoted : Option Nat := none
  age : Nat := 0
  sent : Bool := true
  cstat : Nat := 0
  st : Status := .ok
  pieces : List (Nat × Nat × Nat) := []
  rst : Nat := 0
  deriving DecidableEq, Repr

/-- A request port (R87-R113). A beat of the FIFO stands with its package address (R217); `resets` are the MASTER_RESETs under way, by number
(R107). -/
structure PortSt where
  epoch : BitVec 2 := 0
  live : Bool := false
  reqCred : Nat := 0
  wrCred : Nat := 0
  queue : List QReq := []
  early : List WLine := []
  fifo : List (Beat × Nat) := []
  mbox : List MboxRec := []
  lost : Nat := 0
  xoff : Bool := false
  panic : Bool := false
  flush : Option Nat := none
  flushOff : Bool := false
  initDue : Bool := false
  pull : Bool := false
  onward : List Onward := []
  resets : List (Nat × ReqWord) := []
  resetNo : Nat := 0
  deriving DecidableEq, Repr

/-- Budgets and outstanding counts per master (R128-R134), the frame in which each window last began, and the entry shares held at each home (R138). -/
structure Budget where
  used : SMap Nat := []
  outst : SMap Nat := []
  overMap : List Nat := []
  rewind : List Nat := []
  began : SMap Nat := []
  shareHeld : SMap Nat := []
  share : Nat := 1024
  deriving DecidableEq, Repr

/-- A shaper queue: bucket level in 1/16 line, values in force, tags, latency marks (R140-R147). -/
structure QSt where
  level : Int := 1024
  rate : Word := 0xFFFF
  burst : Word := 64
  weight : Word := 16
  due : Bool := false
  fT : BitVec 32 := 0
  fL : BitVec 32 := 0
  fB : BitVec 32 := 0
  latMode : Word := 0
  latDepth : Nat := 0
  latDelay : Nat := 0
  deriving DecidableEq, Repr

/-- Whose work a part is (R150, R152): a request's; a read or write of the home agent, by its transaction's serial number; Pickle's; the read and the
write of a Seam write, at its home or at the parity tile, by its number (R195); the parity read of a stand-in, by its number (R199); the rebuild's
or the resynchronisation's read and write (R200, R204); a line poisoned by the block itself (R187); the row of a rung 2 recovery, read and written (R311). -/
inductive Origin
  | req
  | homeRead (no : Nat)
  | homeWrite (no : Nat)
  | pickleWalk
  | pickleFix
  | pickleBack
  | seamOld (no : Nat)
  | seamNew (no : Nat)
  | seamPoison (no : Nat)
  | standRead (no : Nat)
  | rebuild
  | rebuildW
  | poison
  | row
  deriving DecidableEq, Repr

/-- One line of a part: its column, tile-local address, index in the request, data to write, and the number of the home's transaction that reads it. -/
structure PLn where
  col : Nat
  addr : Nat
  idx : Nat
  d : PLine
  no : Nat := 0
  deriving DecidableEq, Repr

/-- The queue and the tags of a request (R136, R144): given once, when the first of its lines joins, on the clock `k`. -/
structure Tag where
  queue : Nat
  k : Nat
  start : BitVec 32
  finish : BitVec 32
  deriving DecidableEq, Repr

/-- A part: the lines of one request on one pseudo-channel (R150, R151), from its joining a queue until its issue. `calm` is
its class had no panic occurred (R155), `k` the clock it is stamped on (R144), `rel` the turn at which its pseudo-channel took it (R146). -/
structure Part where
  seq : Nat
  origin : Origin
  req : HReq
  queue : Nat
  pc : Nat
  bank : Nat
  row : Nat
  lns : List PLn
  write : Bool
  cls : Cls
  calm : Cls
  promoted : Option Nat
  age : Nat
  k : Nat
  start : BitVec 32
  finish : BitVec 32
  joined : Nat
  rel : Option Nat
  pSince : Option Nat
  deriving DecidableEq, Repr

/-- A line in flight on the stack's data bus; `stale`: another write to the line joined after the read was issued (R191). -/
structure Flight where
  pc : Nat
  bank : Nat
  row : Nat
  write : Bool
  origin : Origin
  req : HReq
  ln : PLn
  last : Bool
  dataEnd : Nat
  stale : Bool := false
  deriving DecidableEq, Repr

/-- The tile's scheduling state (R139-R147, R150-R155). `cT`, `cL`, `cB` are the clocks as the last tick found them, to which it moved every
finish tag behind them (R145); `tags` are those of the requests at hand; `wfail` and `wpart` name acknowledged writes of which a line failed
(R109) or was refused (R229). -/
structure Sched where
  vT : BitVec 32 := 0
  vL : BitVec 32 := 0
  vB : BitVec 32 := 0
  cT : BitVec 32 := 0
  cL : BitVec 32 := 0
  cB : BitVec 32 := 0
  tags : SMap Tag := []
  seq : Nat := 0
  txid : Nat := 0
  promos : Nat := 0
  sampleSeq : Word := 0
  sampledAt : Option Nat := none
  samplePeriod : Word := 1024
  parts : List Part := []
  wfail : List (Nat × Nat × Nat) := []
  wpart : List (Nat × Nat × Nat) := []
  flight : List Flight := []
  panics : List (Nat × Nat) := []
  deriving DecidableEq, Repr

/-- One pseudo-channel: its scheduler, refresh guard, Pickle walk, training and repair state. `refpb` refreshes of a REFPB batch are left, the next from cycle
`refpbFrom`, `refpbDone` the banks it has refreshed (R162). `rdDly` and `wrDly` are the delay settings of its lanes in
taps from where Anneal left them, `dlyDue` the moves that apply at the tick (R286). -/
structure PcSt where
  rowFree : Nat := 0
  acts : List Nat := []
  bankReady : SMap Nat := []
  bankRc : SMap Nat := []
  cal : List (Nat × Nat × Bool) := []
  idleFrom : Nat := 0
  down : Option Nat := none
  drain : Bool := false
  fall : Nat := 0
  cause : Nat := 0
  stopped : Bool := false
  debts : SMap Int := []
  lastAcc : SMap Nat := []
  forced : List Nat := []
  refab : Bool := false
  refpb : Nat := 0
  refpbFrom : Nat := 0
  refpbDone : List Nat := []
  pkDebt : Nat := 0
  pkStep : Nat := 0
  pkPos : Nat := 0
  pkDone : Bool := false
  opp : Nat := 0
  laneCnt : SMap Nat := []
  marks : Word := 0
  marksDue : Option Word := none
  readEye : Word := 0
  writeEye : Word := 0
  planAt : Nat := 0
  offCentre : Bool := false
  rdDly : SMap Int := []
  wrDly : SMap Int := []
  dlyDue : List (Nat × Int × Int) := []
  train : Nat := 3
  retired : Bool := false
  rbanks : List Nat := []
  spUsed : Nat := 0
  spLeft : Nat := 0
  rowSp : SMap Nat := []
  rowsSoft : Nat := 0
  rowsHard : Nat := 0
  faults : Nat := 0
  rowBad : SMap Nat := []
  noData : Option Nat := none
  recov : Bool := false
  deriving DecidableEq, Repr

/-- The tile's stack as the block left it: bytes, poisoned lines, self-refresh (R57, R74, R182, R187). Lines below `poisonTo` were written as poison
whole (R323); `poison` lists the lines that stand otherwise than that says. -/
structure Store where
  data : List Host.Cell := []
  poison : List Nat := []
  poisonTo : Nat := 0
  selfRef : Bool := false
  ready : Bool := false
  initing : Bool := false
  deriving DecidableEq, Repr

/-- What a Seam write does (R195, R199): writes a data line at its home; applies an update at the parity tile; or, at a stand-in, writes parity for a
line of a lost home. -/
inductive SeamKind
  | data
  | parity (u : SeamUpd)
  | stand
  deriving DecidableEq, Repr

/-- A Seam write in progress (R195, R196), one line of it: `no` is its number, `o` what it is for, `keep` whether it poisons the line with the data it
holds (R187); `old` is known once the lines that the write depends on are, `par` holds the parity line read while the row's other lines are asked for; `again` is the cause for which the line is being poisoned (R17). -/
structure SeamWr where
  no : Nat
  line : Nat
  kind : SeamKind
  o : Origin
  req : HReq
  idx : Nat
  new : PLine
  keep : Bool := false
  started : Bool := false
  old : Option (Option PLine) := none
  written : Bool := false
  acked : Bool := false
  failed : Bool := false
  again : Option Nat := none
  par : Option Member := none
  deriving DecidableEq, Repr

/-- A line that waits for the other members of its row (R191, R197-R200): `own` is this tile's own parity line once it has been read, `stale` as in a
flight, `was` the line's data symbols as read. -/
structure Recon where
  no : Nat
  line : Nat
  o : Origin
  req : HReq
  idx : Nat
  own : Option Member
  stale : Bool := false
  was : Line := 0
  deriving DecidableEq, Repr

/-- The row that the rebuild or the resynchronisation works on (R200, R204): whether its lines are being read, those to be written and those
written, by bit, and the tiles whose lines a rebuild makes, with theirs by bit. -/
structure SeamJob where
  row : Nat
  resync : Bool
  fed : Bool
  todo : Nat
  done : Nat
  who : List (Nat × Nat) := []
  deriving DecidableEq, Repr

/-- Seam and Pickle state of the tile (R189-R207): `resync` is this tile's own list (R203), `listed` the rows of the package that are
resynchronised, `rowsDone` those of them that are done; `taking` the tiles back in the package that take their rows back, `backRows` the rows done (R323); `switched` are rows with the tile whose lines stand rebuilt here, by bit; `wrote` counts
against REBUILD_LIMIT; `updates` wait for the row's switch. -/
structure Seam where
  lost : BitVec 8 := 0
  readOnly : Bool := false
  resync : List Nat := []
  resyncAll : Bool := false
  resyncing : Bool := false
  listed : List Nat := []
  listedAll : Bool := false
  rowsDone : List Nat := []
  taking : List Nat := []
  backRows : List Nat := []
  rebuild : List Nat := []
  switched : List (Nat × Nat × Nat) := []
  unprotected : Bool := false
  job : Option SeamJob := none
  wrote : Nat := 0
  updates : List SeamUpd := []
  writes : List SeamWr := []
  recons : List Recon := []
  fixQueue : List Nat := []
  passOn : Bool := false
  passCount : Nat := 0
  interval : Nat := 0
  intervalDue : Bool := false
  stepBase : BitVec 64 := 0
  standFrom : BitVec 64 := 0
  deriving DecidableEq, Repr

/-- A snoop-filter entry (R218) with the stamp of its last use (R220). -/
structure Entry where
  present : BitVec 48
  kind : OwnKind
  owner : Nat
  cur : Bool
  doubt : Doubt
  used : Nat
  deriving DecidableEq, Repr

/-- Transient home states (R225). -/
inductive Busy | snp | mem | wb
  deriving DecidableEq, Repr

/-- What a home transaction serves (R57, R220, R225, R226, R229, R234, R237, R238). -/
inductive TxKind | rdShared | rdUnique | upgrade | wrBack | plainRead | plainWrite | recall | backInval | heal | hold | lostHome | forget
  deriving DecidableEq, Repr

/-- A transaction of the home's tracker (R221), on the package address of a line; `no` is its serial number, `cur` STACK_CURRENT as it began; `idx` is the line's place in its request, `okind`,
`owner` and `sup` the owner recorded at ordering and the supplier with FWD 1 (R222), `next` a request that waits for the way it frees. -/
structure Txn where
  id : Nat
  no : Nat
  line : Nat
  kind : TxKind
  idx : Nat
  okind : OwnKind
  sup : Option Nat
  req : Option HReq
  busy : Busy
  wait : List Nat
  owner : Option Nat
  stackDue : Bool
  stack : Option PLine
  corr : Bool
  fwd : Option (Line × Bool)
  dropped : Option Line
  bad : Bool
  cur : Bool
  grant : Cresp
  next : Option (Nat × HReq)
  deriving DecidableEq, Repr

/-- A reservation (R230); `since` is the frame from which the line has been in HReserved. -/
structure Resv where
  agent : Nat
  line : Nat
  since : Option (BitVec 64)
  deriving DecidableEq, Repr

/-- The home agent (R218-R240); `held` are requests that wait for a domain (R31), for the recall of their line (R126) or for the switch of their
row (R200, R234); `given` the master and the number of the request that the home last answered to an agent on a line (R126, R217), `serial` the
last transaction's serial number, `lostPos` how far the recall of a lost home's lines has come (R234). -/
structure Home where
  filter : SMap Entry := []
  txns : List Txn := []
  plain : List (Nat × HReq) := []
  plainWait : List (Nat × HReq) := []
  held : List HReq := []
  resv : List Resv := []
  dead : BitVec 48 := 0
  deadLost : SMap Nat := []
  stamp : Nat := 0
  work : List (Nat × TxKind) := []
  classify : Bool := false
  holdFrom : Option (BitVec 64) := none
  expired : Bool := false
  healing : Bool := false
  healWb : Nat := 0
  healLost : Nat := 0
  lostRecall : Option Nat := none
  lostPos : Nat := 0
  given : SMap (Nat × Nat) := []
  serial : Nat := 0
  deriving DecidableEq, Repr

/-- A snoop held in the ring stop for one agent, with the cycle of its presentation (R210); `done`: its agent has answered it; `after`: the request
whose response goes first (R217). -/
structure SnoopSt where
  s : Snoop
  shown : Option Nat
  done : Bool := false
  after : Option Nat := none
  deriving DecidableEq, Repr

/-- A cached line of a caching agent (R211); `rage` counts the Retry answers of the request it may resend, `back` says that it is a WR_BACK
(R213, R228). -/
structure ALine where
  st : CState := .i
  data : Line := 0
  rage : Nat := 0
  back : Bool := false
  deriving DecidableEq, Repr

/-- A key slot (R260-R264). `st`: 0 empty, 1 loaded, 2 load pending, 3 erase pending, 4 parity fault. -/
structure Slot where
  st : Nat := 0
  kind : Nat := 0
  key : BitVec 512 := 0
  kcv : BitVec 24 := 0
  newKind : Nat := 0
  newKey : BitVec 512 := 0
  applied : Bool := false
  deriving DecidableEq, Repr

/-- A line of a cipher request in the lanes (R251, R252): `corr` says that the line code corrected it (R91), `sent` that it went to its home. -/
structure CLn where
  idx : Nat
  txid : Nat
  d : PLine
  corr : Bool := false
  sent : Bool := false
  computed : Bool := false
  out : PLine := ⟨0, false⟩
  released : Bool := false
  failed : Bool := false
  deriving DecidableEq, Repr

/-- A segment: the lines of one port request, the pair that computes it, and the pair that failed its first compare (R251, R254). -/
structure Seg where
  first : Nat
  count : Nat
  txid : Nat
  pair : Option Nat := none
  failedOn : Option Nat := none
  deriving DecidableEq, Repr

/-- An entry of the cipher queue: one open stream (R250, R257, R266); `born` is its place in the order of admission (R251). -/
structure CEnt where
  born : Nat := 0
  port : Nat
  stream : Nat
  mode : CMode
  dir : Bool
  slot : Nat
  du : Nat
  len : Nat
  addr : Nat
  iv : BitVec 128
  tag : BitVec 128
  next : Nat
  master : BitVec 8
  tenant : BitVec 12
  failed : Option Nat
  poisoned : Bool
  lns : List CLn
  segs : List Seg
  lastFrame : BitVec 64
  hold : Nat
  lastTx : Option Nat
  deriving DecidableEq, Repr

/-- The cipher lanes of the tile (R242-R266); `busy` is the cycle to which each pair is occupied (R251). -/
structure Cipher where
  ents : SMap CEnt := []
  born : Nat := 0
  busy : SMap Nat := []
  slots : SMap Slot := []
  fenced : BitVec 48 := 0
  miss : SMap Nat := []
  noneLogged : Bool := false
  badSlots : List Nat := []
  deriving DecidableEq, Repr

/-- Stack identification, grade, timing and clock multipliers (R37-R40, R169, R280, R298, R299); `rows` are the row bits of every tile's stack. -/
structure Phy where
  grade : Nat := 0
  declared : List Nat := []
  ids : Nat := 0
  rowBits : Nat := 0
  rows : List Nat := []
  cap : Nat := 0
  clipped : Bool := false
  differ : Bool := false
  pll0 : Bool := false
  pll1 : Bool := false
  trained : Bool := false
  ovr : SMap Word := []
  ovrDue : List Nat := []
  pWorstHigh : Bool := false
  deriving DecidableEq, Repr

/-- Housekeeping and Assay (R267-R284, R291); `hot` is what the readouts call for, `hotNow` the state in force since the tick. -/
structure Hk where
  samples : SMap Word := []
  missing : BitVec 32 := 0
  outLim : BitVec 32 := 0
  chFault : BitVec 32 := 0
  nowMiss : BitVec 32 := 0
  nowOut : BitVec 32 := 0
  nowOff : BitVec 32 := 0
  prevMiss : BitVec 32 := 0
  prevOut : BitVec 32 := 0
  supplyRep : BitVec 32 := 0
  chan : Nat := 0
  rounds : Nat := 0
  witOut : Nat := 0
  witIn : Nat := 0
  witLevel : Bool := false
  refFault : Bool := false
  untrimmed : Bool := true
  chain : SMap Word := []
  chainGot : BitVec 8 := 0
  chainMissing : BitVec 8 := 0
  chainFault : BitVec 8 := 0
  chainNew : Bool := false
  force : SMap Word := []
  forceDue : SMap Word := []
  meas : SMap Word := []
  measT : SMap Word := []
  refusals : SMap Nat := []
  assayAt : SMap Nat := []
  hot : Nat := 0
  hotNow : Nat := 0
  half : Bool := false
  halfDue : Option Bool := none
  deriving DecidableEq, Repr

/-- Quench (R293-R297, R302); `assayed` are the groups whose Assay has run in the restart (R296). -/
structure Quench where
  on : Bool := false
  byTj : Bool := false
  byStack : Bool := false
  coolFrom : Option Nat := none
  restart : Bool := false
  assayed : List Nat := []
  count : Nat := 0
  since : BitVec 64 := 0
  restartAt : Nat := 0
  deriving DecidableEq, Repr

/-- A recovery of rung 1 or 2 (R307): what it holds, when it was detected and opened, whether it waited, the lanes at fault and those
spared, what its Anneal found (R310), and, at rung 2, the rows (bank, row) that it replaces with the repair buffer: the lines held by their tile-local
address, and those that verified (R311). -/
structure Recov where
  rung : Nat
  u : RUnit
  cls : FClass
  found : BitVec 64
  opened : BitVec 64
  behind : Bool
  lanes : List (Nat × Nat)
  spared : List (Nat × Nat) := []
  fails : BitVec 4 := 0
  annealed : Bool := false
  assayed : Bool := false
  rows : List (Nat × Nat) := []
  held : List (Nat × PLine) := []
  verified : List Nat := []
  deriving DecidableEq, Repr

/-- A fault waiting for a recovery (R307), with the lanes (pseudo-channel, lane) or rows (bank, row) of those that joined it; `at_` is the cycle of its detection; `again`: its recovery was abandoned at a
Quench trip and starts again after the restart (R297). -/
structure FaultW where
  rung : Nat
  u : RUnit
  cls : FClass
  found : BitVec 64
  behind : Bool
  lanes : List (Nat × Nat)
  at_ : Nat
  again : Bool := false
  rows : List (Nat × Nat) := []
  deriving DecidableEq, Repr

/-- A rung 3 to 6 action due at the next tick (R308, R312, R318), the restart of a fenced tile (R334), or the declaration of a split (R326). -/
inductive RungAct
  | bank (pc bank : Nat)
  | pc (pc : Nat) (cls : FClass)
  | stack (cls : FClass)
  | fence (c : FenceCause)
  | foster (u : Nat)
  | restart (u : Nat)
  | split (d : BitVec 64)
  deriving DecidableEq, Repr

/-- The package-wide group of the anchor as a tile of the other arc copies it after the heal (R329): the anchor's CONFIG_GEN and digest, its words, the frame by
which the copy is complete, and whether the copy came intact. -/
structure CopyJob where
  gen : BitVec 32
  digest : BitVec 32
  group : List (Nat × Word)
  until_ : BitVec 64
  torn : Bool
  deriving DecidableEq, Repr

/-- Faults, repair, ring and package view (R24, R304-R337, R393); `cut` are the links that traffic avoids (R324), `dropped` the stacks of other tiles that rung 5
retired (R323). -/
structure Repair where
  recov : Option Recov := none
  waiting : List FaultW := []
  due : List RungAct := []
  links : BitVec 8 := 0
  cut : BitVec 8 := 0
  splitAt : Option (BitVec 64) := none
  split : Option (BitVec 64) := none
  healAt : Option (BitVec 64) := none
  arc : BitVec 8 := 0xFF
  leader : Bool := false
  fostered : BitVec 8 := 0
  fosters : BitVec 8 := 0
  view : BitVec 8 := 0xFF
  anchor : Nat := 0
  map : List MapEnt := []
  mapDue : Bool := false
  clearDue : Bool := false
  life : Nat := 0
  life900 : Bool := false
  life1000 : Bool := false
  longest : Nat := 0
  bound : Nat := 0
  fenced : Option FenceCause := none
  rejoin : Bool := false
  stackRetired : Bool := false
  others : List (Nat × Nat × Nat × Nat) := []
  dropped : BitVec 8 := 0
  copying : Option CopyJob := none
  lives : SMap Nat := []
  deriving DecidableEq, Repr

/-- Start, Hallmark store and time (R338-R364); `blank`: START_CMD 1 was written in Blank mode, and the tile looks for an image (R345). -/
structure Boot where
  st : Nat := 0
  step : Nat := 0
  failed : Nat := 0
  reason : Nat := 0
  failStep : Nat := 0
  ms10 : Nat := 0
  count : Nat := 0
  cause : Nat := 1
  began : Nat := 0
  failedAt : Nat := 0
  addedTally : Bool := false
  tallyUp : Bool := false
  blank : Bool := false
  copy : Nat := 0
  aOk : Bool := false
  bOk : Bool := false
  rej : Nat := 0
  imgSeq : BitVec 32 := 0
  imgLen : Nat := 0
  bodyA : Bool := false
  bodyB : Bool := false
  ledBlank : Bool := false
  ledCorrupt : Bool := false
  ledUnclean : Bool := false
  tallyDue : Bool := false
  ledSeq : BitVec 32 := 0
  tallySeq : BitVec 32 := 0
  usable : Bool := false
  suspended : Bool := false
  drives : Bool := false
  storeMiB : Nat := 0
  clock : Nat := 0
  hmOpen : Bool := false
  hmReady : Bool := false
  hmErasing : Bool := false
  hmClosing : Bool := false
  hmDone : Bool := false
  hmCopy : Nat := 0
  hmPages : Nat := 0
  hmPage : SMap Word := []
  prog : Option (Nat × List Byte) := none
  retried : Bool := false
  readyA : Nat := 0
  readyB : Nat := 0
  seconds : BitVec 32 := 0
  cycles : BitVec 32 := 0
  tallyAt : Nat := 0
  shut : Nat := 0
  shutCause : Nat := 0
  shutAt : Nat := 0
  before : Nat := 0
  resetDue : Bool := false
  gradeSel : Word := 0
  deriving DecidableEq, Repr

/-- The block's state. -/
structure State where
  pending : List Instr := []
  freeCount : Nat := 0
  out : List Out := []
  ident : Ident := {}
  pins : Pins := {}
  clk : Clock := {}
  dict : Dict := {}
  ctr : SMap Nat := []
  snap : Snap := {}
  log : Log := {}
  win : PathSt := {}
  bus : PathSt := {}
  maint : Maint := {}
  anvil : Anvil := {}
  commit : Commit := {}
  pd : Power := {}
  ports : SMap PortSt := []
  budget : Budget := {}
  queues : SMap QSt := []
  sched : Sched := {}
  pcs : SMap PcSt := []
  store : Store := {}
  seam : Seam := {}
  ha : Home := {}
  snoops : List SnoopSt := []
  agents : SMap ALine := []
  cipher : Cipher := {}
  phy : Phy := {}
  hk : Hk := {}
  quench : Quench := {}
  repair : Repair := {}
  boot : Boot := {}
  nor : List Host.Cell := []
  deriving DecidableEq, Repr

/-- The block right after reset: only PD0 powered, ZG_RESET_N held, every object at its default (R338, R339, R401). -/
def State.reset : State := {}

end Sys2Proof.Machine
end

