-- ==== Sys2Proof/Machine/Regs.lean ====
section
/-!
DEFINITION. The dictionary's map (R390): which words exist, their access class (R374), how many words their object has
(R5), whether the object is latched (R378) or read by snapshot (R377), its power domain (R391) and its default.
-/
namespace Sys2Proof.Machine
open Sys2Proof

/-- Access classes (R374). -/
inductive Acc | ro | rw | wo | guarded | staged
  deriving DecidableEq, Repr

/-- A row of the dictionary: index and subindex ranges, class, words an object, OCTETS or not, by snapshot or not. -/
structure RegRow where
  i0 : Nat
  i1 : Nat
  s0 : Nat
  s1 : Nat
  acc : Acc
  w : Nat := 1
  oct : Bool := false
  snap : Bool := false
  deriving DecidableEq, Repr

/-- Rows 0x1000 to 0x15FF (R26, R30, R78, R362, R363, R382, R389, R392, R393). -/
def regRows1 : List RegRow :=
  [ ⟨0x1000, 0x1000, 1, 5, .ro, 1, false, false⟩, ⟨0x1000, 0x1000, 6, 9, .ro, 4, false, false⟩,
    ⟨0x1000, 0x1000, 10, 10, .ro, 1, false, false⟩, ⟨0x1001, 0x1001, 1, 2, .ro, 1, false, false⟩,
    ⟨0x1002, 0x1002, 1, 1, .ro, 1, false, false⟩, ⟨0x1003, 0x1003, 1, 2, .staged, 2, false, false⟩,
    ⟨0x1004, 0x1004, 1, 2, .ro, 1, false, false⟩,
    ⟨0x1100, 0x1100, 1, 3, .ro, 1, false, false⟩, ⟨0x1100, 0x1100, 4, 4, .guarded, 1, false, false⟩,
    ⟨0x1100, 0x1100, 5, 6, .ro, 1, false, false⟩, ⟨0x1100, 0x1100, 7, 7, .guarded, 1, false, false⟩,
    ⟨0x1100, 0x1100, 8, 8, .ro, 1, false, false⟩, ⟨0x1100, 0x1100, 9, 10, .ro, 2, false, false⟩,
    ⟨0x1101, 0x1101, 1, 1, .ro, 1, false, false⟩, ⟨0x1101, 0x1101, 2, 5, .ro, 2, false, false⟩,
    ⟨0x1102, 0x1102, 1, 1, .ro, 1, false, false⟩, ⟨0x1102, 0x1102, 2, 5, .ro, 2, false, false⟩,
    ⟨0x1103, 0x1103, 1, 2, .ro, 1, false, false⟩,
    ⟨0x1110, 0x1110, 1, 1, .guarded, 1, false, false⟩, ⟨0x1110, 0x1110, 2, 2, .ro, 1, false, false⟩,
    ⟨0x1110, 0x1110, 3, 4, .rw, 2, false, false⟩, ⟨0x1111, 0x1111, 1, 0x80, .wo, 1, true, false⟩,
    ⟨0x1200, 0x1200, 1, 2, .ro, 2, false, false⟩, ⟨0x1201, 0x1201, 1, 2, .guarded, 2, false, false⟩,
    ⟨0x1300, 0x1300, 1, 4, .ro, 4, false, true⟩, ⟨0x1301, 0x1301, 1, 4, .ro, 2, false, true⟩,
    ⟨0x1301, 0x1301, 5, 5, .ro, 1, false, true⟩,
    ⟨0x1400, 0x1400, 1, 1, .wo, 1, false, false⟩, ⟨0x1400, 0x1400, 2, 4, .ro, 1, false, false⟩,
    ⟨0x1401, 0x1401, 1, 3, .rw, 1, false, false⟩, ⟨0x1402, 0x1402, 1, 2, .ro, 1, false, false⟩,
    ⟨0x1402, 0x1402, 3, 6, .ro, 2, false, false⟩, ⟨0x1403, 0x1403, 1, 1, .ro, 1, false, false⟩,
    ⟨0x1500, 0x1500, 0, 2, .rw, 1, false, false⟩, ⟨0x1500, 0x1500, 3, 6, .rw, 4, false, false⟩,
    ⟨0x1500, 0x1500, 7, 7, .ro, 1, false, false⟩, ⟨0x1501, 0x1501, 1, 1, .ro, 1, false, false⟩ ]

/-- Rows 0x2000 to 0x22FF (R53, R60, R67, R84). -/
def regRows2 : List RegRow :=
  [ ⟨0x2000, 0x2000, 1, 3, .staged, 1, false, false⟩, ⟨0x2001, 0x2001, 1, 3, .ro, 1, false, false⟩,
    ⟨0x2002, 0x2003, 1, 4, .ro, 4, false, false⟩, ⟨0x2004, 0x2004, 1, 1, .ro, 1, false, false⟩,
    ⟨0x2005, 0x2005, 1, 4, .rw, 4, false, false⟩, ⟨0x2006, 0x2006, 1, 3, .ro, 1, false, false⟩,
    ⟨0x2006, 0x2006, 4, 7, .ro, 4, false, false⟩,
    ⟨0x2100, 0x2100, 1, 1, .staged, 1, false, false⟩, ⟨0x2100, 0x2100, 2, 4, .ro, 1, false, false⟩,
    ⟨0x2100, 0x2100, 5, 6, .staged, 1, false, false⟩, ⟨0x2100, 0x2100, 7, 7, .guarded, 1, false, false⟩,
    ⟨0x2101, 0x2101, 1, 4, .ro, 4, false, false⟩, ⟨0x2101, 0x2101, 5, 6, .ro, 2, false, false⟩,
    ⟨0x2102, 0x2102, 1, 2, .ro, 1, false, false⟩, ⟨0x2103, 0x2103, 1, 7, .ro, 1, false, false⟩,
    ⟨0x2104, 0x2104, 1, 4, .ro, 4, false, true⟩, ⟨0x2105, 0x2105, 1, 2, .ro, 1, false, false⟩,
    ⟨0x2200, 0x22FF, 1, 16, .staged, 1, false, false⟩ ]

/-- Rows 0x3000 to 0x39FF (R111, R113, R114, R116, R123, R133, R135, R137, R148, R149). -/
def regRows3 : List RegRow :=
  [ ⟨0x3000, 0x301F, 1, 1, .rw, 1, false, false⟩, ⟨0x3000, 0x301F, 2, 2, .ro, 1, false, false⟩,
    ⟨0x3000, 0x301F, 3, 3, .rw, 1, false, false⟩, ⟨0x3000, 0x301F, 4, 4, .rw, 1, false, false⟩, ⟨0x3100, 0x311F, 1, 4, .ro, 1, false, false⟩,
    ⟨0x3100, 0x311F, 5, 6, .wo, 1, false, false⟩, ⟨0x3100, 0x311F, 8, 11, .ro, 4, false, true⟩,
    ⟨0x3100, 0x311F, 0x10, 0x17, .ro, 1, true, false⟩,
    ⟨0x3200, 0x33FF, 1, 4, .staged, 2, false, false⟩, ⟨0x3200, 0x33FF, 5, 8, .staged, 1, false, false⟩,
    ⟨0x3400, 0x3401, 1, 0x80, .staged, 1, false, false⟩, ⟨0x3402, 0x3402, 1, 1, .staged, 1, false, false⟩,
    ⟨0x3403, 0x3403, 1, 8, .ro, 4, false, true⟩, ⟨0x3403, 0x3403, 9, 10, .ro, 2, false, false⟩,
    ⟨0x3403, 0x3403, 11, 11, .ro, 1, false, false⟩, ⟨0x3410, 0x3415, 1, 0x80, .rw, 1, false, false⟩,
    ⟨0x3416, 0x3419, 1, 0x80, .ro, 1, false, false⟩, ⟨0x341A, 0x341A, 1, 16, .ro, 1, true, false⟩,
    ⟨0x3500, 0x3507, 1, 8, .ro, 4, false, true⟩,
    ⟨0x3600, 0x39FF, 1, 4, .rw, 1, false, false⟩, ⟨0x3600, 0x39FF, 5, 7, .ro, 1, false, false⟩,
    ⟨0x3600, 0x39FF, 8, 9, .ro, 1, false, true⟩, ⟨0x3600, 0x39FF, 10, 13, .ro, 4, false, true⟩,
    ⟨0x3600, 0x39FF, 0x40, 0x43, .rw, 1, false, false⟩, ⟨0x3600, 0x361F, 0x50, 0x50, .rw, 1, false, false⟩,
    ⟨0x3600, 0x3600, 0x70, 0x70, .rw, 1, false, false⟩, ⟨0x3600, 0x3600, 0x71, 0x71, .ro, 1, false, false⟩,
    ⟨0x3600, 0x3600, 0x72, 0x77, .ro, 2, false, false⟩ ]

/-- Rows 0x4000 to 0x50FF (R176-R178, R205, R207, R239, R240). -/
def regRows4 : List RegRow :=
  [ ⟨0x4000, 0x4000, 1, 6, .rw, 1, false, false⟩, ⟨0x4000, 0x4000, 7, 8, .ro, 1, false, false⟩,
    ⟨0x4000, 0x4000, 9, 12, .ro, 4, false, true⟩, ⟨0x4010, 0x4010, 1, 17, .ro, 1, false, false⟩,
    ⟨0x4011, 0x4011, 1, 17, .guarded, 1, false, false⟩, ⟨0x4012, 0x4012, 1, 17, .ro, 1, false, false⟩,
    ⟨0x4100, 0x413F, 1, 2, .ro, 1, false, false⟩, ⟨0x4100, 0x413F, 3, 6, .ro, 1, true, false⟩,
    ⟨0x4100, 0x413F, 7, 18, .ro, 4, false, true⟩,
    ⟨0x4800, 0x4800, 1, 2, .rw, 1, false, false⟩, ⟨0x4800, 0x4800, 3, 4, .ro, 2, false, false⟩,
    ⟨0x4800, 0x4800, 5, 5, .rw, 1, false, false⟩, ⟨0x4800, 0x4800, 6, 6, .ro, 1, false, false⟩,
    ⟨0x4800, 0x4800, 8, 11, .ro, 4, false, true⟩, ⟨0x4800, 0x4800, 12, 13, .ro, 2, false, false⟩,
    ⟨0x4801, 0x4801, 1, 20, .ro, 4, false, true⟩, ⟨0x4840, 0x487F, 1, 1, .ro, 1, false, false⟩,
    ⟨0x4900, 0x4900, 1, 2, .ro, 1, false, false⟩, ⟨0x4900, 0x4900, 3, 3, .rw, 1, false, false⟩,
    ⟨0x4900, 0x4900, 4, 4, .ro, 1, false, false⟩, ⟨0x4900, 0x4900, 5, 8, .ro, 4, false, false⟩,
    ⟨0x4901, 0x4901, 1, 8, .ro, 4, false, true⟩,
    ⟨0x5000, 0x5000, 1, 1, .staged, 1, false, false⟩, ⟨0x5000, 0x5000, 2, 3, .rw, 1, false, false⟩,
    ⟨0x5000, 0x5000, 4, 4, .staged, 1, false, false⟩, ⟨0x5000, 0x5000, 5, 7, .ro, 1, false, false⟩,
    ⟨0x5001, 0x5001, 1, 4, .ro, 4, false, false⟩, ⟨0x5001, 0x5001, 5, 6, .ro, 2, false, false⟩,
    ⟨0x5002, 0x5002, 1, 24, .ro, 4, false, true⟩ ]

/-- Rows 0x6000 to 0x90FF (R262, R265, R266, R299-R302, R333, R335, R336, R389). -/
def regRows5 : List RegRow :=
  [ ⟨0x6000, 0x63FF, 1, 1, .wo, 1, false, false⟩, ⟨0x6000, 0x63FF, 2, 2, .ro, 1, false, false⟩,
    ⟨0x6000, 0x63FF, 3, 4, .ro, 2, false, false⟩, ⟨0x6000, 0x63FF, 0x10, 0x2F, .wo, 1, true, false⟩,
    ⟨0x6400, 0x6400, 1, 1, .wo, 1, false, false⟩, ⟨0x6400, 0x6400, 2, 2, .rw, 1, false, false⟩,
    ⟨0x6400, 0x6400, 3, 5, .ro, 1, false, false⟩, ⟨0x6400, 0x6400, 6, 6, .rw, 1, false, false⟩,
    ⟨0x6401, 0x6401, 1, 3, .ro, 1, true, false⟩, ⟨0x6402, 0x6402, 1, 24, .ro, 4, false, true⟩,
    ⟨0x6403, 0x6403, 1, 48, .ro, 1, false, false⟩, ⟨0x6480, 0x64FF, 1, 32, .ro, 1, true, false⟩,
    ⟨0x7000, 0x7000, 1, 1, .rw, 1, false, false⟩, ⟨0x7000, 0x7000, 2, 3, .ro, 1, false, false⟩,
    ⟨0x7000, 0x7000, 4, 8, .rw, 1, false, false⟩, ⟨0x7001, 0x7001, 1, 12, .ro, 4, false, true⟩,
    ⟨0x7040, 0x707F, 1, 4, .ro, 1, false, false⟩,
    ⟨0x7100, 0x7142, 1, 5, .guarded, 1, false, false⟩, ⟨0x7100, 0x7142, 6, 8, .ro, 1, false, false⟩,
    ⟨0x7200, 0x7200, 1, 1, .ro, 1, false, false⟩, ⟨0x7200, 0x7200, 2, 3, .ro, 2, false, false⟩,
    ⟨0x7200, 0x7200, 4, 4, .rw, 1, false, false⟩, ⟨0x7201, 0x7201, 1, 32, .ro, 1, false, false⟩,
    ⟨0x7202, 0x7202, 1, 6, .ro, 2, false, false⟩, ⟨0x7203, 0x7204, 1, 32, .rw, 1, false, false⟩,
    ⟨0x7210, 0x7217, 1, 32, .ro, 1, false, false⟩, ⟨0x7218, 0x7218, 1, 2, .ro, 1, false, false⟩,
    ⟨0x7220, 0x7220, 1, 4, .ro, 1, false, false⟩, ⟨0x7220, 0x7220, 5, 6, .ro, 2, false, false⟩,
    ⟨0x7800, 0x7800, 1, 4, .ro, 1, false, false⟩, ⟨0x7800, 0x7800, 5, 7, .rw, 1, false, false⟩,
    ⟨0x7800, 0x7800, 8, 9, .ro, 1, false, false⟩, ⟨0x7801, 0x7801, 1, 1, .guarded, 1, false, false⟩,
    ⟨0x7801, 0x7801, 2, 2, .rw, 1, false, false⟩, ⟨0x7810, 0x7810, 1, 4, .ro, 1, true, false⟩,
    ⟨0x7810, 0x7810, 5, 5, .ro, 1, false, false⟩, ⟨0x7811, 0x7811, 1, 1, .ro, 1, false, false⟩,
    ⟨0x7820, 0x7820, 1, 36, .ro, 4, false, true⟩, ⟨0x7821, 0x7821, 1, 8, .ro, 4, false, true⟩,
    ⟨0x7821, 0x7821, 9, 10, .ro, 1, false, false⟩, ⟨0x7830, 0x7830, 1, 4, .ro, 4, false, false⟩,
    ⟨0x7830, 0x7830, 5, 5, .ro, 1, false, false⟩, ⟨0x7840, 0x787F, 1, 4, .ro, 1, true, false⟩,
    ⟨0x7840, 0x787F, 5, 7, .ro, 1, false, false⟩,
    ⟨0x8000, 0x8000, 1, 1, .wo, 1, false, false⟩, ⟨0x8000, 0x8000, 2, 2, .ro, 1, false, false⟩,
    ⟨0x8000, 0x8000, 3, 10, .ro, 4, false, false⟩,
    ⟨0x9000, 0x9000, 1, 2, .ro, 1, false, false⟩, ⟨0x9000, 0x9000, 3, 4, .ro, 2, false, false⟩,
    ⟨0x9000, 0x9000, 5, 6, .wo, 1, false, false⟩, ⟨0x9000, 0x9000, 7, 7, .rw, 1, false, false⟩,
    ⟨0x9001, 0x9002, 1, 16, .ro, 1, true, false⟩ ]

/-- A row holds a location. -/
def RegRow.has (r : RegRow) (i x : Nat) : Bool :=
  decide (r.i0 ≤ i) && decide (i ≤ r.i1) && decide (r.s0 ≤ x) && decide (x ≤ r.s1)

/-- The row of a location, none where it is unimplemented (R375, R390). -/
def regRow (i x : Nat) : Option RegRow :=
  (if i < 0x2000 then regRows1 else if i < 0x3000 then regRows2 else if i < 0x4000 then regRows3
   else if i < 0x6000 then regRows4 else regRows5).find? (fun r => r.has i x)

/-- The key of a word: index and subindex (R5). -/
def wkey (i x : Nat) : Nat := i * 256 + x

/-- The lowest subindex of the object a subindex belongs to. -/
def RegRow.base (r : RegRow) (x : Nat) : Nat := r.s0 + (x - r.s0) / r.w * r.w

/-- The latched objects: RO objects of type U32 and U64 (R378). -/
def RegRow.latched (r : RegRow) : Bool := r.acc == .ro && !r.oct && decide (r.w ≠ 1)

/-- The access group of R124. -/
def isAclKey (i x : Nat) : Bool :=
  (decide (0x3200 ≤ i) && decide (i ≤ 0x33FF)) ||
  ((i == 0x3400 || i == 0x3401) && decide (1 ≤ x) && decide (x ≤ 0x80)) || (i == 0x3402 && x == 1)

/-- The package-wide objects (R384). -/
def isPkgWide (i x : Nat) : Bool :=
  (i == 0x1003) || (i == 0x2000) || isAclKey i x || (i == 0x5000 && (x == 1 || x == 4))

/-- The frame-table group of R68. -/
def isFrameGroup (i x : Nat) : Bool :=
  (decide (0x2200 ≤ i) && decide (i ≤ 0x22FF)) || (i == 0x2100 && (x == 1 || x == 5 || x == 6))

/-- Objects that act at once in every phase, or at the moment their own rule states (R383). -/
def actsAtOnce (i x : Nat) : Bool :=
  (i == 0x1201) || (decide (0x1400 ≤ i) && decide (i ≤ 0x14FF)) || (i == 0x1500) || (i == 0x1100 && x == 7) ||
  (i == 0x1110) || (i == 0x2005) || (i == 0x2100 && x == 7) ||
  (decide (0x3000 ≤ i) && decide (i ≤ 0x301F) && (x == 1 || x == 3)) || (i == 0x4011) ||
  (i == 0x7000 && x == 1) || (i == 0x7801) || (i == 0x9000)

/-- The domains that keep an object's live values; it is unavailable only while all of them are (R390, R391). -/
def domainsOf (i : Nat) : List Nat :=
  if i < 0x1300 then [1] else if i < 0x1400 then [0] else if i < 0x2000 then [1]
  else if i < 0x2100 then [3] else if i < 0x2300 then [2] else if i < 0x3600 then [3] else if i < 0x4000 then [4]
  else if i < 0x4100 then [6, 7] else if i < 0x4120 then [6] else if i < 0x4140 then [7]
  else if i < 0x4900 then [10] else if i < 0x5000 then [11] else if i < 0x6000 then [5]
  else if i < 0x7000 then [8, 9] else if i < 0x7040 then [12] else if i < 0x7080 then [13 + (i - 0x7040) / 4]
  else if i < 0x7200 then [12] else if i < 0x7300 then [0] else if i == 0x7830 then [0] else [1]

/-- Slot words of the default frame table (R85, R86). -/
def defaultSlotWord (d slot : Nat) : Word :=
  let m := d % 8
  if slot = 0 then
    nth [0xE304, 0xE424, 0xE344, 0xE464, 0xE384, 0xE4A4, 0xE3C4, 0xE4E4] m 0
  else if slot = 3 then 0xF508 else if slot = 6 then 0xF608 else if slot = 14 then 0xF708
  else if slot = 15 then (if m = 7 then 0xF001 else 0xF000)
  else if slot = 12 ∨ slot = 13 then 0xF000 else 0xF108

/-- The default credits of a port (R87, R111). DESIGN CHOICE: those of the internal ports P28 and P29 read 0 (log entry 72). -/
def defaultCredits (p : Nat) : Word :=
  if p < 20 then 0x4020 else if p < 26 then 0x2010 else if p < 28 then 0x4020
  else if p < 30 then 0 else if p = 30 then 0x0804 else 0x1008

/-- Default limits of the housekeeping channels (R271); those the image sets stand at no limit. -/
def defaultLimit (hi : Bool) (ch : Nat) : Word :=
  if ch < 8 then (if hi then 1760 else ofI16 (-160))
  else if ch < 12 then (if hi then 1520 else ofI16 (-160))
  else if ch = 14 then (if hi then 100 else ofI16 (-100))
  else if ch = 15 ∨ ch = 16 then (if hi then 50 else ofI16 (-50))
  else (if hi then 0xFFFF else 0)

/-- SUCCESSION at reset: tiles 0 to n - 1 in ascending order, then 0xF nibbles (R28). -/
def defaultSuccession (n : Nat) : Nat :=
  (List.range 8).foldl (fun a k => a + (if k < n then k else 0xF) * 16 ^ k) 0

/-- The default of a writable word (the object tables of R26, R30, R53, R78, R84, ...). DESIGN CHOICE: WATERMARKS of P28 and P29, which watch no FIFO,
read as those of a response FIFO (log entry 72). -/
def wordDefault (n i x : Nat) : Word :=
  if i = 0x1003 then wordAt (defaultSuccession n) (x - 1)
  else if i = 0x1100 then (if x = 4 then 3 else 0)
  else if i = 0x1201 then (if x = 1 then 0xFFFF else 0x3FFF)
  else if i = 0x1401 then (if x = 3 then 0x6006 else 0)
  else if i = 0x1500 then (if x = 2 then 16 else 0)
  else if i = 0x2000 then (if x = 1 then 2 else if x = 2 then 1 else 0)
  else if i = 0x2100 then (if x = 1 then 8 else if x = 5 then 5 else 4)
  else if 0x2200 ≤ i ∧ i ≤ 0x22FF then defaultSlotWord (i - 0x2200) (x - 1)
  else if 0x3000 ≤ i ∧ i ≤ 0x301F then
    (if x = 1 then (if i = 0x301F then 0x00F0 else 0x80F0)
     else if x = 3 then defaultCredits (i - 0x3000)
     else (if i < 0x3004 then 0x1808 else 0x3010))
  else if i = 0x3400 then (if x = 1 then 0xC000 else 0)
  else if i = 0x3402 then 0xC000
  else if i = 0x3410 ∨ i = 0x3411 then 0xFFFF
  else if i = 0x3412 ∨ i = 0x3413 then 16
  else if i = 0x3414 ∨ i = 0x3415 then 256
  else if 0x3600 ≤ i ∧ i ≤ 0x39FF then
    (if x = 1 then 0xFFFF else if x = 2 then 64 else if x = 3 then 16
     else if x = 0x50 then w16 (i - 0x3600) else if x = 0x70 then 1024 else 0)
  else if i = 0x4000 then
    (if x = 2 then 2 else if x = 3 then 8 else if x = 4 then 64 else if x = 5 then 0x3010 else if x = 6 then 16 else 0)
  else if i = 0x4800 then (if x = 1 then 24 else if x = 2 then 0x8000 else if x = 5 then 64 else 0)
  else if i = 0x4900 then 128
  else if i = 0x5000 then (if x = 1 then 0xC000 else if x = 2 then 16 else if x = 3 then 8 else 1024)
  else if i = 0x6400 then (if x = 2 then 4 else 4096)
  else if i = 0x7000 then
    (if x = 4 then 1000 else if x = 5 then 64 else if x = 6 then 16 else if x = 7 then 100 else if x = 8 then 12 else 0)
  else if 0x7100 ≤ i ∧ i ≤ 0x7142 then Config.fusedSet i (x - 1)
  else if i = 0x7200 then 40
  else if i = 0x7203 then defaultLimit false (x - 1)
  else if i = 0x7204 then defaultLimit true (x - 1)
  else if i = 0x7800 then (if x = 5 then 2 else if x = 6 then 4 else 8)
  else 0

end Sys2Proof.Machine
end

