-- ==== Sys2Proof/Machine/Ops.lean ====
section
/-!
DEFINITION. The named operations every meaning shares: register words, counters (R34), clocks (R8, R360), power domains
(R29), the event log (R388, R405) with its in-band interrupt (R368), outputs, and the parts of the state that stand in maps.
-/
namespace Sys2Proof.Machine
open Sys2Proof

/-! ### Words of the dictionary -/

/-- The applied value of a writable word. -/
def State.reg (s : State) (i x : Nat) : Word := s.dict.applied.getD (wkey i x) (wordDefault s.ident.n i x)

/-- The staged value of a writable word, the applied one where none is held (R383, R385). -/
def State.stagedReg (s : State) (i x : Nat) : Word := (s.dict.staged.look (wkey i x)).getD (s.reg i x)

/-- The applied value of a multi-word object (R5). -/
def State.regs (s : State) (i x k : Nat) : Nat := ofWords ((List.range k).map (fun j => s.reg i (x + j)))

/-- The staged value of a multi-word object. -/
def State.stagedRegs (s : State) (i x k : Nat) : Nat := ofWords ((List.range k).map (fun j => s.stagedReg i (x + j)))

/-- An applied word set; its parity is written with it (R386), and a restoration of the word that was due is no longer. -/
def State.setReg (s : State) (i x : Nat) (v : Word) : State :=
  { s with dict := { s.dict with applied := s.dict.applied.put (wordDefault s.ident.n i x) (wkey i x) v,
                                 known := if isAclKey i x then s.dict.known.put (wordDefault s.ident.n i x) (wkey i x) v else s.dict.known,
                                 badApplied := s.dict.badApplied.filter (fun k => k ≠ wkey i x),
                                 parityDue := s.dict.parityDue.filter (fun e => e.1 ≠ wkey i x) } }

/-- A held staged word discarded. -/
def State.dropStaged (s : State) (i x : Nat) : State :=
  { s with dict := { s.dict with staged := s.dict.staged.del (wkey i x),
                                 badStaged := s.dict.badStaged.filter (fun k => k ≠ wkey i x) } }

/-- A staged word held (R383). -/
def State.setStaged (s : State) (i x : Nat) (v : Word) : State :=
  { s with dict := { s.dict with staged := s.dict.staged.set (wkey i x) v,
                                 badStaged := s.dict.badStaged.filter (fun k => k ≠ wkey i x) } }

/-- PHASE [1500:00] (R382): a value written is in force from the next cycle. -/
def State.phaseWord (s : State) : Word := match s.dict.phaseNew with
  | some (c, v) => if c < s.clk.now then v else s.dict.phase
  | none => s.dict.phase

/-- PHASE as a number. -/
def State.phase (s : State) : Nat := s.phaseWord.toNat

/-- A value that the block itself puts into PHASE (R339, R358). -/
def Dict.setPhase (d : Dict) (v : Word) : Dict := { d with phase := v, phaseNew := none }

/-! ### Numbers, time and domains -/

/-- The number of tiles n (R22). -/
def State.n (s : State) : Nat := s.ident.n
/-- This tile's number (R22). -/
def State.t (s : State) : Nat := s.ident.t
/-- FRAME_NO as a number (R59). -/
def State.frame (s : State) : Nat := s.anvil.frameNo.toNat
/-- The cycle within the frame (R9). -/
def State.cyc (s : State) : Nat := s.clk.now % 1024
/-- POWERED_TIME in ns (R360). -/
def State.ns (s : State) : Nat := s.clk.pt / 36

/-- One CCLK cycle in 1/36 ns at a grade (R8, R298): 6.4, 7.2, 8.0 and 9.6 Gb/s. -/
def cycleTime (grade : Nat) : Nat := if grade = 1 then 45 else if grade = 2 then 40 else if grade = 4 then 30 else 36

/-- The clock moved on to a cycle, powered time with it; a cycle already past changes nothing (log entry 1). -/
def State.toCycle (s : State) (c : Nat) : State :=
  { s with clk := { now := max s.clk.now c, pt := s.clk.pt + (c - s.clk.now) * cycleTime s.phy.grade } }

/-- Powered time moved on to a moment in ns; a moment already past changes nothing (log entry 1). -/
def State.toTime (s : State) (ns : Nat) : State := { s with clk := { s.clk with pt := max s.clk.pt (ns * 36) } }

/-- An idle step: one CCLK cycle passes, but for the last of a frame, which FRAME_TICK ends (log entry 1). -/
def State.idle (s : State) : State := if s.clk.now % 1024 = 1023 then s else s.toCycle (s.clk.now + 1)

/-- Domain k is powered and usable (R30). -/
def State.dom (s : State) (k : Nat) : Bool := bit s.pd.status k
/-- The objects of an index are live: some domain named for its range is available (R391). -/
def State.avail (s : State) (i : Nat) : Bool := (domainsOf i).any (fun k => s.dom k)

/-- The anchor's tick marker taken (R76): FRAME_NO and the cycle within the frame, so that the measured offset is 0. The anchor's own ticks are the
reference, as are those of a tile alone. DESIGN CHOICE: the marker's cycle counts in the frame of 1024 cycles that runs (log entry 72). -/
def State.takeMarker (s : State) (m : Marker) : State :=
  let a := { s.anvil with aligned := true, tickOff := 0, offBad := false }
  if s.repair.anchor == s.t then { s with anvil := a }
  else { s with anvil := { a with frameNo := m.frame, slot := ceilDiv m.cyc.val 64 },
                clk := { s.clk with now := s.clk.now - s.clk.now % 1024 + m.cyc.val } }

/-- A free value drawn: the counter the opaque constants are applied to moves on (log entry 2). -/
def State.draw (s : State) : State := { s with freeCount := s.freeCount + 1 }

/-! ### Outputs -/

/-- What the block drives at a face (log entry 4). -/
def State.emit (s : State) (o : Out) : State := { s with out := s.out ++ [o] }
/-- A message given to the ring stop. -/
def State.ring (s : State) (m : RingMsg) : State := s.emit (.ring m)

/-! ### Counters -/

/-- A 48-bit counter raised; it wraps at 2^48 (R34), and stands while its domain is unavailable (R391). -/
def State.count (s : State) (i x : Nat) (by_ : Nat := 1) : State :=
  { s with ctr := if s.avail i then s.ctr.put 0 (wkey i x) ((s.ctr.getD (wkey i x) 0 + by_) % 2 ^ 48) else s.ctr }

/-- The value of a counter. -/
def State.ctrOf (s : State) (i x : Nat) : Nat := s.ctr.getD (wkey i x) 0

/-- A count saturating at 0xFFFF. -/
def satAdd16 (a b : Nat) : Nat := min (a + b) 0xFFFF

/-- The two words of a 32-bit value. -/
def two (x : Nat) : List Word := wordsOf 2 x
/-- The three words of a 48-bit value. -/
def three (x : Nat) : List Word := wordsOf 3 x
/-- The four words of a 64-bit value. -/
def four (x : Nat) : List Word := wordsOf 4 x

/-! ### The event log -/

/-- IBI_MASK bit of a subsystem (R368, R389); bit 0 is none. -/
def State.ibiBit (s : State) (code : Nat) : Bool := (0 < code / 256) && bit (s.reg 0x1401 3) (code / 256)

/-- The payload of an in-band interrupt (R367): the event code's low byte, its high byte, the tile number. -/
def ibiPayload (code tile : Nat) : List Byte := [BitVec.ofNat 8 code, BitVec.ofNat 8 (code / 256), BitVec.ofNat 8 tile]

/-- An in-band interrupt asked for by a logged event (R368). -/
def State.raiseIbi (s : State) (code : Nat) : State :=
  if s.ibiBit code then
    match s.maint.ibiPending with
    | some _ => { s with maint := { s.maint with ibiNewest := some code } }
    | none => if s.maint.ibiOn then
        ({ s with maint := { s.maint with ibiPending := some code } }).emit (.ibi (ibiPayload code s.t)) else s
  else s

/-- Entries with one more; the oldest gives way when 4096 are held (R388). -/
def Log.push (l : Log) (e : LogEntry) : Log :=
  if l.entries.length < 4096 then
    { l with entries := l.entries ++ [e], total := sat32 (l.total + 1) }
  else { l with entries := l.entries.drop 1 ++ [e], total := sat32 (l.total + 1), overflow := satAdd16 l.overflow 1 }

/-- An event written to the log (R388), with its interrupt (R368). The log stands in PD1. -/
def State.log1 (s : State) (code : Nat) (args : List Word) : State :=
  if s.dom 1 then
    ({ s with log := s.log.push ⟨code, s.t, s.ns, s.boot.cycles.toNat, args⟩ }).raiseIbi code
  else s

/-- The key of a limit: code and the key its rule names (R405). -/
def limKey (code key : Nat) : Nat := 65536 * code + key

/-- An event under the limit of code `lim`: "at most once in N frames"; N = 1 is "at most once per frame" (R405). `w` occurrences are at hand; the
arguments may use the count of occurrences since the last logged event, those held back. -/
def State.logLimAs (s : State) (lim code key n w : Nat) (args : Nat → List Word) : State :=
  let k := limKey lim key
  let ok := match s.log.seen.look k with
    | none => true
    | some f => decide (f + n ≤ s.frame)
  if ok then
    let s1 := s.log1 code (args (s.log.held.getD k 0))
    { s1 with log := { s1.log with seen := s1.log.seen.set k s.frame, held := s1.log.held.del k } }
  else { s with log := { s.log with held := s.log.held.set k (sat32 (s.log.held.getD k 0 + w)) } }

/-- An event under its own code's limit (R405). -/
def State.logLim (s : State) (code key n w : Nat) (args : Nat → List Word) : State := s.logLimAs code code key n w args

/-- An event at most once per frame and key (R405). -/
def State.logFrame (s : State) (code key : Nat) (args : List Word) : State := s.logLim code key 1 1 (fun _ => args)

/-- An event at most once per housekeeping round and key (R405). -/
def State.logRound (s : State) (code key : Nat) (args : List Word) : State :=
  let k := limKey code key
  if s.log.seen.look k = some s.hk.rounds then s
  else
    let s1 := s.log1 code args
    { s1 with log := { s1.log with seen := s1.log.seen.set k s.hk.rounds } }

/-- Event 0x0F06: a value ignored under its object's range rule, with the object and the value (R389; log entry 11). -/
def State.ignored (s : State) (i x : Nat) (v : Nat) : State := s.log1 0x0F06 ([w16 i, w16 x] ++ four v)

/-- Event 0x0F11: a package-wide object or anchor-only command at the wrong tile (R384). -/
def State.wrongTile (s : State) (i x : Nat) (v : Nat) : State := s.log1 0x0F11 ([w16 i, w16 x] ++ four v)

/-! ### Parts of the state kept in maps -/

/-- A port. -/
def State.port (s : State) (p : Nat) : PortSt := s.ports.getD p {}
/-- A port changed. -/
def State.setPort (s : State) (p : Nat) (v : PortSt) : State := { s with ports := s.ports.put {} p v }
/-- A pseudo-channel. -/
def State.pc (s : State) (c : Nat) : PcSt := s.pcs.getD c {}
/-- A pseudo-channel changed. -/
def State.setPc (s : State) (c : Nat) (v : PcSt) : State := { s with pcs := s.pcs.put {} c v }
/-- A shaper queue that nothing has used: its finish tags follow the clocks at each tick (R145). -/
def State.freshQ (s : State) : QSt := { fT := s.sched.cT, fL := s.sched.cL, fB := s.sched.cB }
/-- A shaper queue. -/
def State.q (s : State) (k : Nat) : QSt := s.queues.getD k s.freshQ
/-- A shaper queue changed. -/
def State.setQ (s : State) (k : Nat) (v : QSt) : State := { s with queues := s.queues.put s.freshQ k v }
/-- A key slot. -/
def State.slot (s : State) (k : Nat) : Slot := s.cipher.slots.getD k {}
/-- A key slot changed. -/
def State.setSlot (s : State) (k : Nat) (v : Slot) : State :=
  { s with cipher := { s.cipher with slots := s.cipher.slots.put {} k v } }
/-- An access path's own state. -/
def State.path (s : State) (h : Path) : PathSt := match h with
  | .win => s.win
  | .bus => s.bus
/-- An access path's own state changed. -/
def State.setPath (s : State) (h : Path) (v : PathSt) : State := match h with
  | .win => { s with win := v }
  | .bus => { s with bus := v }

/-- Every pseudo-channel number. -/
def allPcs : List Nat := List.range 64
/-- The banks of a pseudo-channel: 16 a stack ID (R37). -/
def State.banks (s : State) : Nat := 16 * s.phy.ids
/-- The pseudo-channels of group g (R29). -/
def groupPcs (g : Nat) : List Nat := [4 * g, 4 * g + 1, 4 * g + 2, 4 * g + 3]

/-- A fold of a state over a list. -/
def State.each {α : Type} (s : State) (l : List α) (f : State → α → State) : State := l.foldl f s

/-- The least of a function over a list of numbers, `d` on none. -/
def minOf (d : Nat) (l : List Nat) : Nat := match l with
  | [] => d
  | x :: r => r.foldl min x

/-- The mask of a list of tile numbers. -/
def maskOf (l : List Nat) : BitVec 8 := l.foldl (fun a k => a ||| BitVec.ofNat 8 (2 ^ k)) 0

/-- This tile holds the anchor duties (R24, R26). -/
def State.isAnchor (s : State) : Bool := s.repair.anchor == s.t

/-- The tiles of the package view in ascending order (R393). -/
def State.viewTiles (s : State) : List Nat := (List.range s.n).filter (fun u => bit s.repair.view u)

/-- Ring order after tile u: u + 1, u + 2, ... modulo n (R83). -/
def State.after (s : State) (u : Nat) : List Nat := (List.range (s.n - 1)).map (fun k => (u + 1 + k) % s.n)

/-- The links of the arc of ascending numbers from this tile to tile u: link k joins tiles k and k + 1 (R324). -/
def State.linksUp (s : State) (u : Nat) : List Nat := (List.range ((u + s.n - s.t) % s.n)).map (fun k => (s.t + k) % s.n)
/-- The links of the arc of descending numbers. -/
def State.linksDown (s : State) (u : Nat) : List Nat := (List.range ((s.t + s.n - u) % s.n)).map (fun k => (s.t + s.n - 1 - k) % s.n)

/-- The arc that a request or a response to tile u takes (R14): the shorter one, ascending where both are equally long, the other while one of
its links is broken; none within the tile. -/
def State.arcTo (s : State) (u : Nat) : Option Bool :=
  let whole := fun (l : List Nat) => l.all (fun k => !bit s.repair.cut k)
  let up := s.linksUp u
  let down := s.linksDown u
  if u = s.t then none
  else
    let first := decide (up.length ≤ down.length)
    some (if whole (if first then up else down) || !whole (if first then down else up) then first else !first)

/-- A request sent to its home by its arc (R14). -/
def State.sendRequest (s : State) (home : Nat) (r : HReq) : State := s.ring (.request home (s.arcTo home) r)
/-- A response sent to its entry tile by its arc (R14). -/
def State.sendResponse (s : State) (tile : Nat) (m : RespMsg) : State := s.ring (.response tile (s.arcTo tile) m)

/-- A prepared package commit with its GO is due (R80, R81, R125): requests that leave now are checked against the new group. -/
def State.commitDue (s : State) : Bool :=
  s.commit.prepared && (match s.commit.go with | some g => decide (g.toNat < s.frame) | none => false) && decide (s.commit.pf.toNat ≤ s.frame)

/-- The succession: named tiles of the view in list order, then the others in ascending number (R28). -/
def State.succession (s : State) : List Nat :=
  let v := s.regs 0x1003 1 2
  let nib := (List.range 8).map (fun k => v / 16 ^ k % 16)
  let named := nib.takeWhile (fun x => x ≠ 15)
  (named.filter (fun u => s.viewTiles.contains u)) ++ s.viewTiles.filter (fun u => !named.contains u)

end Sys2Proof.Machine
end

