-- ==== Sys2Proof/Machine/AddrMap.lean ====
section
/-!
DEFINITION. The address map: usable capacity (R37-R40), the parts of the package space (R41-R43), the choice of the tile
(R44-R47), the place inside the tile (R48-R51), its objects (R54, R55) and the check of a staged map (R56).
-/
namespace Sys2Proof.Machine
open Sys2Proof

/-- A stack is usable only with 3 or 4 stack IDs and 13 to 15 row bits (R37). -/
def usableStack (ids r : Nat) : Bool := (ids == 3 || ids == 4) && (r == 13 || r == 14 || r == 15)

/-- Usable capacity: min(2^36, s × 2^(20 + r)) bytes (R37). -/
def usableCap (ids r : Nat) : Nat := min (2 ^ 36) (ids * 2 ^ (20 + r))

/-- The applied map (R52); `rs` are the row bits of each tile's stack (R48). -/
structure MapCfg where
  n : Nat
  cap : Nat
  order : Nat
  inter : Nat
  units : Nat
  r : Nat
  rs : List Nat := []
  deriving DecidableEq, Repr

/-- 256 MiB (R41). -/
def mib256 : Nat := 2 ^ 28

/-- The map in force. -/
def State.map (s : State) : MapCfg :=
  { n := s.n, cap := s.phy.cap, order := (s.reg 0x2000 1).toNat, inter := (s.reg 0x2000 2).toNat,
    units := (s.reg 0x2000 3).toNat, r := s.phy.rowBits, rs := s.phy.rows }

/-- Seam size S (R41). -/
def MapCfg.seam (m : MapCfg) : Nat := mib256 * m.units
/-- The ordinary part C′ of each tile (R41). -/
def MapCfg.ord (m : MapCfg) : Nat := m.cap - m.seam
/-- SEAM_BASE (R42). -/
def MapCfg.seamBase (m : MapCfg) : Nat := m.n * m.ord
/-- MAP_END (R42). -/
def MapCfg.mapEnd (m : MapCfg) : Nat :=
  m.seamBase + (if m.n ≤ 1 then 0 else if m.n = 2 then m.seam else (m.n - 1) * m.seam)

/-- Where a package address lies: home tile, tile-local address, and the parity or mirror tile in the Seam part. -/
structure Home1 where
  tile : Nat
  loc : Nat
  parity : Option Nat
  deriving DecidableEq, Repr

/-- The parity tile of stripe row j (R45). -/
def MapCfg.parityOf (m : MapCfg) (j : Nat) : Nat := (m.n - 1) - j % m.n

/-- The tile and local address of a mapped package address (R44, R45, R46). -/
def MapCfg.home (m : MapCfg) (p : Nat) : Home1 :=
  if p < m.seamBase then
    if m.inter = 1 then
      let k := p / 4096
      { tile := k % m.n, loc := k / m.n * 4096 + p % 4096, parity := none }
    else { tile := p / m.ord, loc := p % m.ord, parity := none }
  else
    let d := p - m.seamBase
    let k := d / 4096
    if m.n = 2 then { tile := k % 2, loc := m.ord + k * 4096 + d % 4096, parity := some (1 - k % 2) }
    else
      let w := m.n - 1
      let j := k / w
      let pos := k % w
      let q := m.parityOf j
      { tile := if pos < q then pos else pos + 1, loc := m.ord + j * 4096 + d % 4096, parity := some q }

/-- The package address of a tile-local line held as data in tile t, if the line is no parity or mirror copy: the decode
of R44 to R46 run backwards. -/
def MapCfg.package (m : MapCfg) (t loc : Nat) : Option Nat :=
  if loc < m.ord then
    some (if m.inter = 1 then (loc / 4096 * m.n + t) * 4096 + loc % 4096 else t * m.ord + loc)
  else
    let j := (loc - m.ord) / 4096
    if m.n = 2 then if j % 2 = t then some (m.seamBase + j * 4096 + loc % 4096) else none
    else
      let q := m.parityOf j
      if t = q then none
      else some (m.seamBase + (j * (m.n - 1) + (if t < q then t else t - 1)) * 4096 + loc % 4096)

/-- A place in a stack (R48, R49): pseudo-channel, bank number with its stack ID (bank = 16 × stack ID + bank), row, column. -/
structure Place where
  pc : Nat
  bank : Nat
  row : Nat
  col : Nat
  deriving DecidableEq, Repr

/-- A place from its fields; the deep index holds the stack ID above the row bits (R48). -/
def placeOf (r pc bank deep col : Nat) : Place :=
  { pc := pc, bank := 16 * (deep / 2 ^ r) + bank, row := deep % 2 ^ r, col := col }

/-- The place of a tile-local address (R49, R50, R51). -/
def MapCfg.place (m : MapCfg) (l : Nat) : Place :=
  let order2 := placeOf m.r (l / 2 ^ 12 % 64) (l / 2 ^ 8 % 16) (l / 2 ^ 20 % 2 ^ 16) (l / 2 ^ 6 % 4 + 4 * (l / 2 ^ 18 % 4))
  if m.order = 1 then
    placeOf m.r (l / 2 ^ 6 % 64) (l / 2 ^ 12 % 16) (l / 2 ^ 20 % 2 ^ 16) (l / 2 ^ 16 % 16)
  else if m.order = 3 ∧ l < m.ord then
    let g := l / (m.ord / 16)
    let a := l % (m.ord / 16)
    placeOf m.r (4 * g + a / 2 ^ 12 % 4) (a / 2 ^ 8 % 16) (a / 2 ^ 16 % 2 ^ 16) (a / 2 ^ 6 % 4 + 4 * (a / 2 ^ 14 % 4))
  else if m.order = 4 then
    let a := l % (m.cap / 64)
    placeOf m.r (l / (m.cap / 64)) (a / 2 ^ 10 % 16) (a / 2 ^ 14 % 2 ^ 16) (a / 2 ^ 6 % 16)
  else order2

/-- The place of a tile-local address in the stack of tile u, by that stack's own row bits (R48). -/
def MapCfg.placeIn (m : MapCfg) (u l : Nat) : Place := { m with r := nth m.rs u m.r }.place l

/-- The tile-local address of a place: R49 to R51 run backwards. -/
def MapCfg.unplace (m : MapCfg) (p : Place) : Nat :=
  let deep := p.bank / 16 * 2 ^ m.r + p.row
  let b := p.bank % 16
  let o2 := 2 ^ 20 * deep + 2 ^ 18 * (p.col / 4) + p.pc * 2 ^ 12 + b * 2 ^ 8 + p.col % 4 * 2 ^ 6
  if m.order = 1 then 2 ^ 20 * deep + 2 ^ 16 * p.col + b * 2 ^ 12 + p.pc * 2 ^ 6
  else if m.order = 3 then
    let a := 2 ^ 16 * deep + p.col / 4 * 2 ^ 14 + p.pc % 4 * 2 ^ 12 + b * 2 ^ 8 + p.col % 4 * 2 ^ 6
    if a < m.ord / 16 ∧ (m.place (p.pc / 4 * (m.ord / 16) + a)) = p then p.pc / 4 * (m.ord / 16) + a else o2
  else if m.order = 4 then p.pc * (m.cap / 64) + 2 ^ 14 * deep + b * 2 ^ 10 + p.col * 2 ^ 6
  else o2

/-- DEC_TILE, DEC_PLACE, DEC_ROW and DEC_LOCAL for an address (R54, R55). -/
def MapCfg.decode (m : MapCfg) (p : Nat) : Nat × Nat × Nat × Nat :=
  if m.mapEnd ≤ p then (0x8000, 0, 0, 0)
  else
    let h := m.home p
    let pl := m.placeIn h.tile h.loc
    (h.parity.getD 15 * 16 + h.tile,
      pl.col * 4096 + pl.bank / 16 * 1024 + pl.bank % 16 * 64 + pl.pc, pl.row, h.loc)

/-- The first failing condition of R56 with the object and value reported, none where the staged map passes. DESIGN CHOICE: with MAP_ORDER and
TILE_INTERLEAVE both outside their lists, which are one condition, MAP_ORDER is reported (log entry 72). -/
def State.mapFail (s : State) : Option (Nat × Nat × Word) :=
  let o := s.stagedReg 0x2000 1
  let i := s.stagedReg 0x2000 2
  let u := s.stagedReg 0x2000 3
  if o.toNat < 1 ∨ 4 < o.toNat then some (0x2000, 1, o)
  else if 1 < i.toNat then some (0x2000, 2, i)
  else if s.phy.cap / mib256 < u.toNat * 8 then some (0x2000, 3, u)
  else if u ≠ 0 ∧ (s.n = 1 ∨ o = 4) then some (0x2000, 3, u)
  else if s.phase = 1 then some (0x1500, 0, s.phaseWord)
  else none

/-- The staged map differs from the applied one (R57). -/
def State.mapChanges (s : State) : Bool :=
  [1, 2, 3].any (fun x => s.stagedReg 0x2000 x != s.reg 0x2000 x)

/-- MAP_STATUS [2004:01] (R53). -/
def State.mapStatus (s : State) : Nat := bitsWord [s.phy.clipped, s.phy.differ, s.store.initing]

/-- A package address is in the Seam part (R42). -/
def MapCfg.inSeam (m : MapCfg) (p : Nat) : Bool := decide (m.seamBase ≤ p) && decide (p < m.mapEnd)

/-- The other tiles that hold data of a line's stripe row, and its parity tile (R45). -/
def MapCfg.rowTiles (m : MapCfg) (loc : Nat) : List Nat :=
  (List.range m.n).filter (fun u => u ≠ m.parityOf ((loc - m.ord) / 4096))

end Sys2Proof.Machine
end

