-- ==== Sys2Proof/Machine/LineCode.lean ====
section
/-!
DEFINITION. The line code (R180-R183) and the contents of the tile's stack: 64-byte lines at tile-local addresses with
their poison (R187, R188), kept as bytes in canonical form, an unlisted byte reading 0 (R57).
-/
namespace Sys2Proof.Machine
open Sys2Proof

/-! ### The field and the code -/

/-- A symbol times α: the field is built on x^16 + x^12 + x^3 + x + 1 (R180). -/
def gfX (a : Word) : Word := if a.getLsbD 15 then (a <<< 1) ^^^ 0x100B#16 else a <<< 1

/-- The product of two symbols, by the bits of the second from a count down. -/
def gfMulN : Nat → Word → Word → Word
  | 0, _, _ => 0
  | k + 1, a, b => (if b.getLsbD 0 then a else 0) ^^^ gfMulN k (gfX a) (b >>> 1)

/-- The product of two symbols (R180). -/
def gfMul (a b : Word) : Word := gfMulN 16 a b

/-- x to the power 2^(k+1) − 2: with k = 15, the inverse of a symbol. -/
def gfInvN : Nat → Word → Word → Word
  | 0, _, acc => acc
  | k + 1, x, acc => let y := gfMul x x; gfInvN k y (gfMul acc y)

/-- The inverse of a symbol, 0 for 0. -/
def gfInv (a : Word) : Word := gfInvN 15 a 1

/-- α to a power. -/
def gfPow : Nat → Word
  | 0 => 1
  | k + 1 => gfX (gfPow k)

/-- A product of (x + X) over a list, coefficients from x^0 up. -/
def rootPoly : List Word → List Word
  | [] => [1]
  | x :: r => let p := rootPoly r; List.zipWith (fun a b => a ^^^ b) (0 :: p) (p.map (gfMul x) ++ [0])

/-- g(x) = (x + 1)(x + α)(x + α^2)(x + α^3), coefficients from x^0 up, the leading 1 left off (R180). -/
def genPoly : List Word := (rootPoly [1, gfPow 1, gfPow 2, gfPow 3]).take 4

/-- One step of the division by g, a symbol taken from the highest position down. -/
def divStep (r : List Word) (c : Word) : List Word :=
  let f := c ^^^ nth r 3 0
  List.zipWith (fun a b => a ^^^ gfMul f b) (0 :: r.take 3) genPoly

/-- The check symbols c0 to c3 of c4 to c37 (R180). -/
def checkSyms (c : List Word) : List Word := c.reverse.foldl divStep [0, 0, 0, 0]

/-- The address symbols of a tile-local address, inverted where the line is poisoned (R182). -/
def addrSyms (l : Nat) (poison : Bool) : List Word :=
  let m : Word := if poison then 0xFFFF else 0
  [w16 (l / 2 ^ 6 % 2 ^ 16) ^^^ m, w16 (l / 2 ^ 22 % 2 ^ 14) ^^^ m]

/-- The 32 data symbols of a line (R181). -/
def dataSyms (d : Line) : List Word := (List.range 32).map (fun j => d.extractLsb' (16 * j) 16)

/-- A line from its 32 data symbols (R181). -/
def lineOfSyms (c : List Word) : Line := BitVec.ofNat 512 (ofWords c)

/-- The 36 stored symbols of a line (R180, R182). -/
def encodeLine (d : Line) (l : Nat) (poison : Bool) : List Word :=
  checkSyms (dataSyms d ++ addrSyms l poison) ++ dataSyms d

/-- Σ c_i X^i by Horner's rule, symbols from position 0 up. -/
def evalAt (x : Word) (c : List Word) : Word := c.foldr (fun a acc => a ^^^ gfMul x acc) 0

/-- The four syndromes of a codeword (R180). -/
def syndromes (c : List Word) : List Word := [evalAt 1 c, evalAt (gfPow 1) c, evalAt (gfPow 2) c, evalAt (gfPow 3) c]

/-- Syndromes s are explained by values at positions ps (at most 4 of them): the locator of the positions annihilates them. -/
def explains (ps : List Nat) (s : List Word) : Bool :=
  let lam := rootPoly (ps.map gfPow)
  (List.range (4 - ps.length)).all (fun j =>
    (List.zipWith gfMul lam (s.drop j)).foldl (fun a b => a ^^^ b) 0 == 0)

/-- The value at position p that explains s with the others ps. -/
def magnitude (p : Nat) (ps : List Nat) (s : List Word) : Word :=
  let q := rootPoly (ps.map gfPow)
  gfMul ((List.zipWith gfMul q s).foldl (fun a b => a ^^^ b) 0) (gfInv (evalAt (gfPow p) q))

/-- The erasures alone, or with the first single position up to `top` that explains s. -/
def findError (er : List Nat) (top : Nat) (s : List Word) : Option (Option Nat) :=
  if explains er s then some none
  else match (List.range (top + 1)).find? (fun p => !er.contains p && explains (er ++ [p]) s) with
    | some p => some (some p)
    | none => none

/-- Symbols with the values at positions ps added. -/
def repairSyms (ps : List Nat) (s : List Word) (c : List Word) : List Word :=
  ps.foldl (fun a p => setNth a p (nth a p 0 ^^^ magnitude p (ps.filter (fun q => q ≠ p)) s)) c

/-- What a decode gives: the outcome, the line's data symbols with what could be filled, and the position of the one error. -/
structure Decode1 where
  res : Decoded
  data : Line
  err : Option Nat
  deriving DecidableEq, Repr

/-- The decode of R183: 36 stored symbols, tile-local address, marked positions. -/
def decodeLine (c : List Word) (l : Nat) (er : List Nat) : Decode1 :=
  let full := c ++ addrSyms l false
  let s := syndromes full
  let line := fun (x : List Word) => lineOfSyms ((x.drop 4).take 32)
  if s.all (fun a => a == 0) then ⟨.good, line c, none⟩
  else
    let pat := syndromes (List.replicate 36 0 ++ [0xFFFF, 0xFFFF])
    let sp := List.zipWith (fun a b => a ^^^ b) s pat
    match findError er 35 sp with
    | some e => ⟨.poisoned, line (repairSyms (er ++ e.toList) sp full), e⟩
    | none =>
      match findError er 37 s with
      | some none => ⟨.good, line (repairSyms er s full), none⟩
      | some (some p) =>
        if 36 ≤ p then ⟨.misplaced, line c, none⟩
        else ⟨.corrected, line (repairSyms (er ++ [p]) s full), some p⟩
      | none => ⟨.uncorrectable, line c, none⟩

/-- The codeword position of a lane: data lanes 0 to 31, then check lanes (R183, R206). -/
def lanePos (lane : Nat) : Nat := if lane < 32 then lane + 4 else lane - 32
/-- The lane of a codeword position. -/
def posLane (p : Nat) : Nat := if p < 4 then p + 32 else p - 4

/-- The lanes that a MARKED_LANES word marks (R206). -/
def markedLanes (w : Word) : List Nat :=
  (if bit w 14 then [fld w 5 0] else []) ++ (if bit w 15 then [fld w 11 6] else [])

/-! ### The stack's contents -/

/-- A byte of the stack; an unlisted byte reads 0, the value that initialisation gives (R57; log entry 10). -/
def Store.byte (m : Store) (a : Nat) : Byte := SMap.getD m.data a 0

/-- A line of the stack at a tile-local address (R10). -/
def Store.line (m : Store) (l : Nat) : Line :=
  lineOfBytes ((List.range 64).map (fun i => m.byte (l / 64 * 64 + i)))

/-- The line is poisoned (R187): listed, or below `poisonTo` and not listed. -/
def Store.isPoison (m : Store) (l : Nat) : Bool := m.poison.contains (l / 64 * 64) != decide (l / 64 * 64 < m.poisonTo)

/-- A line with its poison. -/
def Store.pline (m : Store) (l : Nat) : PLine := ⟨m.line l, m.isPoison l⟩

/-- Bytes written from an address on, in canonical form. -/
def putBytes (m : List Host.Cell) : Nat → List Byte → List Host.Cell
  | _, [] => m
  | a, b :: r => putBytes (SMap.put 0 m a b) (a + 1) r

/-- A line written whole, with or without poison (R17, R187, R188). -/
def Store.write (m : Store) (l : Nat) (d : Line) (poison : Bool) : Store :=
  { m with data := putBytes m.data (l / 64 * 64) (lineBytes d),
           poison := if poison != decide (l / 64 * 64 < m.poisonTo) then insNat m.poison (l / 64 * 64)
                     else m.poison.filter (fun a => a ≠ l / 64 * 64) }

/-- A line of the state's stack written. -/
def State.writeLine (s : State) (l : Nat) (d : Line) (poison : Bool) : State :=
  { s with store := s.store.write l d poison }

/-- A line written as poison with the data symbols it holds (R187). -/
def State.poisonLine (s : State) (l : Nat) : State := s.writeLine l (s.store.line l) true

/-- Every line zero and unpoisoned (R57). -/
def State.zeroStore (s : State) : State := { s with store := { s.store with data := [], poison := [], poisonTo := 0 } }

/-- Every line below an address written as poison (R323 step 1). -/
def State.poisonBelow (s : State) (a : Nat) : State := { s with store := { s.store with poison := [], poisonTo := a } }

/-- The marked positions of a pseudo-channel (R183, R185). -/
def State.erasures (s : State) (c : Nat) : List Nat := (markedLanes (s.pc c).marks).map lanePos

/-- A line decoded as its lanes brought it: errors are added to the stored symbols (R183). -/
def State.decodeAt (s : State) (c l : Nat) (errs : List (Nat × Word)) : Decode1 :=
  let stored := encodeLine (s.store.line l) l (s.store.isPoison l)
  let got := errs.foldl (fun a e => setNth a (lanePos e.1) (nth a (lanePos e.1) 0 ^^^ e.2)) stored
  decodeLine got l (s.erasures c)

end Sys2Proof.Machine
end

