-- ==== Sys2Proof/Machine/PortOps.lean ====
section
/-!
DEFINITION. What every port command shares: roles (R87), opcodes (R89), levels and flow control (R100, R101), credits
(R94-R96), the response FIFO (R91, R92, R99), flush (R104-R106), the mailbox (R109, R110) and the access check (R114-R122).
-/
namespace Sys2Proof.Machine
open Sys2Proof

/-! ### Roles and opcodes -/

/-- PORT_ROLE (R87, R111). -/
def portRole (p : Nat) : Nat :=
  if p < 4 then 1 else if p < 8 then 2 else if p < 20 then 3 else if p < 26 then 4 else if p < 28 then 5
  else if p = 28 then 6 else if p = 29 then 7 else if p = 30 then 8 else 9

/-- The base class of a role (R87). -/
def baseClass (p : Nat) : Cls :=
  if p < 8 then .t else if p < 20 then .bh else if p < 26 then .l else if p = 30 then .l else .bh

/-- Ports with no outside producer (R87). -/
def internalPort (p : Nat) : Bool := p == 28 || p == 29
/-- Coherent ports (R87). -/
def coherentPort (p : Nat) : Bool := decide (20 ≤ p) && decide (p ≤ 25)
/-- The agent number of a coherent port: six of each tile (R209). -/
def agentOf (tile p : Nat) : Nat := 6 * tile + (p - 20)

/-- The code of an opcode (R89). -/
def opCode : Op → Nat
  | .read => 0 | .writePosted => 1 | .writeAck => 2 | .rdShared => 3 | .rdUnique => 4 | .upgrade => 5 | .wrBack => 6
  | .masterReset => 15

/-- Write requests: they own lines of the write-data channel (R90). -/
def isWrite : Op → Bool
  | .writePosted => true | .writeAck => true | .wrBack => true
  | .read => false | .rdShared => false | .rdUnique => false | .upgrade => false | .masterReset => false

/-- Reads: READ, RD_SHARED and RD_UNIQUE (R107, R132, R150). -/
def isRead : Op → Bool
  | .read => true | .rdShared => true | .rdUnique => true
  | .writePosted => false | .writeAck => false | .wrBack => false | .upgrade => false | .masterReset => false

/-- The four coherent opcodes (R119). -/
def isCoherent : Op → Bool
  | .rdShared => true | .rdUnique => true | .upgrade => true | .wrBack => true
  | .read => false | .writePosted => false | .writeAck => false | .masterReset => false

/-- The opcode may stand on the port (R89). -/
def opAllowed (p : Nat) : Op → Bool
  | .read => !internalPort p
  | .writePosted => !internalPort p && portRole p != 2
  | .writeAck => !internalPort p && portRole p != 2
  | .rdShared => coherentPort p
  | .rdUnique => coherentPort p
  | .upgrade => coherentPort p
  | .wrBack => coherentPort p
  | .masterReset => !internalPort p

/-- The number of lines of a request (R88). -/
def ReqWord.count (w : ReqWord) : Nat := w.lines.toNat + 1
/-- The package address of a request's first line in bytes (R88). -/
def ReqWord.byteAddr (w : ReqWord) : Nat := w.addr.toNat * 64

/-- The cause of a format fault, 0 for none (R89, R407); LINES other than the opcode allows counts as cause 1 (DEDUCED, log
entry 13). -/
def formatCause (p : Nat) (op : Op) (w : ReqWord) : Nat :=
  if !opAllowed p op then 1
  else if w.spec && !(op == .read || op == .rdShared) then 2
  else if 3 < w.addr.toNat % 4 + w.lines.toNat then 3
  else if (isCoherent op || op == .masterReset) && w.lines != 0 then 1
  else 0

/-! ### Levels and flow -/

/-- Reserved entries of the response FIFO (R99); a MASTER_RESET under way holds one. -/
def PortSt.reserved (q : PortSt) : Nat := q.onward.foldl (fun a o => a + o.reserved) q.resets.length
/-- The response FIFO's level, reservations included (R100). -/
def PortSt.respLevel (q : PortSt) : Nat := q.fifo.length + q.reserved
/-- Lines held in the write buffer (R100). -/
def PortSt.wrLevel (q : PortSt) : Nat := q.queue.foldl (fun a r => a + r.got.length) q.early.length
/-- The watched FIFO's level (R87, R100). -/
def PortSt.watched (q : PortSt) (p : Nat) : Nat := if p < 4 then q.wrLevel else q.respLevel
/-- The port has reads outstanding (R101). -/
def PortSt.reading (q : PortSt) : Bool := q.onward.any (fun o => isRead o.op && !o.dropped)

/-- XOFF after the level: hysteresis between LOW_WM and HIGH_WM (R100). -/
def nextXoff (hi lo level : Nat) (old : Bool) : Bool := if hi ≤ level then true else if level ≤ lo then false else old

/-- PANIC after the level, on real-time ports only (R101). -/
def nextPanic (p hi lo level : Nat) (reading old : Bool) : Bool :=
  if p < 4 then nextXoff hi lo level old
  else if p < 8 then
    if hi ≤ level || !reading then false else if level ≤ lo then true else old
  else false

/-- A change of PANIC is carried to the home tiles (R101). -/
def State.setPanic (s : State) (p : Port) (b : Bool) : State :=
  let q := s.port p
  if q.panic = b then s else (s.setPort p { q with panic := b }).ring (.panic p b)

/-- XOFF and PANIC follow the watched FIFO of a port (R100, R101). -/
def State.watch (s : State) (p : Port) : State :=
  let q := s.port p
  let w := s.reg (0x3000 + p) 4
  let lvl := q.watched p
  let s1 := s.setPort p { q with xoff := nextXoff (fld w 15 8) (fld w 7 0) lvl q.xoff }
  s1.setPanic p (nextPanic p (fld w 15 8) (fld w 7 0) lvl q.reading q.panic)

/-- Pin k of ZG_XOFF is driven low: some port naming it has XOFF asserted (R103, R397); a tile that does not serve releases it (R398). -/
def State.xoffLow (s : State) (k : Nat) : Bool :=
  (s.boot.st == 2 || s.boot.st == 5) && s.repair.fenced.isNone && (List.range 32).any (fun p => (s.port p).xoff && fld (s.reg (0x3000 + p) 1) 7 4 == k)

/-! ### Credits -/

/-- A count cut into pieces of at most 4 (R94: REQ_RET and WR_RET reach 4). -/
def pieces : Nat → Nat → Nat → List (Nat × Nat)
  | 0, _, _ => []
  | k + 1, a, b => if a = 0 ∧ b = 0 then [] else (min a 4, min b 4) :: pieces k (a - 4) (b - 4)

/-- Credits returned to the producer by return words (R94, R96). -/
def State.retCred (s : State) (p : Port) (nr nw : Nat) : State :=
  let q := s.port p
  let s1 := s.setPort p { q with reqCred := q.reqCred + nr, wrCred := q.wrCred + nw }
  s1.each (pieces 64 nr nw) (fun a x => a.emit (.returnWord p q.epoch x.1 x.2))

/-- Credits of a request sent in an epoch: those of an epoch no longer in force do not return (R95). -/
def State.retCredOf (s : State) (p : Port) (e : BitVec 2) (nr nw : Nat) : State :=
  if e = (s.port p).epoch then s.retCred p nr nw else s

/-- The initialisation word: the next epoch, CREDITS and PULL as they stand (R94, R95, R112); a flush ends with it (R104). What came in under the
old epoch meanwhile is discarded with the rest (log entry 66), and XOFF and PANIC follow the level (R100, R101). -/
def State.sendInit (s : State) (p : Port) : State :=
  let q := s.port p
  let c := s.reg (0x3000 + p) 3
  let e := q.epoch + 1
  ((s.setPort p { q with epoch := e, live := true, reqCred := fld c 15 8, wrCred := fld c 7 0, initDue := false,
                         flush := none, flushOff := false, queue := [], early := [],
                         pull := bit (s.reg (0x3000 + p) 1) 13 }).emit (.initWord p e (fld c 15 8) (fld c 7 0))).watch p

/-- Ports are powered, the tile is not fenced (R318), does not wait to rejoin the view (R323), and no shutdown runs (R358). -/
def State.portsUp (s : State) : Bool := s.dom 3 && s.repair.fenced.isNone && !s.repair.rejoin && s.phase != 4

/-- ENABLE of a port (R112). -/
def State.enabled (s : State) (p : Nat) : Bool := bit (s.reg (0x3000 + p) 1) 15

/-! ### Responses -/

/-- A beat of one status and no data (R91, R92). -/
def statusBeat (st : Status) (tag : BitVec 12) (cresp : Cresp) (cstat : Nat) : Beat :=
  { status := st, line := 0, last := true, corrected := false, tag := tag, cresp := cresp, data := 0, cstat := cstat, ctag := 0 }

/-- A beat enters the response FIFO (R92), with the package address it is for (R217). -/
def State.pushBeat (s : State) (p : Port) (b : Beat) (addr : Nat := 0) : State :=
  let q := s.port p
  (s.setPort p { q with fifo := q.fifo ++ [(b, addr)] }).watch p

/-- A master's outstanding count changed by an amount (R132). -/
def State.addOut (s : State) (m : BitVec 8) (d : Int) : State :=
  { s with budget := { s.budget with outst := s.budget.outst.put 0 m.toNat (((s.budget.outst.getD m.toNat 0 : Nat) : Int) + d).toNat } }

/-- Entry shares held at a home changed (R138). -/
def State.addShare (s : State) (home : Nat) (d : Int) : State :=
  { s with budget := { s.budget with shareHeld := s.budget.shareHeld.put 0 home (((s.budget.shareHeld.getD home 0 : Nat) : Int) + d).toNat } }

/-- RESET_DONE with the master in data [7:0] (R92). -/
def resetBeat (w : ReqWord) : Beat :=
  { statusBeat .resetDone w.tag .none 0 with data := w.master.setWidth 512 }

/-- A MASTER_RESET under way waits for a write of its master that stood before it (R107). -/
def PortSt.resetBusy (q : PortSt) (x : Nat × ReqWord) : Bool :=
  let holds := fun (k : Nat) (m : BitVec 8) => k != 0 && decide (k ≤ x.1) && m == x.2.master
  q.queue.any (fun r => holds r.rst r.w.master) || q.onward.any (fun o => holds o.rst o.master)

/-- MASTER_RESETs whose steps 1 to 3 are done at the port are answered with RESET_DONE (R107). -/
def State.finishResets (s : State) (p : Port) : State :=
  let q := s.port p
  (q.resets.filter (fun x => !q.resetBusy x)).foldl (fun a x => a.pushBeat p (resetBeat x.2))
    (s.setPort p { q with resets := q.resets.filter q.resetBusy })

/-- A queue entry freed with its hold space (R250, R257). -/
def State.freeEnt (s : State) (e : Nat) : State :=
  { s with cipher := { s.cipher with ents := SMap.del s.cipher.ents e } }

/-- A queue entry is freed once its last line is released and the last response of its cipher request has entered the FIFO (R250). -/
def State.freeIfDone (s : State) (k : Nat) : State :=
  match SMap.look s.cipher.ents k with
  | none => s
  | some e =>
    if e.segs.isEmpty && e.lastTx.isSome && !(s.port e.port).onward.any (fun o => o.cent == some k && o.op != .writePosted) then s.freeEnt k
    else s

/-- The onward request of a transaction at a port, by its own number or that of a piece. -/
def PortSt.find (q : PortSt) (txid : Nat) : Option Onward :=
  q.onward.find? (fun o => o.txid == txid || o.pieces.any (fun x => x.1 == txid))

/-- An onward request changed. -/
def State.setOnward (s : State) (p : Port) (o : Onward) : State :=
  let q := s.port p
  s.setPort p { q with onward := q.onward.map (fun x => if x.txid = o.txid then o else x) }

/-- An onward request ends: its count, its share and its place are given up (R105, R132, R138), and what waited for its end goes on (R107, R250). -/
def State.endOnward (s : State) (p : Port) (o : Onward) : State :=
  let q := s.port p
  let s1 := s.setPort p { q with onward := q.onward.filter (fun x => x.txid ≠ o.txid) }
  let s2 := s1.addOut o.master (-1)
  let s3 := ((if o.share then s2.addShare o.home (-1) else s2).watch p).finishResets p
  match o.cent with
  | some k => s3.freeIfDone k
  | none => s3

/-- An onward request ends with a beat in place of its reservations; a dropped request's beat is discarded (R104, R107). -/
def State.endWith (s : State) (p : Port) (o : Onward) (b : Beat) : State :=
  (if o.dropped then s else (s.setOnward p { o with reserved := 0 }).pushBeat p b o.addr).endOnward p o

/-- The one beat of a request that fails as a whole: LINE 0, LAST 1 (R92). -/
def State.failOnward (s : State) (p : Port) (o : Onward) (st : Status) (cresp : Cresp) (cstat : Nat) : State :=
  s.endWith p o (statusBeat st o.tag cresp cstat)

/-- A piece of a cipher write is done, or its last one is sent: with none outstanding the request ends (R89, R132, R252). -/
def State.pieceEnd (s : State) (p : Port) (o : Onward) : State :=
  let s1 := s.setOnward p o
  if o.sent && o.pieces.isEmpty then
    (if o.op = .writePosted then s1.endOnward p o else s1.endWith p o (statusBeat o.st o.tag .none o.cstat))
  else s1

/-- A piece's answer or completion notice (R132, R252). -/
def State.pieceDone (s : State) (p : Port) (o : Onward) (txid : Nat) (st : Status) : State :=
  s.pieceEnd p { o with pieces := o.pieces.filter (fun x => x.1 ≠ txid), st := if o.st = .ok then st else o.st }

/-! ### The mailbox -/

/-- A mailbox record's eight words (R110). -/
def mboxWords (r : MboxRec) : List Word :=
  [w16 (r.cause * 256 + r.master.toNat), w16 (r.tile * 4096 + r.tenant.toNat)] ++ three r.addr ++ [w16 r.tag.toNat] ++ two r.frame.toNat

/-- A failed posted write's event 0x0410 and its mailbox record (R109, R110). -/
def State.putFail (s : State) (p : Port) (r : MboxRec) : State :=
  let s1 := s.log1 0x0410 ([w16 p, w16 r.master.toNat, w16 r.tenant.toNat] ++ three r.addr ++ [w16 r.cause])
  let q := s1.port p
  if q.mbox.length < 16 then s1.setPort p { q with mbox := q.mbox ++ [r] }
  else
    let lost := min (q.lost + 1) 255
    (s1.setPort p { q with lost := lost }).log1 0x0411 [w16 p, w16 lost]

/-- A posted write of this tile that failed after it was accepted (R109). -/
def State.postedFail (s : State) (p : Port) (o : Onward) (line cause tile : Nat) : State :=
  s.putFail p ⟨cause, o.master, tile, o.tenant, o.addr + 64 * line, o.tag, BitVec.ofNat 32 s.frame⟩

/-! ### Cipher streams of a port -/

/-- The open stream of a port (R242, R244). -/
def State.stream (s : State) (p k : Nat) : Option (Nat × CEnt) :=
  s.cipher.ents.find? (fun e => e.2.port == p && e.2.stream == k)

/-- Open cipher requests of a slot (R262). -/
def State.slotOpen (s : State) (k : Nat) : Nat := s.cipher.ents.countP (fun e => e.2.slot == k)

/-- Streams of a port closed, their work discarded (R256: flush and MASTER_RESET). -/
def State.closeStreams (s : State) (p : Nat) (m : Option (BitVec 8)) : State :=
  { s with cipher := { s.cipher with ents := s.cipher.ents.filter (fun e =>
      !(e.2.port == p && (match m with | none => true | some x => e.2.master == x))) } }

/-- Onward work of a port that still stood in the cipher lanes is given up: nothing of it was sent to a home (R104, R107). -/
def State.dropCipherWork (s : State) (p : Port) (m : Option (BitVec 8)) : State :=
  s.each ((s.port p).onward.filter (fun o => isWrite o.op && !o.sent
      && (match m with | none => true | some x => o.master == x)))
    (fun a o => if o.pieces.isEmpty then a.endOnward p o else a.setOnward p { o with sent := true })

/-- Reads that a flush or a MASTER_RESET dropped with every line already returned end now (R104, R105, R107). -/
def State.endReturned (s : State) (p : Port) : State :=
  s.each ((s.port p).onward.filter (fun o => o.dropped && o.op == .read && decide (o.lines ≤ o.beats.length))) (fun a o => a.endOnward p o)

/-! ### Flush -/

/-- The key of a line in a caching agent of this tile (R211). -/
def agentKey (a line : Nat) : Nat := 2 ^ 38 * a + line / 64 % 2 ^ 38

/-- The agent of a coherent port becomes dead: its tile sends the notice to every home (R232), drops the snoops that wait for
it (R233), and the agent holds every line in I before its next coherent request. -/
def State.killAgent (s : State) (p : Nat) (c : DeadCause) : State :=
  if coherentPort p then
    let a := p - 20
    ({ s with snoops := s.snoops.filter (fun x => x.s.agent ≠ agentOf s.t p),
              agents := s.agents.filter (fun x => x.1 / 2 ^ 38 ≠ a) }).ring (.deadAgent (agentOf s.t p) c)
  else s

/-- A flush of a port: queue, write buffer, FIFO and reservations empty, cipher work is discarded, XOFF and PANIC clear, and
the onward requests run to their end unseen (R104); a MASTER_RESET under way is superseded (R108). A flush in progress absorbs another (R106); an absorbed disable logs
its own event and withholds the initialisation word. The agent of a coherent port is dead (R232). -/
def State.flushWith (s : State) (p : Port) (cause : Word) (off : Bool) (dead : DeadCause) : State :=
  let q := s.port p
  match q.flush with
  | some _ =>
    if off then (s.setPort p { q with flushOff := true }).log1 0x0404 [w16 p, cause, w16 (q.epoch + 1).toNat] else s
  | none =>
    let s1 := s.dropCipherWork p none
    let s2 := s1.closeStreams p none
    let q2 := s2.port p
    let s3 := s2.setPort p { q2 with queue := [], early := [], fifo := [], xoff := false, resets := [],
                                     onward := q2.onward.map (fun o => { o with dropped := true, reserved := 0 }),
                                     flush := some cause.toNat, flushOff := off }
    (((s3.endReturned p).setPanic p false).log1 0x0404 [w16 p, cause, w16 (q.epoch + 1).toNat]).killAgent p dead

/-- A flush for one of the causes 1 to 4 of event 0x0404 (R113). -/
def State.flushPort (s : State) (p : Port) (cause : Nat) : State := s.flushWith p (w16 cause) (cause == 4) .flushed

/-! ### The access check -/

/-- What the check gives (R118, R119): a refusal with its status, event and entry, or a pass with its flags. -/
inductive Check
  | refuse (st : Status) (code entry : Nat)
  | pass (cipher coherent : Bool)
  deriving DecidableEq, Repr

/-- The master-to-group word (R114). -/
def State.masterWord (s : State) (m : BitVec 8) : Word :=
  if m.toNat < 128 then s.reg 0x3400 (m.toNat + 1) else s.reg 0x3401 (m.toNat - 127)

/-- The key of a master's word. -/
def masterKey (m : Nat) : Nat := if m < 128 then wkey 0x3400 (m + 1) else wkey 0x3401 (m - 127)

/-- A word of the replica awaits its restoration (R127). -/
def State.restoringKey (s : State) (k : Nat) : Bool := s.dict.restoring.contains k

/-- An entry has a failed word (R127). -/
def State.entryFailed (s : State) (e : Nat) : Bool :=
  s.dict.restoring.any (fun k => decide (wkey (0x3200 + e) 1 ≤ k) && decide (k ≤ wkey (0x3200 + e) 8))

/-- The number of lines of a cipher request (R242). -/
def linesOf (len : Nat) : Nat := ceilDiv len 64

/-- MODE, DU_CODE and LEN lie within R245, as does the tail of an XTS range and of a GCM IV. -/
def CDesc.inRange (d : CDesc) : Bool :=
  let l := d.len.toNat
  let unit := 2 ^ (d.du.toNat + 9)
  if d.mode = 1 ∨ d.mode = 2 then
    decide (d.du.toNat < 8) && decide (16 ≤ l) && decide (l ≤ 65536) && (l % unit == 0 || decide (16 ≤ l % unit))
  else if d.mode = 3 then
    d.du == 0 && decide (1 ≤ l) && decide (l ≤ 65536) && d.iv.extractLsb' 96 32 == 0
  else if d.mode = 4 then d.du == 0 && decide (1 ≤ l) && decide (l ≤ 65536)
  else false

/-- The descriptor is valid (R244); on a stream marked failed only the stream and its direction are checked (R257). -/
def State.descValid (s : State) (p : Nat) (op : Op) (w : ReqWord) : Bool :=
  match w.desc with
  | none => false
  | some d =>
    d.cv &&
    (match s.stream p d.stream.toNat with
     | none =>
       let n := linesOf d.len.toNat
       !w.spec && d.first && d.inRange && (d.dir == (op == .read)) && (op == .read || op == .writePosted || op == .writeAck) &&
         decide (w.count ≤ n) && (d.last == (w.count == n)) &&
         !(d.last && d.mode == 3 && !d.dir && op != .writeAck)
     | some (_, e) =>
       let n := linesOf e.len
       !d.first && (e.dir == (op == .read)) && (op == .read || op == .writePosted || op == .writeAck) &&
         (e.failed.isSome ||
          (!w.spec && (w.byteAddr == e.addr + 64 * e.next) && decide (e.next + w.count ≤ n) && (d.last == (e.next + w.count == n)) &&
           !(d.last && e.mode == .gcm && !e.dir && op != .writeAck))))

/-- The rights check on a matching entry or the default map (R119, R120): failing steps 1 to 7 give event 0x0504, step 8
event 0x0505. -/
def rightsCheck (priv spec : Bool) (op : Op) (group : Nat) (cohOk : Bool) (rd wr flags : Word) (valid : Bool) (e : Nat) : Check :=
  let gr := bit rd group
  let gw := bit wr group
  if bit flags 11 && !priv then .refuse .accessFault 0x0504 e
  else if spec && bit flags 10 then .refuse .accessFault 0x0504 e
  else if (op == .read || op == .rdShared) && !gr then .refuse .accessFault 0x0504 e
  else if (op == .writePosted || op == .writeAck) && !gw then .refuse .accessFault 0x0504 e
  else if (op == .rdUnique || op == .upgrade) && !(gr && gw) then .refuse .accessFault 0x0504 e
  else if isCoherent op && !(bit flags 13 && cohOk) then .refuse .accessFault 0x0504 e
  else if bit flags 14 && !valid then .refuse .accessFault 0x0505 e
  else .pass (bit flags 14) (bit flags 13)

/-- A word of the access group as it was last written (R127). -/
def State.knownReg (s : State) (i x : Nat) : Word := (s.dict.known.look (wkey i x)).getD (wordDefault s.ident.n i x)

/-- Entry e matches a page and a tenant (R118); one with a failed word matches its range as last written, for every tenant (R127; log entry 64). -/
def State.entryMatches (s : State) (e page : Nat) (tenant : BitVec 12) : Bool :=
  let r := fun (x : Nat) => if s.entryFailed e then s.knownReg (0x3200 + e) x else s.reg (0x3200 + e) x
  let two_ := fun (x : Nat) => ofWords [r x, r (x + 1)]
  decide (two_ 1 ≤ page) && decide (page ≤ two_ 3) && (s.entryFailed e || (bit (r 7) 15 && (!bit (r 7) 12 || r 8 == tenant.setWidth 16)))

/-- The access check (R118). MASTER_RESET is checked for ENABLE of its master alone. DESIGN CHOICE: a DEFAULT_MAP word that failed parity decides as it stands until
it is restored, since R127 names entries and master words (log entry 72). -/
def State.check (s : State) (p : Nat) (op : Op) (w : ReqWord) : Check :=
  let mw := s.masterWord w.master
  let enabled := bit mw 15 && !s.restoringKey (masterKey w.master.toNat)
  if op = .masterReset then (if enabled then .pass false false else .refuse .accessFault 0x0502 0xFFFF)
  else if s.map.mapEnd ≤ w.byteAddr then .refuse .addrFault 0x0503 0xFFFF
  else if !enabled then .refuse .accessFault 0x0502 0xFFFF
  else
    let priv := w.priv && bit mw 14
    let page := w.addr.toNat / 64
    let g := fld mw 3 0
    match (List.range 512).find? (fun e => s.entryMatches e page w.tenant) with
    | some e =>
      if s.entryFailed e then .refuse .accessFault 0x0504 e
      else rightsCheck priv w.spec op g (bit mw 13) (s.reg (0x3200 + e) 5) (s.reg (0x3200 + e) 6) (s.reg (0x3200 + e) 7)
        (s.descValid p op w) e
    | none =>
      let d := s.reg 0x3402 1
      if priv && bit d 15 then
        rightsCheck priv w.spec op g (bit mw 13) 0xFFFF (if bit d 14 then 0xFFFF else 0)
          (if bit d 13 then 0x2000 else 0) true 0xFFFF
      else .refuse .accessFault 0x0501 0xFFFF

/-- A page is coherent for a tenant under the applied group (R126): the entry that would match first, else the default map. -/
def State.cohFor (s : State) (es : List Nat) (page : Nat) (tenant : BitVec 12) : Bool :=
  match es.find? (fun e => s.entryMatches e page tenant) with
  | some e => bit (s.reg (0x3200 + e) 7) 13
  | none => bit (s.reg 0x3402 1) 15 && bit (s.reg 0x3402 1) 13

/-- The tenant and the master of a coherent request still have its line coherent (R126): a copy granted under an earlier group is recalled else. -/
def State.stillCoherent (s : State) (r : HReq) : Bool :=
  s.cohFor (List.range 512) (r.addr / 4096) r.tenant && bit (s.masterWord r.master) 13

/-- The four responses that carry data (R214). -/
def crespData : Cresp → Bool
  | .dataS => true | .dataE => true | .dataM => true | .dataO => true
  | .none => false | .ack => false | .retry => false | .poison => false | .partition => false

/-- A refusal counted and logged, at most once a code and port in a frame, those held back carried as a count in the next event of that code and port
(R122, R405; log entry 64). -/
def State.logAccess (s : State) (p : Port) (op : Op) (w : ReqWord) (code entry : Nat) : State :=
  (s.count 0x3403 5).logLim code p 1 1 (fun held =>
    [w16 p, w16 w.master.toNat, w16 w.tenant.toNat] ++ two (w.addr.toNat / 64) ++ [w16 (opCode op), w16 entry, sat16 held])

/-! ### Homes -/

/-- A place lies in a unit of this tile's stack that is retired (R312, R314). -/
def State.ownRetired (s : State) (pl : Place) : Bool :=
  s.repair.stackRetired || (s.pc pl.pc).retired || (s.pc pl.pc).rbanks.contains pl.bank

/-- A tile-local line of a tile lies in a retired unit, as this tile knows it (R199, R313). -/
def State.retiredAt (s : State) (u loc : Nat) : Bool :=
  let pl := s.map.placeIn u loc
  if u = s.t then s.ownRetired pl
  else s.repair.others.any (fun r => r.1 == u &&
    (r.2.1 == 2 || (r.2.1 == 1 && r.2.2.1 == pl.pc) || (r.2.1 == 0 && r.2.2.1 == pl.pc && r.2.2.2 == pl.bank)))

/-- A tile back in the package has taken its lines of a Seam row back from their stand-ins (R323). -/
def State.tookBack (s : State) (u loc : Nat) : Bool := s.seam.taking.contains u && s.seam.backRows.contains ((loc - s.map.ord) / 4096)

/-- A stack is lost for a Seam line (R199, R323). -/
def State.lostAt (s : State) (u loc : Nat) : Bool := bit s.seam.lost u && !s.tookBack u loc

/-- The tile that serves a request of so many lines (R47, R199, R201, R315): its home, which passes on those that are gone there, or where all are gone
the parity or mirror tile that stands in. -/
def State.serves (s : State) (addr lines : Nat) : Nat :=
  let h := s.map.home addr
  let gone := fun (i : Nat) => let l := (s.map.home (addr + 64 * i)).loc
                               s.retiredAt h.tile l || s.lostAt h.tile l
  match h.parity with
  | none => h.tile
  | some q => if (List.range lines).all gone then q else h.tile

/-- The tile that serves a line. -/
def State.serving (s : State) (addr : Nat) : Nat := s.serves addr 1

/-- A line of a request is still in the cipher lanes for an earlier request of its port (R252). -/
def State.inLanes (s : State) (p : Nat) (w : ReqWord) : Bool :=
  s.cipher.ents.any (fun e => e.2.port == p && e.2.lns.any (fun l =>
    let a := e.2.addr + 64 * l.idx
    !(if e.2.dir then l.released else l.sent) && decide (w.byteAddr ≤ a) && decide (a < w.byteAddr + 64 * w.count)))

/-- A row of the package awaits its resynchronisation (R204). -/
def State.awaits (s : State) (j : Nat) : Bool :=
  s.seam.resyncing && (s.seam.listedAll || s.seam.listed.contains j) && !s.seam.rowsDone.contains j

/-- A tile is across a declared split (R326). -/
def State.across (s : State) (u : Nat) : Bool := s.repair.split.isSome && !bit s.repair.arc u

end Sys2Proof.Machine
end

