-- ==== Sys2Proof/Machine/FaultOps.lean ====
section
/-!
DEFINITION. What every family shares of faults and repair: answers from the home (R92), self-refresh (R74), the fence
(R318), and the detection of a fault and the rung it begins at (R304, R305).
-/
namespace Sys2Proof.Machine
open Sys2Proof

/-! ### Answers of the home -/

/-- A response from the home to a request's entry tile (R92, R214). -/
def State.answer (s : State) (r : HReq) (lines : List LineAns) (cresp : Cresp) : State :=
  s.sendResponse r.tile { port := r.port, txid := r.txid, cresp := cresp, lines := lines }

/-- A line's answer without data (R91: data reads zero under every status but OK). -/
def noData (line : Nat) (st : Status) : LineAns := ⟨line, st, false, 0⟩

/-- A posted write failed at its home, or at the parity or mirror tile of its line (R109): its record goes to the mailbox of the entry tile's port. -/
def State.answerPosted (s : State) (r : HReq) (line cause : Nat) : State :=
  let addr := r.addr + 64 * (line - r.first)
  let at_ := if cause = 2 then (s.map.home addr).parity.getD s.t else s.t
  let m : MboxRec := ⟨cause, r.master, at_, r.tenant, addr, r.tag, BitVec.ofNat 32 s.frame⟩
  if r.tile = s.t then s.putFail r.port m
  else s.sendResponse r.tile { port := r.port, txid := r.txid, cresp := .none, lines := [], failed := some m }

/-- A retired line addressed, counted and logged (R314). -/
def State.retiredHit (s : State) (addr : Nat) (op : Op) : State :=
  (s.count 0x7821 5).logLim 0x0E14 0 1 1 (fun held => three addr ++ [w16 (opCode op), sat16 held])

/-- A request to ordinary lines of a retired unit (R314). A failed posted write names cause 1, or 3 where the tile is fenced. -/
def State.answerRetired (s : State) (r : HReq) (idxs : List Nat) (addr : Nat) : State :=
  let s1 := s.retiredHit addr r.op
  match r.op with
  | .read => s1.answer r (idxs.map (fun i => noData i .poison)) .none
  | .rdShared => s1.answer r [noData 0 .poison] .poison
  | .rdUnique => s1.answer r [noData 0 .poison] .poison
  | .upgrade => s1.answer r [noData 0 .poison] .poison
  | .writeAck => s1.answer r [noData 0 .poison] .none
  | .writePosted => idxs.foldl (fun a i => a.answerPosted r i (if s.repair.fenced.isSome then 3 else 1)) s1
  | .wrBack => s1.answer r [noData 0 .ok] .ack
  | .masterReset => s1

/-! ### Self-refresh -/

/-- A pseudo-channel's command path answers (R317). DESIGN CHOICE: one that returns no read data does not (log entry 72). -/
def PcSt.answers (q : PcSt) : Bool := q.noData.isNone

/-- The stack enters self-refresh: pseudo-channels in service are told, in a retired stack those that answer (R317), and no refresh of theirs is pending (R74). -/
def State.selfRefresh (s : State) : State :=
  if s.store.selfRef then s
  else
    let s1 := s.each (allPcs.filter (fun c => !(s.pc c).retired && (!s.repair.stackRetired || (s.pc c).answers))) (fun a c => a.emit (.stack c s.clk.now .srEnter))
    { s1 with store := { s1.store with selfRef := true },
              pcs := s1.pcs.mapVals (fun _ q => { q with forced := [], refab := false, refpb := 0, opp := 0, drain := q.drain }) }

/-- The stack leaves self-refresh: every debt is 0 and a new schedule of refreshes begins (R71, R74). -/
def State.leaveSelfRefresh (s : State) : State :=
  let s1 := s.each (if s.store.selfRef then allPcs.filter (fun c => !(s.pc c).retired) else [])
    (fun a c => a.emit (.stack c s.clk.now .srExit))
  { s1 with store := { s1.store with selfRef := false },
            anvil := { s1.anvil with refRef := s1.clk.now },
            pcs := s1.pcs.mapVals (fun _ q => { q with debts := [], lastAcc := [], forced := [] }) }

/-- Every key slot emptied (R260). -/
def State.emptySlots (s : State) : State := { s with cipher := { s.cipher with slots := [], badSlots := [] } }

/-! ### The fence -/

/-- The interruption of a fault measured at its recovery's close (R309): from the tick after detection; beyond its bound event 0x0E12. -/
def State.measureBound (s : State) (r : Recov) : State :=
  let k := s.frame - (r.found.toNat + 1)
  let bound := if r.behind then 64 else 32
  let s1 := { s with repair := { s.repair with longest := max s.repair.longest (min k 0xFFFF) } }
  if bound < k then ({ s1 with repair := { s1.repair with bound := satAdd16 s1.repair.bound 1 } }).log1 0x0E12 [Config.unitCode r.u, sat16 k]
  else s1

/-- What a recovery still has queued of its rows leaves the queues with it (R311). -/
def State.dropRowParts (s : State) : State := { s with sched := { s.sched with parts := s.sched.parts.filter (fun p => p.origin != .row) } }

/-- An open recovery closes, its units returning with their idle timers anew, as its unit is removed (R167, R308); it counts as closed (R309, R336). -/
def State.closeRecovery (s : State) (res : RecResult) : State :=
  match s.repair.recov with
  | some r =>
    (((({ s with repair := { s.repair with recov := none },
                 pcs := s.pcs.mapVals (fun _ q => { q with recov := false, idleFrom := if q.recov then max q.idleFrom s.clk.now else q.idleFrom }) }).dropRowParts).count
                    0x7821 1).measureBound r).log1 0x0E04
        [w16 r.rung, Config.unitCode r.u, sat16 (s.frame - r.opened.toNat), Config.resultCode res]
  | none => s

/-- A tile fences itself: no command to its stack, ports shut, key slots empty, alert low, event 0x0E0B (R318); cipher work
not yet released is discarded (R261) and an open recovery is abandoned, which closes it (R308, R322). -/
def State.fenceTile (s : State) (c : FenceCause) : State :=
  if s.repair.fenced.isSome then s
  else
    let s1 := ((s.closeRecovery .abandoned).selfRefresh).emptySlots
    let s2 := { s1 with
      repair := { s1.repair with fenced := some c, waiting := [] },
      pins := { s1.pins with alertLow := true },
      cipher := { s1.cipher with ents := [] } }
    s2.log1 0x0E0B [Config.fenceCode c]

/-! ### Fault detection -/

/-- The number of a fault class (R336). -/
def classNo : FClass → Nat
  | .lane => 0 | .calibration => 1 | .row => 2 | .bank => 3 | .pc => 4 | .stack => 5 | .tile => 6 | .link => 7 | .reference => 8

/-- A detected fault counted and logged (R304, R336); faults of a pseudo-channel count there too (R335). -/
def State.fault (s : State) (c : FClass) (u : RUnit) : State :=
  let s1 := (s.count 0x7820 (4 * classNo c + 1)).log1 0x0E02 [w16 (classNo c), Config.unitCode u]
  if classNo c ≤ 4 then s1.setPc u.pc { s1.pc u.pc with faults := satAdd16 (s1.pc u.pc).faults 1 } else s1

/-- A rung's action due at the next tick (R308). -/
def State.dueAct (s : State) (a : RungAct) : State := { s with repair := { s.repair with due := s.repair.due ++ [a] } }

/-- Event 0x0E01: a move up the ladder for want of a spare (R305). -/
def State.rungUp (s : State) (u : RUnit) (a b : Nat) : State := s.log1 0x0E01 [Config.unitCode u, w16 a, w16 b]

/-- Pseudo-channels retired (R333). -/
def State.retiredPcs (s : State) : Nat := allPcs.countP (fun c => (s.pc c).retired)

/-- A stack fault: rung 5 (R304). -/
def State.stackFault (s : State) (u : RUnit) (c : FClass) : State :=
  if s.repair.stackRetired then s else (s.fault .stack u).dueAct (.stack c)

/-- A pseudo-channel fault: rung 4, or rung 5 where RETIRE_PC_LIMIT are retired (R304, R305). -/
def State.pcFault (s : State) (u : RUnit) (c : FClass) : State :=
  if (s.pc u.pc).retired then s
  else
    let s1 := s.fault .pc u
    if (s.reg 0x7800 7).toNat ≤ s.retiredPcs then (s1.rungUp u 4 5).stackFault u .stack
    else s1.dueAct (.pc u.pc c)

/-- A bank fault: rung 3, or rung 4 where RETIRE_BANK_LIMIT of its banks are retired (R304, R305). -/
def State.bankFault (s : State) (u : RUnit) : State :=
  if (s.pc u.pc).rbanks.contains u.bank then s
  else
    let s1 := s.fault .bank u
    if (s.reg 0x7800 6).toNat ≤ (s.pc u.pc).rbanks.length then (s1.rungUp u 3 4).pcFault u .pc
    else s1.dueAct (.bank u.pc u.bank)

/-- Repair rows left in a bank's group (R305): spares are declared a bank group. -/
def State.rowSpares (s : State) (pc bank : Nat) : Nat := (s.pc pc).rowSp.getD (bank / 4) 0

/-- Two faults wait on one unit: rung 1 on a group, rung 2 on a pseudo-channel (R305, R307). -/
def sameUnit (a b : FaultW) : Bool := a.rung == b.rung && (if a.rung = 1 then a.u.pc / 4 == b.u.pc / 4 else a.u.pc == b.u.pc)

/-- A fault joins one that waits on its unit (R307): its lanes and rows are handled with it. -/
def FaultW.joined (a b : FaultW) : FaultW := { a with lanes := a.lanes ++ b.lanes, rows := (a.rows ++ b.rows).eraseDups }

/-- A fault waits for a recovery, in the order of detection, and of pseudo-channels within a cycle; a second one on a waiting unit joins it and is handled
with it (R307). Lane 63 stands for none. -/
def State.await (s : State) (rung : Nat) (u : RUnit) (c : FClass) : State :=
  let ls := if rung = 1 ∧ u.lane < 36 then [(u.pc, u.lane)] else []
  let w : FaultW := { rung := rung, u := u, cls := c, found := s.anvil.frameNo, behind := s.repair.recov.isSome, lanes := ls,
                      at_ := s.clk.now, rows := if rung = 2 then [(u.bank, u.row)] else [] }
  if s.repair.waiting.any (fun x => sameUnit x w) then
    { s with repair := { s.repair with waiting := s.repair.waiting.map (fun x => if sameUnit x w then x.joined w else x) } }
  else
    let i := s.repair.waiting.findIdx (fun x => x.at_ == w.at_ && !x.again && decide (w.u.pc < x.u.pc))
    { s with repair := { s.repair with waiting := s.repair.waiting.take i ++ [w] ++ s.repair.waiting.drop i } }

/-- A row fault: rung 2, or rung 3 with no repair row left (R304, R305). -/
def State.rowFault (s : State) (pc bank row : Nat) : State :=
  let u : RUnit := ⟨pc, bank, row, 0⟩
  let s1 := s.fault .row u
  if s.rowSpares pc bank = 0 then (s1.rungUp u 2 3).bankFault u else s1.await 2 u .row

/-- A lane fault: the lane is marked at the next tick while fewer than two are, and rung 1 waits; a third lane with no
repair lane left is a pseudo-channel fault (R304-R306). -/
def State.laneFault (s : State) (pc lane : Nat) : State :=
  let u : RUnit := ⟨pc, 0, 0, lane⟩
  let q := s.pc pc
  let marks := markedLanes (q.marksDue.getD q.marks)
  if marks.contains lane then s
  else
    let s1 := s.fault .lane u
    if 2 ≤ marks.length ∧ q.spLeft = 0 then (s1.rungUp u 1 4).pcFault u .lane
    else
      let w := q.marksDue.getD q.marks
      let w' := if marks.length = 0 then w16 (0x4000 + lane) else if marks.length = 1 then w ||| w16 (0x8000 + 64 * lane) else w
      let s2 := if marks.length < 2 then s1.setPc pc { s1.pc pc with marksDue := some w' } else s1
      s2.await 1 u .lane

/-- A calibration fault of a group: rung 1 with no lane to spare; 63 stands for no lane (R283, R304). -/
def State.calFault (s : State) (g : Nat) : State :=
  let u : RUnit := ⟨4 * g, 0, 0, 63⟩
  (s.fault .calibration u).await 1 u .calibration

/-- A tile fault (R304): counted and logged with the tile, which is fenced at the tick after (R308, R318). -/
def State.tileFault (s : State) (c : FenceCause) : State :=
  if s.repair.fenced.isSome ∨ s.repair.due.contains (.fence c) then s else (s.fault .tile ⟨s.t, 0, 0, 0⟩).dueAct (.fence c)

/-! ### The repair map -/

/-- A repair entered in the map; its write is pending until the anchor has written it (R330). Across a split it waits for the heal. -/
def State.addMap (s : State) (kind pc bl d : Nat) : State :=
  let e : MapEnt := ⟨kind, s.t, pc, bl, d⟩
  let s1 := { s with repair := { s.repair with map := s.repair.map ++ [e], mapDue := true } }
  if s.isAnchor || s.across s.repair.anchor then s1 else s1.ring (.repairEntries [e])

end Sys2Proof.Machine
end

