-- ==== Sys2Proof/Machine/CipherOps.lean ====
section
/-!
DEFINITION. The cipher lanes' shared operations: pairs in service (R251, R254), the lines of a cipher request (R246-R249),
their release (R252), failure and abort (R256-R258), and the close of a stream (R250, R257).
-/
namespace Sys2Proof.Machine
open Sys2Proof

/-- A queue entry changed. -/
def State.setEnt (s : State) (k : Nat) (e : CEnt) : State :=
  { s with cipher := { s.cipher with ents := s.cipher.ents.set k e } }

/-- Event words of R256: port, master, tenant, STREAM, slot and the address in three words. -/
def CEnt.words (e : CEnt) : List Word :=
  [w16 e.port, w16 e.master.toNat, w16 e.tenant.toNat, w16 e.stream, w16 e.slot] ++ three e.addr

/-- The mode of a MODE code (R245). -/
def modeOf (m : BitVec 3) : CMode := if m = 1 then .xts128 else if m = 2 then .xts256 else if m = 3 then .gcm else .ctr
/-- The code of a mode (R245). -/
def modeCode : CMode → Nat | .xts128 => 1 | .xts256 => 2 | .gcm => 3 | .ctr => 4
/-- The key kind a mode needs (R245). -/
def modeKind : CMode → Nat | .xts128 => 1 | .xts256 => 2 | .gcm => 3 | .ctr => 3

/-- Pair p is in service: its half is powered and it is not fenced (R254, R255). -/
def State.pairOn (s : State) (p : Nat) : Bool := (if p < 24 then s.dom 8 else s.dom 9) && !bit s.cipher.fenced p
/-- The lowest-numbered pair in service of a list. -/
def State.pickPair (s : State) (l : List Nat) : Option Nat := l.find? (fun p => s.pairOn p)
/-- Pair p is in service and free (R251). -/
def State.pairFree (s : State) (p : Nat) : Bool := s.pairOn p && decide (s.cipher.busy.getD p 0 ≤ s.clk.now)

/-- The lowest-numbered free pair in service of a list; with every one occupied the lowest in service takes it next (log entry 28). -/
def State.nextPair (s : State) (l : List Nat) : Option Nat := match l.find? (fun p => s.pairFree p) with
  | some p => some p
  | none => s.pickPair l

/-- The pair a recomputation goes to: the other half first (R254). -/
def State.otherPair (s : State) (p : Nat) : Option Nat :=
  let half := fun h => (List.range 24).map (fun k => k + 24 * h)
  match s.nextPair (half (if p < 24 then 1 else 0)) with
  | some q => some q
  | none => s.nextPair ((half (if p < 24 then 0 else 1)).filter (fun q => q ≠ p))

/-- The segment of entry k at line `first` goes to a pair, which it occupies for 4 cycles a line (R251). -/
def State.runSeg (s : State) (k first p : Nat) (failedOn : Option Nat) : State :=
  match SMap.look s.cipher.ents k with
  | none => s
  | some e =>
    let lines := match e.segs.find? (fun g => g.first == first) with
      | some g => g.count
      | none => 0
    let s1 := s.setEnt k { e with segs := e.segs.map (fun g => if g.first = first then { g with pair := some p, failedOn := failedOn } else g) }
    { s1 with cipher := { s1.cipher with busy := s1.cipher.busy.set p (max s.clk.now (s.cipher.busy.getD p 0) + 4 * lines) } }

/-- Key bytes of a slot (R262). -/
def Slot.bytes (k : Slot) (from_ n : Nat) : List Byte := (bytesOf 64 k.key.toNat).drop from_ |>.take n
/-- Key1, or the kind-3 key. -/
def Slot.key1 (k : Slot) : List Byte := k.bytes 0 (if k.kind = 1 then 16 else 32)
/-- Key2 of the XTS kinds. -/
def Slot.key2 (k : Slot) : List Byte := if k.kind = 1 then k.bytes 16 16 else k.bytes 32 32

/-- Byte b of the range as received (R249). -/
def CEnt.inByte (e : CEnt) (b : Nat) : Byte :=
  match e.lns.find? (fun l => l.idx == b / 64) with
  | some l => lineByte l.d.data (b % 64)
  | none => 0

/-- Block i of the range as it leaves the lanes (R246-R248). -/
def CEnt.outBlock (e : CEnt) (k : Slot) (i : Nat) : List Byte :=
  match e.mode with
  | .gcm => xorBytes (rangeBlock e.inByte e.len i) (gcmStream k.key1 e.iv i)
  | .ctr => xorBytes (rangeBlock e.inByte e.len i) (ctrStream k.key1 e.iv i)
  | .xts128 => xtsOut e.dir k.key1 k.key2 e.iv (2 ^ (e.du + 9)) e.len e.inByte i
  | .xts256 => xtsOut e.dir k.key1 k.key2 e.iv (2 ^ (e.du + 9)) e.len e.inByte i

/-- Line k of the range as it leaves the lanes; bytes at LEN and beyond are 0 (R249). -/
def CEnt.outLine (e : CEnt) (sl : Slot) (k : Nat) : Line :=
  let bs := ((List.range 4).filter (fun j => decide (64 * k + 16 * j < e.len))).map (fun j =>
    let b := e.outBlock sl (4 * k + j)
    b ++ List.replicate (16 - b.length) 0)
  lineOfBytes bs.flatten

/-- First byte of the last XTS data unit (R246). -/
def CEnt.lastUnit (e : CEnt) : Nat := 2 ^ (e.du + 9) * ((e.len - 1) / 2 ^ (e.du + 9))

/-- A line holds part of the last 32 bytes of an XTS unit that uses stealing (R252): those that lie in the last unit. -/
def CEnt.stolen (e : CEnt) (k : Nat) : Bool :=
  (e.mode == .xts128 || e.mode == .xts256) && e.len % 16 != 0 && decide (max e.lastUnit (e.len - 32) / 64 ≤ k)

/-- The tag of the cipher request over its ciphertext (R247). -/
def CEnt.tagOf (e : CEnt) (sl : Slot) : BitVec 128 :=
  if e.dir then
    gcmTag sl.key1 e.iv e.len (fun b => match e.lns.find? (fun l => l.idx == b / 64) with
      | some l => lineByte l.out.data (b % 64)
      | none => 0)
  else gcmTag sl.key1 e.iv e.len e.inByte

/-- A line's poison as it leaves the lanes (R258). -/
def CEnt.poisonOut (e : CEnt) (k : Nat) : Bool :=
  let bad := fun j => e.lns.any (fun l => l.idx == j && l.d.poison)
  match e.mode with
  | .gcm => if e.dir then (List.range (k + 1)).any bad else e.poisoned
  | .ctr => bad k
  | .xts128 => bad k || (e.stolen k && e.lns.any (fun l => e.stolen l.idx && l.d.poison))
  | .xts256 => bad k || (e.stolen k && e.lns.any (fun l => e.stolen l.idx && l.d.poison))

/-- The request that goes to the home for an onward request (R15). -/
def Onward.toHome (o : Onward) (tile : Nat) (p : Port) (data : List PLine) : HReq :=
  { tile := tile, port := p, txid := o.txid, op := o.op, lines := o.lines, tenant := o.tenant, master := o.master, tag := o.tag,
    addr := o.addr, cls := o.cls, demoted := o.demoted, promoted := o.promoted, age := o.age, coherent := o.coherent, dirty := false, rage := 0,
    data := data }

/-- Settled lines of a cipher write, from line `first` on, go to their home (R251, R252; log entry 15): the whole request at once, or a piece of it
under a number of its own. A home that has since come to lie across a split or was fostered ends them here (R109, R236, R320). -/
def State.sendCipherWrite (s : State) (p : Port) (o : Onward) (first : Nat) (data : List PLine) (final : Bool) (cstat : Nat) (st : Status) : State :=
  let home := s.serves o.addr o.lines
  let gone := home ≠ s.t ∧ !bit s.repair.view home
  let o1 := { o with sent := final, cstat := if final then cstat else o.cstat, st := if st = .ok then o.st else st }
  if s.across home ∨ gone then
    if o.op = .writePosted then
      ((List.range (if st = .ok then data.length else 0)).foldl (fun a k => a.postedFail p o (first + k) (if gone then 3 else 6) s.t) s).pieceEnd p o1
    else s.pieceEnd p { o1 with st := if o1.st = .ok then (if gone then .poison else .partition) else o1.st }
  else
    let s1 := if o.share ∧ home ≠ o.home then (s.addShare o.home (-1)).addShare home 1 else s
    if first = 0 ∧ final then (s1.setOnward p { o1 with home := home }).sendRequest home (o.toHome s.t p data)
    else
      let txid := s1.sched.txid + 1
      (({ s1 with sched := { s1.sched with txid := txid } }).setOnward p
        { o1 with home := home, pieces := o.pieces ++ [(txid, first, data.length)] }).sendRequest home
          { o.toHome s.t p data with txid := txid, addr := o.addr + 64 * first, lines := data.length }

/-- The CSTAT that failure codes give (R259): the code itself; an entry without failure gives 0 or, at its end, 1 or 3. -/
def CEnt.cstat (e : CEnt) (final : Bool) : Nat :=
  match e.failed with
  | some c => if final || (e.mode == .gcm && !e.dir) || c = 6 then c else 0
  | none => if final || (e.mode == .gcm && !e.dir) then (if e.mode == .gcm && e.poisoned then 3 else 1) else 0

/-- Beats of a read's newly released lines, in line order (R252, R259). -/
def State.cipherBeat (s : State) (p : Port) (o : Onward) (e : CEnt) (first : Nat) (k : Nat) (st : Status) (tag : BitVec 128) : State :=
  match e.lns.find? (fun l => l.idx == k) with
  | none => s
  | some l =>
    let lastOfReq := k + 1 == first + o.lines
    let final := lastOfReq && e.lastTx == some o.txid
    let s1 := s.setOnward p { o with reserved := o.reserved - 1 }
    let b : Beat := { status := st, line := k - first, last := lastOfReq, corrected := l.corr && st == .ok, tag := o.tag, cresp := .none,
                      data := if st = .ok then l.out.data else 0, cstat := e.cstat final,
                      ctag := if final && st = .ok then tag else 0 }
    let s2 := if o.dropped then s1 else s1.pushBeat p b o.addr
    if lastOfReq then
      match (s2.port p).find o.txid with
      | some o2 => s2.endOnward p o2
      | none => s2
    else s2

/-- Bytes of line k that lie in the range. -/
def CEnt.lineLen (e : CEnt) (k : Nat) : Nat := min 64 (e.len - 64 * k)

/-- Status of a line of a failed stream (R256): KEY_EMPTY, CIPHER_FAIL; a free status for an aborted read beat. -/
def State.failStatus (s : State) (code : Nat) (dir : Bool) : Status :=
  if code = 5 then .keyEmpty else if code = 4 then .cipherFail else if dir then Config.freeStatus s.freeCount else .ok

/-- Released lines of a write leave the lanes for their home in line order (R252), and each line of a posted write that met KEY_EMPTY or CIPHER_FAIL
makes its record (R109, R256). -/
def State.leaveSeg (s : State) (k : Nat) (g : Seg) : State :=
  match SMap.look s.cipher.ents k with
  | none => s
  | some e =>
    if h : e.port < 32 then
      let p : Port := ⟨e.port, h⟩
      match (s.port p).find g.txid with
      | none => s
      | some o =>
        let at_ := fun (j : Nat) => e.lns.find? (fun l => l.idx == g.first + j)
        let sent := (List.range g.count).countP (fun j => match at_ j with | some l => l.sent | none => false)
        let ls := (((List.range g.count).drop sent).takeWhile (fun j => match at_ j with | some l => l.released | none => false)).filterMap at_
        if e.dir || ls.isEmpty then s
        else
          let c := e.failed.getD 0
          let mine := fun (l : CLn) => decide (g.first + sent ≤ l.idx) && decide (l.idx < g.first + sent + ls.length)
          let s1 := s.setEnt k { e with lns := e.lns.map (fun l => if mine l then { l with sent := true } else l) }
          let s2 := s1.sendCipherWrite p o sent (ls.map (fun l => l.out)) (sent + ls.length == g.count) (e.cstat (e.lastTx == some g.txid))
            (if c = 5 then .keyEmpty else if c = 4 then .cipherFail else .ok)
          if o.op = .writePosted ∧ (c = 5 ∨ c = 4) then
            (ls.filter (fun l => l.failed)).foldl (fun a l => a.postedFail p o (l.idx - g.first) c a.t) s2
          else s2
    else s

/-- A stream closes (R257): its entry is freed, and reads of it still at their homes keep the failure's outcome; 256 stands
for no entry. -/
def State.closeStream (s : State) (k : Nat) : State :=
  match SMap.look s.cipher.ents k with
  | none => s
  | some e =>
    let q := s.port e.port
    let code := e.failed.getD 6
    let st := s.failStatus code true
    ((s.setPort e.port { q with onward := q.onward.map (fun o =>
      if o.cent = some k ∧ isRead o.op then { o with cent := some 256, st := st, cstat := e.cstat (e.lastTx == some o.txid) } else o) }).draw).freeEnt k

/-- Lines settled are sent, segments wholly settled come off the entry's list, and the entry is freed at its end: a stream marked failed closes with
its LAST request (R257), another once its last response has entered the FIFO (R250). -/
def State.settleEnt (s : State) (k : Nat) : State :=
  match SMap.look s.cipher.ents k with
  | none => s
  | some e =>
    let s1 := e.segs.foldl (fun a g => a.leaveSeg k g) s
    match SMap.look s1.cipher.ents k with
    | none => s1
    | some e1 =>
      let done := fun (g : Seg) => (List.range g.count).all (fun j => e1.lns.any (fun l => l.idx == g.first + j && l.released))
      let s2 := s1.setEnt k { e1 with segs := e1.segs.filter (fun g => !done g) }
      if e1.failed.isSome && e1.lastTx.isSome then s2.closeStream k else s2.freeIfDone k

/-- A line released: its output, its bytes counted (R265), and for a read its beat. -/
def State.releaseLine (s : State) (k : Nat) (idx : Nat) : State :=
  match SMap.look s.cipher.ents k with
  | none => s
  | some e =>
    match e.lns.find? (fun l => l.idx == idx) with
    | none => s
    | some l =>
      let sl := s.slot e.slot
      let bad := e.poisonOut idx
      let out : PLine := if bad then ⟨l.d.data, true⟩ else ⟨e.outLine sl idx, false⟩
      let e1 := { e with lns := e.lns.map (fun x => if x.idx = idx then { x with out := out, released := true } else x),
                         poisoned := e.poisoned || (bad && e.mode == .gcm) }
      let s1 := (s.setEnt k e1).count 0x6402 5 (if bad then 0 else e.lineLen idx)
      if h : e.port < 32 then
        if e.dir then
          let p : Port := ⟨e.port, h⟩
          match (s1.port p).find l.txid, e1.segs.find? (fun g => g.txid == l.txid) with
          | some o, some g =>
            let tag := if e.mode == .gcm && idx + 1 == linesOf e.len && !e1.poisoned then e1.tagOf sl else 0
            s1.cipherBeat p o e1 g.first idx (if bad then .poison else .ok) tag
          | _, _ => s1
        else s1
      else s1

/-- The lines not yet released of an entry that fails, by their place in the range: of a read those whose request has all earlier lines here, so that its beats
keep ascending LINE order (R92). -/
def CEnt.toFail (e : CEnt) : List CLn :=
  let first := fun (l : CLn) => match e.segs.find? (fun g => g.txid == l.txid) with
    | some g => g.first
    | none => l.idx
  let next := fun (l : CLn) => !l.released && (!e.dir ||
    (List.range (l.idx - first l)).all (fun j => e.lns.any (fun x => x.txid == l.txid && x.idx == first l + j)))
  ((e.lns.filter next).foldl (fun (m : SMap CLn) l => SMap.set m l.idx l) []).map (fun x => x.2)

/-- Every line not yet released takes a failure's outcome (R256): writes are stored as poison with the data their write
carried, read beats return the failure's status, in order (R92); an aborted one's data is free where its status is OK (log entry 2). -/
def State.failLines (s : State) (k : Nat) : State :=
  match SMap.look s.cipher.ents k with
  | none => s
  | some e =>
    let open_ := e.toFail
    let e1 := { e with lns := e.lns.map (fun x => if !open_.any (fun l => l.idx == x.idx && l.txid == x.txid) then x else
      { x with out := ⟨if e.dir then Config.freeLine s.freeCount else x.d.data, true⟩, released := true, computed := true, failed := true }) }
    let s1 := s.setEnt k e1
    let s2 := if h : e.port < 32 then
        if e.dir then
          open_.foldl (fun a l =>
            match (a.port e.port).find l.txid, e1.segs.find? (fun g => g.txid == l.txid) with
            | some o, some g => a.draw.cipherBeat ⟨e.port, h⟩ o e1 g.first l.idx (a.failStatus (e.failed.getD 0) true) 0
            | _, _ => a) s1
        else s1
      else s1
    s2.settleEnt k

/-- A stream marked failed with a code, its unreleased lines settled (R256, R257). -/
def State.failStream (s : State) (k : Nat) (code : Nat) : State :=
  match SMap.look s.cipher.ents k with
  | none => s
  | some e => if e.failed.isSome then s else (s.setEnt k { e with failed := some code }).failLines k

/-- A stream aborted by a refused request (R244, R256). -/
def State.abortStream (s : State) (k : Nat) : State :=
  match SMap.look s.cipher.ents k with
  | none => s
  | some e => if e.failed.isSome then s else ((s.count 0x6402 0x15).log1 0x0B08 e.words).failStream k 6

/-- Lines released as far as the mode allows (R252). -/
def State.releaseReady (s : State) (k : Nat) : State :=
  match SMap.look s.cipher.ents k with
  | none => s
  | some e =>
    let n := linesOf e.len
    let comp := fun i => e.lns.any (fun l => l.idx == i && l.computed)
    let all_ := (List.range n).all comp
    let ready := fun i =>
      comp i && (if e.mode == .gcm && !e.dir then all_ else !e.stolen i || all_) &&
      (List.range i).all (fun j => comp j) && !e.lns.any (fun l => l.idx == i && l.released)
    if e.mode = .gcm ∧ !e.dir ∧ all_ ∧ !e.poisoned ∧ e.tagOf (s.slot e.slot) ≠ e.tag then
      (((s.count 0x6402 0x11).log1 0x0B04 e.words).failStream k 2)
    else ((List.range n).filter ready).foldl (fun a i => a.releaseLine k i) s |>.settleEnt k

/-- The first segment not yet computed whose lines are all at hand (R251). -/
def CEnt.nextSeg (e : CEnt) : Option Seg :=
  match e.segs.find? (fun g => (List.range g.count).any (fun j => !e.lns.any (fun l => l.idx == g.first + j && l.computed))) with
  | some g => if (List.range g.count).all (fun j => e.lns.any (fun l => l.idx == g.first + j)) then some g else none
  | none => none

/-- With no pair left in service every segment in the lanes fails with CIPHER_FAIL (R254). -/
def State.failSegs (s : State) : State :=
  s.cipher.ents.foldl (fun a x => if x.2.failed.isNone && x.2.nextSeg.isSome then a.failStream x.1 4 else a) s

/-- A pair fenced (R254, R255); event 0x0B06 where a cause is given. Its segment in progress is recomputed on another pair. With none left, every segment
fails, and event 0x0B07 is logged once. -/
def State.fencePair (s : State) (p : Nat) (cause : Option Nat) : State :=
  if bit s.cipher.fenced p then s
  else
    let s0 := { s with cipher := { s.cipher with fenced := setBit s.cipher.fenced p true } }
    let s1 := s.cipher.ents.foldl (fun a x => (x.2.segs.filter (fun g => g.pair == some p)).foldl (fun b g =>
      match b.otherPair p with
      | some q => b.runSeg x.1 g.first q g.failedOn
      | none => b) a) s0
    let s2 := match cause with
      | some c => s1.log1 0x0B06 [w16 p, w16 c]
      | none => s1
    if (s2.pickPair (List.range 48)).isSome then s2
    else (if s2.cipher.noneLogged then s2 else ({ s2 with cipher := { s2.cipher with noneLogged := true } }).log1 0x0B07 []).failSegs

/-- A mismatch counted against a pair; at MISMATCH_LIMIT the pair is fenced (R254). -/
def State.mismatch (s : State) (p : Nat) : State :=
  let c := satAdd16 (s.cipher.miss.getD p 0) 1
  let s1 := ({ s with cipher := { s.cipher with miss := s.cipher.miss.set p c } }).count 0x6402 9
  if (s.reg 0x6400 2).toNat ≤ c then s1.fencePair p (some 2) else s1

/-- A segment's compare passed: its lines are computed (R253). -/
def State.passSeg (s : State) (k : Nat) (g : Seg) : State :=
  match SMap.look s.cipher.ents k with
  | none => s
  | some e =>
    (s.setEnt k { e with lns := e.lns.map (fun l =>
      if g.first ≤ l.idx ∧ l.idx < g.first + g.count then { l with computed := true } else l) }).releaseReady k

/-- Event words of a compare that failed twice (R254, R256): both pairs share a word, as do port and STREAM (log entry 14). -/
def CEnt.failWords (e : CEnt) (p1 p2 : Nat) : List Word :=
  [w16 (256 * p1 + p2), w16 e.slot, w16 (256 * e.stream + e.port), w16 e.master.toNat, w16 e.tenant.toNat] ++ three e.addr

/-- A segment's compare failed (R254): recomputed on another pair, or the cipher request fails and its first pair is fenced. DESIGN CHOICE: a first mismatch for
which no other pair is in service is treated as a second one, with the one pair named twice (log entry 72). -/
def State.missSeg (s : State) (k : Nat) (e : CEnt) (g : Seg) (pair : Nat) : State :=
  match g.failedOn, s.otherPair pair with
  | none, some p2 => ((s.runSeg k g.first p2 (some pair)).log1 0x0B02 [w16 pair, w16 p2, w16 e.slot]).mismatch pair
  | f, _ =>
    let p1 := f.getD pair
    ((((s.failStream k 4).mismatch pair).fencePair p1 none).count 0x6402 0x0D).log1 0x0B03 (e.failWords p1 pair)

/-- A key slot whose parity failed on a use is treated as empty (R260): it reads state 4, with event 0x0B05; a load or erase that is pending on it stays
pending (R264). -/
def State.slotBad (s : State) (k : Nat) : State :=
  (if ((s.slot k).st = 2 ∧ !(s.slot k).applied) ∨ (s.slot k).st = 3 then s else s.setSlot k { s.slot k with st := 4 }).log1 0x0B05 [w16 k, 0, 5]

/-- The entry's next segment, with its lines at hand, waits for a pair (R251). -/
def CEnt.waiting (e : CEnt) : Option Seg :=
  if e.failed.isSome then none
  else match e.nextSeg with
    | some g => if g.pair.isNone then some g else none
    | none => none

/-- The waiting segment of an entry takes the lowest-numbered free pair in service; with no pair in service it fails (R251, R254). -/
def State.assignEnt (s : State) (k : Nat) : State :=
  match SMap.look s.cipher.ents k with
  | none => s
  | some e =>
    match e.waiting with
    | none => s
    | some g =>
      if (s.pickPair (List.range 48)).isNone then s.failStream k 4
      else match (List.range 48).find? (fun p => s.pairFree p) with
        | some p => s.runSeg k g.first p none
        | none => s

/-- Waiting segments take free pairs, oldest cipher request first by arrival (R251). -/
def State.assignPairs (s : State) : State :=
  (s.cipher.ents.foldl (fun (m : SMap Nat) x => SMap.set m x.2.born x.1) []).foldl (fun a x => a.assignEnt x.2) s

/-- The lowest queue entry not in use. -/
def State.freeEntry (s : State) : Option Nat := (List.range 256).find? (fun k => (SMap.look s.cipher.ents k).isNone)
/-- Hold-buffer bytes in use (R250). -/
def State.holdUsed (s : State) : Nat := s.cipher.ents.foldl (fun a e => a + e.2.hold) 0

/-- The hold space a FIRST request needs: N × 64 bytes of a GCM decrypt (R250). -/
def CDesc.holdNeed (d : CDesc) : Nat := if d.mode = 3 ∧ !d.dir then 64 * linesOf d.len.toNat else 0

/-- A FIRST request can take a queue entry, its hold space, and its slot has no load or erase pending (R250). -/
def State.canAdmit (s : State) (d : CDesc) : Bool :=
  s.freeEntry.isSome && decide (s.holdUsed + d.holdNeed ≤ 2097152) &&
  !((s.slot d.slot.toNat).st == 2 || (s.slot d.slot.toNat).st == 3)

/-- A FIRST request admitted: its entry, and its slot examined (R250). A slot that fails parity counts as empty (R260). -/
def State.takeStream (s : State) (p : Port) (w : ReqWord) (d : CDesc) (m : BitVec 8) (tn : BitVec 12) : State :=
  match s.freeEntry with
  | none => s
  | some k =>
    let sl := s.slot d.slot.toNat
    let badPar := s.cipher.badSlots.contains d.slot.toNat
    let mode := modeOf d.mode
    let e : CEnt :=
      { born := s.cipher.born + 1, port := p, stream := d.stream.toNat, mode := mode, dir := d.dir, slot := d.slot.toNat, du := d.du.toNat,
        len := d.len.toNat, addr := w.byteAddr, iv := d.iv, tag := 0, next := 0, master := m, tenant := tn, failed := none,
        poisoned := false, lns := [], segs := [], lastFrame := s.anvil.frameNo, hold := d.holdNeed, lastTx := none }
    let s0 := if badPar then s.slotBad d.slot.toNat else s
    let s1 := (({ s0 with cipher := { s0.cipher with born := s0.cipher.born + 1 } }).setEnt k e).count 0x6402 1
    if badPar || sl.st != 1 || sl.kind != modeKind mode then
      (s1.log1 0x0B01 e.words).setEnt k { e with failed := some 5 }
    else s1

/-- The lines of a port request taken into its queue entry as a segment (R251). -/
def State.takeLines (s : State) (k : Nat) (txid count : Nat) (data : List PLine) (d : CDesc) : State :=
  match SMap.look s.cipher.ents k with
  | none => s
  | some e =>
    let lns := data.zipIdx.map (fun x => ({ idx := e.next + x.2, txid := txid, d := x.1 } : CLn))
    let e1 := { e with next := e.next + count, lns := e.lns ++ lns,
                       segs := e.segs ++ [⟨e.next, count, txid, none, none⟩], lastFrame := s.anvil.frameNo,
                       tag := if d.last && e.mode == .gcm && !e.dir then d.tag else e.tag,
                       poisoned := e.poisoned || (e.mode == .gcm && data.any (fun x => x.poison)),
                       lastTx := if d.last then some txid else e.lastTx }
    let s1 := s.setEnt k e1
    if e.failed.isSome then s1.failLines k else s1.assignPairs

/-- A read passed onward on a stream: its segment waits for the lines (R251). -/
def State.openSeg (s : State) (k : Nat) (txid count : Nat) (d : CDesc) : State :=
  match SMap.look s.cipher.ents k with
  | none => s
  | some e =>
    s.setEnt k { e with next := e.next + count, segs := e.segs ++ [⟨e.next, count, txid, none, none⟩],
                        lastFrame := s.anvil.frameNo, lastTx := if d.last then some txid else e.lastTx }

/-- The lines of a read reach the lanes (R251); a line that is not OK is a poisoned input (R258). -/
def State.fillLines (s : State) (k : Nat) (txid : Nat) (ls : List LineAns) : State :=
  match SMap.look s.cipher.ents k with
  | none => s
  | some e =>
    match e.segs.find? (fun g => g.txid == txid) with
    | none => s
    | some g =>
      let lns := ls.map (fun a => ({ idx := g.first + a.line, txid := txid, d := ⟨a.data, a.status != .ok⟩, corr := a.corrected } : CLn))
      let s1 := s.setEnt k { e with lns := e.lns ++ lns,
                                    poisoned := e.poisoned || (e.mode == .gcm && ls.any (fun a => a.status != .ok)) }
      if e.failed.isSome then s1.failLines k else s1.assignPairs

/-- Lines of a stream's request that was answered at the entry tile: they pass the lanes as poison (R258; log entry 15). -/
def State.skipLines (s : State) (k : Nat) (txid count : Nat) (d : CDesc) : State :=
  match SMap.look s.cipher.ents k with
  | none => s
  | some e =>
    let lns := (List.range count).map (fun j =>
      ({ idx := e.next + j, txid := txid, d := ⟨0, true⟩, computed := true, released := true, sent := true } : CLn))
    (s.setEnt k { e with next := e.next + count, lns := e.lns ++ lns, lastFrame := s.anvil.frameNo,
                         poisoned := e.poisoned || e.mode == .gcm,
                         lastTx := if d.last then some txid else e.lastTx }).settleEnt k

/-- A read of a stream that ends without its lines (R236): they pass the lanes as poison, and it takes its one beat. -/
def State.endCipherRead (s : State) (p : Port) (o : Onward) (k : Nat) (st : Status) : State :=
  match SMap.look s.cipher.ents k with
  | none => s.failOnward p o st .none 0
  | some e =>
    let first := match e.segs.find? (fun g => g.txid == o.txid) with
      | some g => g.first
      | none => e.next
    let lns := (List.range o.lines).map (fun j =>
      ({ idx := first + j, txid := o.txid, d := ⟨0, true⟩, computed := true, released := true, sent := true } : CLn))
    let e1 := { e with lns := e.lns.filter (fun l => l.txid ≠ o.txid) ++ lns, poisoned := e.poisoned || e.mode == .gcm }
    ((s.setEnt k e1).failOnward p o st .none (e1.cstat (e.lastTx == some o.txid))).settleEnt k

/-- The streams of a Quench trip: every open cipher request fails as for an empty slot (R261). -/
def State.failAllStreams (s : State) : State :=
  s.cipher.ents.foldl (fun a x => if x.2.failed.isSome then a else (a.log1 0x0B01 x.2.words).failStream x.1 5) s

end Sys2Proof.Machine
end

