-- ==== Sys2Proof/Machine/Slots.lean ====
section
/-!
DEFINITION. Timing values in force (R169-R171), the slot word (R60, R61), maintenance durations (R65), the refresh capacity
(R69) and the checks of a frame table (R68).
-/
namespace Sys2Proof.Machine
open Sys2Proof

/-! ### Timing -/

/-- A declared timing value in ns, subindex 1 to 17 (R170). -/
def State.declared (s : State) (k : Nat) : Nat := nth s.phy.declared (k - 1) 0

/-- Nanoseconds in CCLK cycles at a grade, rounded up (R169). -/
def nsCycles (grade ns : Nat) : Nat := ceilDiv (ns * 36) (cycleTime grade)

/-- The value of a timing parameter in cycles under given overrides (R169, R171). tCCD is 2; tREFI is the interval in
force, whatever an override says (R291, R292). -/
def State.timWith (s : State) (ovr : SMap Word) (k : Nat) : Nat :=
  if k = 10 then 2
  else if k = 11 then
    if s.hk.half then ceilDiv (s.declared 11 * 36) (2 * cycleTime s.phy.grade) else nsCycles s.phy.grade (s.declared 11)
  else
    let o := (ovr.getD k 0).toNat
    nsCycles s.phy.grade (if o = 0 then s.declared k else o)

/-- A timing parameter in cycles, IN_FORCE [4012:k] (R177). -/
def State.tim (s : State) (k : Nat) : Nat := s.timWith s.phy.ovr k

/-- ACT to bank ready for its next ACT, of a read (R159). -/
def readEnvelope (tim : Nat → Nat) (k : Nat) : Nat := max (tim 4) (tim 1 + 2 * (k - 1) + tim 9 + tim 2)
/-- ACT to bank ready for its next ACT, of a write (R159). -/
def writeEnvelope (tim : Nat → Nat) (k : Nat) : Nat := tim 1 + tim 15 + 2 * k + tim 7 + tim 2

/-! ### Slot words -/

/-- Maintenance codes of R61. -/
inductive Maint1 | none | refpb | refab | plan | assay | pickle | seam | pdchk | spare
  deriving DecidableEq, Repr

/-- The maintenance code of a slot word (R60, R61). -/
def maintOf (w : Word) : Maint1 :=
  match fld w 11 8 with
  | 0 => .none | 1 => .refpb | 2 => .refab | 3 => .plan | 4 => .assay | 5 => .pickle | 6 => .seam | 7 => .pdchk
  | _ => .spare

/-- A slot word from its fields (R60). -/
def slotWordOf (p t l b : Bool) (maint group : Nat) (all step trace : Bool) : Word :=
  w16 (b2n trace + 4 * b2n step + 8 * b2n all + 16 * (group % 16) + 256 * (maint % 16) + 4096 * b2n b + 8192 * b2n l
    + 16384 * b2n t + 32768 * b2n p)

/-- The word grants a class (R60): P, T, L, and B for both sub-levels. -/
def grants (w : Word) (c : Cls) : Bool :=
  match c with
  | .p => bit w 15
  | .t => bit w 14
  | .l => bit w 13
  | .bh => bit w 12
  | .bl => bit w 12

/-- The effective group of a word in a round (R60: STEP). -/
def groupOf (w : Word) (round : Nat) : Nat := if bit w 2 then (fld w 7 4 + round) % 16 else fld w 7 4

/-- The word's maintenance targets group g in a round (R60: ALL). -/
def targets (w : Word) (round g : Nat) : Bool := bit w 3 || groupOf w round == g

/-- Codes that may stand with ALL (R61). -/
def allAllowed : Maint1 → Bool
  | .refpb => true | .pickle => true | .seam => true | .pdchk => true
  | .none => false | .refab => false | .plan => false | .assay => false | .spare => false

/-- The duration of a maintenance code in cycles (R65, R159). -/
def maintDur (tim : Nat → Nat) (perSlot : Nat) : Maint1 → Nat
  | .none => 0
  | .refpb => (perSlot - 1) * tim 5 + tim 12
  | .refab => tim 13
  | .plan => 1024
  | .assay => 1024
  | .pickle => writeEnvelope tim 4
  | .seam => writeEnvelope tim 4
  | .pdchk => tim 17
  | .spare => 0

/-! ### The frame table -/

/-- A frame-table group: descriptor words, ROUND_LEN, REFPB_PER_SLOT, PULLIN_LIMIT (R68). -/
structure Table where
  words : List (List Word)
  len : Nat
  perSlot : Nat
  pullin : Nat
  deriving DecidableEq, Repr

/-- The words of descriptors 0 to len − 1 of the applied or the staged table (R67). -/
def State.tableWords (s : State) (staged : Bool) (len : Nat) : List (List Word) :=
  (List.range len).map (fun d => (List.range 16).map (fun k =>
    if staged then s.stagedReg (0x2200 + d) (k + 1) else s.reg (0x2200 + d) (k + 1)))

/-- The applied or the staged frame-table group. A length outside 1 to 256 lists no words. -/
def State.table (s : State) (staged : Bool) : Table :=
  let g := fun x => (if staged then s.stagedReg 0x2100 x else s.reg 0x2100 x).toNat
  { words := s.tableWords staged (if g 1 ≤ 256 then g 1 else 0), len := g 1, perSlot := g 5, pullin := g 6 }

/-- The words with their descriptor and slot numbers, in ascending order. -/
def Table.flat (t : Table) : List (Nat × Nat × Word) :=
  (t.words.zipIdx.map (fun p => p.1.zipIdx.map (fun q => (p.2, q.2, q.1)))).flatten

/-- Check 1 of R68: the failing object's subindex. -/
def Table.check1 (t : Table) : Option Nat :=
  if t.len < 1 ∨ 256 < t.len then some 1
  else if t.perSlot < 1 ∨ 8 < t.perSlot then some 5
  else if 8 < t.pullin then some 6
  else none

/-- Check 2 of R68 on a word. -/
def badWord (w : Word) : Bool :=
  maintOf w == .spare || bit w 1 || (bit w 3 && (!allAllowed (maintOf w) || fld w 7 4 != 0))

/-- PLAN and ASSAY words. -/
def isStep (w : Word) : Bool := maintOf w == .plan || maintOf w == .assay

/-- Check 4 of R68 on a word in a slot: R65. -/
def badEnd (tim : Nat → Nat) (perSlot slot : Nat) (w : Word) : Bool :=
  decide (1024 < 64 * slot + maintDur tim perSlot (maintOf w))

/-- Check 4 of R68 on a table: the first failing place. -/
def Table.check4 (t : Table) (tim : Nat → Nat) : Option (Nat × Nat) :=
  (t.flat.find? (fun p => badEnd tim t.perSlot p.2.1 p.2.2)).map (fun p => (p.1, p.2.1))

/-- Check 5 of R68: the first slot that is the fifth in a row without GRANT_P, the round taken as a circle. DESIGN CHOICE: where no
slot of the table grants P, the fifth slot of the first descriptor is named (log entry 72). -/
def Table.check5 (t : Table) : Option (Nat × Nat) :=
  let lacks := t.flat.map (fun p => !grants p.2.2 .p)
  let m := lacks.length
  if lacks.all (fun b => b) then (if m = 0 then none else some (0, 4))
  else
    let at_ := fun (k back : Nat) => nth lacks ((k + m - back) % m) false
    ((List.range m).find? (fun k =>
      at_ k 0 && at_ k 1 && at_ k 2 && at_ k 3 && at_ k 4 && !at_ k 5)).map (fun k => (k / 16, k % 16))

/-- Check 6 of R68: the first frame without a slot granting T, or L, or B. -/
def Table.check6 (t : Table) : Option Nat :=
  (t.words.zipIdx.find? (fun p =>
    !(p.1.any (fun w => grants w .t)) || !(p.1.any (fun w => grants w .l)) || !(p.1.any (fun w => grants w .bh)))).map
    (fun p => p.2)

/-- Check 7 of R68: the second of two frames in a row that stop one group, the lowest descriptor first. -/
def Table.check7 (t : Table) : Option Nat :=
  let w0 := fun d => nth (nth t.words d []) 0 0
  let L := t.words.length
  let clash := fun (d : Nat) => isStep (w0 d) && isStep (w0 ((d + L - 1) % L)) &&
    (List.range 16).any (fun r =>
      groupOf (w0 ((d + L - 1) % L)) r == groupOf (w0 d) (if d = 0 then r + 1 else r))
  (List.range L).find? clash

/-- Refreshes a round gives the least-served pseudo-channel, the least over ROUND_NO mod 16 (R69). -/
def Table.cap (t : Table) (banks : Nat) : Nat :=
  let ws := (t.flat.map (fun p => p.2.2)).filter (fun w => maintOf w == .refpb || maintOf w == .refab)
  let rounds := if ws.any (fun w => bit w 2) then List.range 16 else [0]
  minOf 0 ((rounds.map (fun r => (List.range 16).map (fun g =>
    ws.foldl (fun a w => if targets w r g then a + (if maintOf w == .refab then banks else t.perSlot) else a) 0))).flatten)

/-- REFRESH_NEED: banks × ROUND_LEN × frame length ÷ half the declared tREFI, rounded up (R69, R291). -/
def State.refreshNeed (s : State) (len : Nat) : Nat :=
  if s.declared 11 = 0 then 0
  else ceilDiv (s.banks * len * 1024 * cycleTime s.phy.grade * 2) (36 * s.declared 11)

/-- REFRESH_CAP and REFRESH_NEED of the applied table [2105:01-02] (R69). -/
def State.refreshCap (s : State) : Nat := (s.table false).cap s.banks
/-- See `State.refreshCap`. -/
def State.refreshNow (s : State) : Nat := s.refreshNeed (s.table false).len

/-- The one event that refuses a frame-table group (R68, R406): code and arguments; none where checks 1 to 7 pass. -/
def State.tableFail (s : State) (t : Table) : Option (Nat × List Word) :=
  match t.check1 with
  | some x => some (0x0302, [w16 x, s.stagedReg 0x2100 x])
  | none =>
    match t.flat.find? (fun p => badWord p.2.2) with
    | some p => some (0x0303, [w16 p.1, w16 p.2.1, 2])
    | none =>
      match t.flat.find? (fun p => isStep p.2.2 && p.2.1 != 0) with
      | some p => some (0x0303, [w16 p.1, w16 p.2.1, 3])
      | none =>
        match t.check4 s.tim with
        | some p => some (0x0303, [w16 p.1, w16 p.2, 4])
        | none =>
          match t.check5 with
          | some p => some (0x0303, [w16 p.1, w16 p.2, 5])
          | none =>
            match t.check6 with
            | some d => some (0x0303, [w16 d, 0xFFFF, 6])
            | none =>
              match t.check7 with
              | some d => some (0x0303, [w16 d, 0, 7])
              | none => none

/-- P_WORST for the applied table and the timing in force (R174). -/
def State.pWorst (s : State) : Nat :=
  let t := s.table false
  let ab := t.flat.any (fun p => maintOf p.2.2 == .refab)
  1536 + (2 * t.perSlot + 1) * s.tim 5 + (if ab then s.tim 13 else s.tim 12) + 16 + s.tim 1 + max (s.tim 14) (s.tim 15)

/-- P_WORST looked at again after a change: event 0x0707 once per change above 2048 (R174). -/
def State.checkPWorst (s : State) (before : Nat) : State :=
  let p := s.pWorst
  let s1 := { s with phy := { s.phy with pWorstHigh := decide (2048 < p) } }
  if 2048 < p ∧ p ≠ before then s1.log1 0x0707 [w16 p] else s1

end Sys2Proof.Machine
end

