-- ==== Sys2Proof/Machine/SchedOps.lean ====
section
/-!
DEFINITION. Queues and shaping at the home (R136-R147), release to the pseudo-channels (R146, R150), the order within a bank
(R163, R164), the placing of an access in time (R158, R159) and the choice of the next one (R157, R160, R161, R165).
-/
namespace Sys2Proof.Machine
open Sys2Proof

/-! ### Classes and queues -/

/-- The order of the classes (R146, R160). -/
def clsNo : Cls → Nat | .p => 0 | .t => 1 | .l => 2 | .bh => 3 | .bl => 4
/-- The class one step up (R154). -/
def clsUp : Cls → Cls | .p => .p | .t => .p | .l => .t | .bh => .l | .bl => .bh
/-- The higher of two classes. -/
def clsMax (a b : Cls) : Cls := if clsNo a ≤ clsNo b then a else b
/-- The virtual clock of a class (R144): T, L and B. -/
def clockOf : Cls → Nat | .p => 0 | .t => 0 | .l => 1 | .bh => 2 | .bl => 2

/-- Parts of the internal ports P28 and P29 (R152). -/
def Part.internal (p : Part) : Bool := internalPort p.req.port
/-- Two parts belong to one request. -/
def sameReq (a b : HReq) : Bool := a.tile == b.tile && a.port == b.port && a.txid == b.txid

/-- The role group of a port (R136). -/
def roleGroup (p : Nat) : Nat := if p < 4 then 0 else if p < 8 then 1 else if (8 ≤ p ∧ p < 20) ∨ p = 26 ∨ p = 27 then 2 else 3

/-- A tenant's map word (R137). -/
def State.tenantWord (s : State) (t : BitVec 12) : Word := s.reg (0x3600 + t.toNat / 4) (0x40 + t.toNat % 4)

/-- The queue of a request (R136), with the count and the event of an unmapped tenant. -/
def State.chooseQueue (s : State) (r : HReq) : State × Nat :=
  let w := s.tenantWord r.tenant
  if !bit w 15 then
    let q := fld (s.reg (0x3600 + r.port) 0x50) 9 0
    let s1 := s.count 0x3507 5
    let k := limKey 0x0601 r.tenant.toNat
    if (s1.log.seen.look k).isSome then (s1, q)
    else
      let s2 := s1.log1 0x0601 [w16 r.tenant.toNat, w16 r.port, w16 q]
      ({ s2 with log := { s2.log with seen := s2.log.seen.set k s.frame } }, q)
  else if !bit w 14 then (s, fld w 9 0)
  else (s, fld w 9 0 + roleGroup r.port)

/-- The queue's depth (R139): requests that joined and have an unissued access. -/
def State.depth (s : State) (q : Nat) : Nat :=
  ((s.sched.parts.filter (fun p => p.queue == q)).map (fun p => (p.req.tile, p.req.port, p.req.txid))).eraseDups.length
/-- The queue's head-of-line delay in cycles (R139). -/
def State.headDelay (s : State) (q : Nat) : Nat :=
  let l := (s.sched.parts.filter (fun p => p.queue == q)).map (fun p => p.joined)
  match l with
  | [] => 0
  | x :: r => s.clk.now - minOf x r

/-- The high-water marks of a queue follow its depth and delay (R147). -/
def State.mark (s : State) (q : Nat) : State :=
  let st := s.q q
  if st.latMode = 1 ∧ q < 1024 then
    s.setQ q { st with latDepth := max st.latDepth (s.depth q), latDelay := max st.latDelay (min (s.headDelay q / 16) 0xFFFF) }
  else s

/-! ### Virtual clocks -/

/-- A virtual clock (R145). -/
def State.vclock (s : State) (k : Nat) : BitVec 32 := if k = 0 then s.sched.vT else if k = 1 then s.sched.vL else s.sched.vB
/-- A queue's last finish tag in a clock (R144). -/
def QSt.last (q : QSt) (k : Nat) : BitVec 32 := if k = 0 then q.fT else if k = 1 then q.fL else q.fB
/-- A queue's last finish tag set. -/
def QSt.setLast (q : QSt) (k : Nat) (v : BitVec 32) : QSt :=
  if k = 0 then { q with fT := v } else if k = 1 then { q with fL := v } else { q with fB := v }

/-- The smallest start tag of the unissued requests stamped in a clock, or the clock's value (R145). -/
def State.minStart (s : State) (k : Nat) : BitVec 32 :=
  match (s.sched.parts.filter (fun p => decide (p.queue < 1024) && p.k == k)).map (fun p => p.start) with
  | [] => s.vclock k
  | x :: r => r.foldl (fun a b => if serNewer b a then b else a) x

/-- The virtual clocks follow the unissued requests (R145). -/
def State.fixV (s : State) : State :=
  { s with sched := { s.sched with vT := s.minStart 0, vL := s.minStart 1, vB := s.minStart 2 } }

/-- Last finish tags behind their clock move up to it, those of queues that nothing has used with the others (R145). -/
def State.correctV (s : State) : State :=
  let s1 := { s with
    queues := s.queues.mapVals (fun _ q => { q with fT := serMax q.fT s.sched.vT, fL := serMax q.fL s.sched.vL, fB := serMax q.fB s.sched.vB }),
    sched := { s.sched with cT := s.sched.vT, cL := s.sched.vL, cB := s.sched.vB } }
  { s1 with queues := s1.queues.filter (fun e => decide (e.2 ≠ s1.freshQ)) }

/-! ### Power-down -/

/-- A pseudo-channel leaves power-down (R167). -/
def State.wakePc (s : State) (c : Nat) : State :=
  let q := s.pc c
  match q.down with
  | none => s
  | some from_ =>
    ((s.setPc c { q with down := none, rowFree := max q.rowFree (s.clk.now + s.tim 16), idleFrom := max q.idleFrom s.clk.now }).count
      (0x4100 + c) 15 (s.clk.now - from_)).emit (.stack c s.clk.now .pdExit)

/-! ### Joining -/

/-- A port of a tile is in panic at this home (R155). -/
def State.inPanic (s : State) (r : HReq) : Bool := s.sched.panics.contains (r.tile, r.port.val) && !r.demoted

/-- Lines gathered into parts, one a pseudo-channel, bank and row (R151). -/
def gather (mk : Place → PLn → Part) : List (Place × PLn) → List Part
  | [] => []
  | (pl, l) :: rest =>
    match gather mk rest with
    | [] => [mk pl l]
    | p :: ps => if p.pc = pl.pc ∧ p.bank = pl.bank ∧ p.row = pl.row then { p with lns := l :: p.lns } :: ps else mk pl l :: p :: ps

/-- What names a request at this tile. -/
def reqKey (r : HReq) : Nat := r.txid * 256 + r.tile % 8 * 32 + r.port.val

/-- The class in which a request joins (R155). -/
def State.joinCls (s : State) (r : HReq) : Cls := if s.inPanic r then Cls.p else r.cls

/-- What an internal part carries in place of tags: it stands in no shaper queue, for which 1024 is written (R152; log entry 20). -/
def State.noTag (s : State) : Tag := { queue := 1024, k := 2, start := s.sched.vB, finish := s.sched.vB }

/-- A request's queue and tags (R136, R144): those it has or carries (R168), or new ones as its first line joins. -/
def State.stamp (s : State) (r : HReq) : State × Tag :=
  if internalPort r.port then (s, s.noTag)
  else match SMap.look s.sched.tags (reqKey r) with
    | some g => (s, g)
    | none =>
      let c := s.chooseQueue r
      let st := c.1.q c.2
      let k := clockOf (s.joinCls r)
      let start := serMax (s.vclock k) (st.last k)
      let finish := start + BitVec.ofNat 32 ((if r.total = 0 then r.lines else r.total) * 4096 / (max st.weight.toNat 1))
      let g : Tag := match r.stamped with
        | some (k0, st0, fi0) => { queue := c.2, k := k0, start := st0, finish := fi0 }
        | none => { queue := c.2, k := k, start := start, finish := finish }
      let s1 := if r.stamped.isSome then c.1 else c.1.setQ c.2 (st.setLast k finish)
      ({ s1 with sched := { s1.sched with tags := SMap.set s1.sched.tags (reqKey r) g } }, g)

/-- The transaction of the home that a part's reads are for, 0 for none. -/
def Origin.txn : Origin → Nat
  | .homeRead no => no
  | .req => 0 | .homeWrite _ => 0 | .pickleWalk => 0 | .pickleFix => 0 | .pickleBack => 0 | .seamOld _ => 0 | .seamNew _ => 0 | .seamPoison _ => 0
  | .standRead _ => 0 | .rebuild => 0 | .rebuildW => 0 | .poison => 0 | .row => 0

/-- The origin of one line of a part: the home's reads of one request stand in one part, each for its own transaction. -/
def Origin.ofLine (o : Origin) (l : PLn) : Origin := if o.txn = 0 then o else .homeRead l.no

/-- A part does work of an origin. -/
def Part.serves (p : Part) (o : Origin) : Bool := p.lns.any (fun l => p.origin.ofLine l == o)

/-- The number of the Seam write whose write part a part is. -/
def Origin.seamNo : Origin → Option Nat
  | .seamNew no => some no
  | .req => none | .homeRead _ => none | .homeWrite _ => none | .pickleWalk => none | .pickleFix => none | .pickleBack => none | .seamOld _ => none
  | .seamPoison _ => none | .standRead _ => none | .rebuild => none | .rebuildW => none | .poison => none | .row => none

/-- Two parts of one request that stand for its one part on a bank's row (R151): the home agent orders the lines of a plain request one by one. -/
def oneWork (a b : Origin) : Bool := (a == .req && b == .req) || (a.txn != 0 && b.txn != 0) || (a == b && a.seamNo.isSome)

/-- The unissued part that a request's line joins (R151): one not yet released, with nothing for the line between them. -/
def State.partOf (s : State) (p : Part) : Option Part :=
  s.sched.parts.find? (fun x => x.rel.isNone && !p.internal && sameReq x.req p.req && oneWork x.origin p.origin && x.write == p.write &&
    x.pc == p.pc && x.bank == p.bank && x.row == p.row && !s.sched.parts.any (fun y => decide (x.seq < y.seq) && y.lns.any (fun l => p.lns.any (fun m => m.addr == l.addr))))

/-- A part joins, or its lines join the one that its request has there (R151). -/
def State.addPart (s : State) (p : Part) : State :=
  match s.partOf p with
  | none => { s with sched := { s.sched with parts := s.sched.parts ++ [p] } }
  | some x => { s with sched := { s.sched with parts := s.sched.parts.map (fun (y : Part) =>
      if y.seq = x.seq ∧ y.pc = x.pc ∧ y.bank = x.bank ∧ y.row = x.row then { y with lns := y.lns ++ p.lns } else y) } }

/-- Lines with their tile-local addresses and data join a queue under given tags (R136, R139, R144), as number `seq`. -/
def State.joinAs (s : State) (r : HReq) (o : Origin) (write : Bool) (g : Tag) (ls : List PLn) : State :=
  let seq := s.sched.seq + 1
  let mk := fun (pl : Place) (l : PLn) =>
    ({ seq := seq, origin := o, req := r, queue := g.queue, pc := pl.pc, bank := pl.bank, row := pl.row, lns := [{ l with no := o.txn }], write := write,
       cls := s.joinCls r, calm := r.cls, promoted := r.promoted, age := r.age, k := g.k, start := g.start, finish := g.finish, joined := s.clk.now,
       rel := none, pSince := none } : Part)
  let parts := gather mk (ls.map (fun l => (s.map.place l.addr, l)))
  let s1 := parts.foldl State.addPart { s with sched := { s.sched with seq := seq } }
  (s1.fixV).mark g.queue

/-- A request's lines join the queue its tenant and port choose (R136); those of an internal port go to their pseudo-channels' queues (R152). -/
def State.joinQueue (s : State) (r : HReq) (o : Origin) (write : Bool) (ls : List PLn) : State :=
  let c := s.stamp r
  c.1.joinAs r o write c.2 ls

/-- The request of an internal port's work (R128, R152): P29 is Pickle's, P28 Seam's. -/
def internalReq (t port : Nat) (op : Op) (addr : Nat) : HReq :=
  { tile := t, port := Fin.ofNat 32 port, txid := 0, op := op, lines := 1, tenant := 0, master := 0, tag := 0, addr := addr, cls := .bh,
    demoted := false, age := 0, coherent := false, dirty := false, rage := 0, data := [] }

/-! ### Release -/

/-- Parts in a pseudo-channel's read or write queue (R150); those of a row under repair stand in the repair buffer (R311). -/
def State.inQueue (s : State) (c : Nat) (write : Bool) : Nat :=
  s.sched.parts.countP (fun p => p.pc == c && p.write == write && p.rel.isSome && p.origin != .row)

/-- The queue has room for a part of a class (R150). -/
def State.hasRoom (s : State) (p : Part) (cls : Cls) : Bool :=
  let used := s.inQueue p.pc p.write
  if cls = .p then decide (used < 64) else decide (used < 56)

/-- The bucket lets a part go (R142): class P always, the others at a level of at least its lines; an unshaped queue never
holds a part back (R140). -/
def State.bucketOk (s : State) (p : Part) : Bool :=
  let q := s.q p.queue
  p.cls == Cls.p || decide (1024 ≤ p.queue) || q.rate == 0xFFFF || decide (16 * (p.lns.length : Int) ≤ q.level)

/-- The order of release (R146): class; join within P; finish tag; join. -/
def releaseBefore (a b : Part) : Bool :=
  if a.cls ≠ b.cls then decide (clsNo a.cls < clsNo b.cls)
  else if a.cls = .p then decide (a.seq < b.seq)
  else if a.finish ≠ b.finish then serNewer a.finish b.finish
  else decide (a.seq < b.seq)

/-- Two parts share a line. -/
def shareLine (a b : Part) : Bool := a.lns.any (fun l => b.lns.any (fun m => m.addr == l.addr))

/-- The earliest-joined unreleased part that must go before one for the same line (R146). -/
def State.goesFirst (s : State) : Nat → Part → Part
  | 0, p => p
  | fuel + 1, p =>
    match firstMin (fun a b => decide (a.seq < b.seq))
      (s.sched.parts.filter (fun x => x.rel.isNone && decide (x.seq < p.seq) && x.pc == p.pc && shareLine x p)) with
    | some e => s.goesFirst fuel e
    | none => p

/-- A part by its join and place. -/
def samePart (a b : Part) : Bool := a.seq == b.seq && a.pc == b.pc && a.bank == b.bank && a.row == b.row

/-- A write drain on the fall-back path begins at WR_HIGH parts and ends at WR_LOW (R165). -/
def State.drainCheck (s : State) (c : Nat) : State :=
  let q := s.pc c
  let w := s.reg 0x4000 5
  let n := s.inQueue c true
  if q.fall = 0 then (if q.drain then s.setPc c { q with drain := false } else s)
  else if fld w 15 8 ≤ n then s.setPc c { q with drain := true }
  else if n ≤ fld w 7 0 then s.setPc c { q with drain := false }
  else s

/-- Parts leave their queues unissued: their wait counts in the high-water marks (R147), and the clocks, the drains and the idle timers follow (R145,
R165, R167). -/
def State.dropParts (s : State) (f : Part → Bool) : State :=
  let gone := s.sched.parts.filter f
  let s0 := ((gone.map (fun p => p.queue)).eraseDups).foldl (fun z q => z.mark q) s
  let s1 := ({ s0 with sched := { s0.sched with parts := s0.sched.parts.filter (fun p => !f p) } }).fixV
  ((gone.map (fun p => p.pc)).eraseDups).foldl
    (fun z c => (z.setPc c { z.pc c with idleFrom := max (z.pc c).idleFrom z.clk.now }).drainCheck c) s1

/-- Another write to lines of Pickle's has come (R191): its write-backs that wait are dropped, and what it has read of them is out of date. -/
def State.overtake (s : State) (p : Part) : State :=
  let hit := fun (l : Nat) => p.lns.any (fun x => x.addr == l)
  let s1 := s.dropParts (fun x => x.origin == .pickleBack && shareLine x p)
  { s1 with sched := { s1.sched with flight := s1.sched.flight.map (fun (f : Flight) => if hit f.ln.addr then { f with stale := true } else f) },
            seam := { s1.seam with recons := s1.seam.recons.map (fun (x : Recon) => if hit x.line then { x with stale := true } else x) } }

/-! ### Seam writes in their queues -/

/-- The Seam write on a line that goes first (R196). -/
def State.seamOf (s : State) (loc : Nat) : Option SeamWr := s.seam.writes.find? (fun w => w.line == loc)

/-- A line of a Seam write, by its number. -/
def State.seamBy (s : State) (no loc : Nat) : Option SeamWr := s.seam.writes.find? (fun w => w.no == no && w.line == loc)

/-- A line of a Seam write changed. -/
def State.setSeam (s : State) (w : SeamWr) : State :=
  { s with seam := { s.seam with writes := s.seam.writes.map (fun x => if x.no = w.no ∧ x.line = w.line then w else x) } }

/-- The write part of a Seam write may not go yet (R195, R196): of some line, what the new line depends on is not known. -/
def State.seamWaits (s : State) (p : Part) : Bool :=
  match p.origin with
  | .seamNew no => p.lns.any (fun l => (match s.seamBy no l.addr with | some w => w.old.isNone | none => false))
  | .req => false | .homeRead _ => false | .homeWrite _ => false | .pickleWalk => false | .pickleFix => false | .pickleBack => false
  | .seamOld _ => false | .seamPoison _ => false | .standRead _ => false | .rebuild => false | .rebuildW => false | .poison => false
  | .row => false

/-- The data of the write part of a Seam write, now that it is known (R187, R195, R199). -/
def State.setNew (s : State) (no loc : Nat) (d : PLine) : State :=
  { s with sched := { s.sched with parts := s.sched.parts.map (fun (p : Part) =>
      if p.origin = .seamNew no then { p with lns := p.lns.map (fun (l : PLn) => if l.addr = loc then { l with d := d } else l) } else p) } }

/-- A part taken into its pseudo-channel's queue (R146): its bucket falls by its lines, never below −BURST (R142); the
pseudo-channel leaves power-down (R167). A Pickle write-back of a line it writes is dropped (R191). -/
def State.releasePart (s : State) (p : Part) : State :=
  let q := s.q p.queue
  let seq := s.sched.seq + 1
  let s1 := if p.queue < 1024 ∧ q.rate ≠ 0xFFFF then
      s.setQ p.queue { q with level := max (q.level - 16 * (p.lns.length : Int)) (-16 * (q.burst.toNat : Int)) } else s
  let s2 := { s1 with sched := { s1.sched with seq := seq, parts := s1.sched.parts.map (fun (x : Part) => if samePart x p then
      { x with rel := some seq, pSince := if x.cls == Cls.p then some s.clk.now else none } else x) } }
  let s3 := if p.write ∧ p.origin ≠ .pickleBack then s2.overtake p else s2
  (s3.wakePc p.pc).drainCheck p.pc

/-- One eligible part of a pseudo-channel is released, or the earlier one for its line in its place (R146). -/
def State.release (s : State) (c : Nat) : State :=
  let el := s.sched.parts.filter (fun p => p.pc == c && p.rel.isNone && s.bucketOk p &&
    (let e := s.goesFirst s.sched.parts.length p; s.hasRoom e p.cls))
  match firstMin releaseBefore el with
  | none => s
  | some p => s.releasePart (s.goesFirst s.sched.parts.length p)

/-! ### Placing an access in time -/

/-- The first cycle after a cycle's frame. -/
def frameEnd (t : Nat) : Nat := (t / 1024 + 1) * 1024

/-- A data booking (start, end, write) and a new access of k lines with its first column at `col` leave each other's column
cycles, data cycles and turnarounds free (R158). -/
def fitsWith (tim : Nat → Nat) (col k : Nat) (write : Bool) (b : Nat × Nat × Bool) : Bool :=
  let lat := fun (w : Bool) => if w then tim 15 else tim 14
  let first := col + lat write
  let end_ := first + 2 * k
  let bcol := b.1 - lat b.2.2
  let cols := (List.range k).all (fun i =>
    let x := col + 2 * i
    !(decide (bcol ≤ x) && decide (x < b.2.1 - lat b.2.2) && (x - bcol) % 2 == 0))
  cols &&
  (if end_ ≤ b.1 then
    write == b.2.2 || (if write then decide (end_ + tim 8 ≤ bcol) else decide (end_ + 2 ≤ b.1))
   else if b.2.1 ≤ first then
    write == b.2.2 || (if write then decide (b.2.1 + 2 ≤ first) else decide (b.2.1 + tim 8 ≤ col))
   else false)

/-- An access of k lines to a bank may have its ACT at cycle t (R158): row command spacing, bank ready, tRC, tFAW, data calendar,
turnarounds, and its last beat before the tick (R64). -/
def State.canAct (s : State) (c bank k : Nat) (write : Bool) (t : Nat) : Bool :=
  let q := s.pc c
  let col := t + s.tim 1
  q.down.isNone && !q.refab && decide (q.rowFree ≤ t) && decide (q.bankReady.getD bank 0 ≤ t) && decide (q.bankRc.getD bank 0 ≤ t) &&
    (match q.acts[3]? with | some a => decide (a + s.tim 6 ≤ t) | none => true) &&
    decide (col + (if write then s.tim 15 else s.tim 14) + 2 * k ≤ frameEnd t) &&
    q.cal.all (fitsWith s.tim col k write)

/-- The earliest cycle from `t` at which an access may have its ACT, within the next two frames. -/
def State.earliestAct (s : State) (c bank k : Nat) (write : Bool) (t : Nat) : Option Nat :=
  let q := s.pc c
  let t0 := max t (max q.rowFree (max (q.bankReady.getD bank 0) (q.bankRc.getD bank 0)))
  ((List.range 2048).find? (fun d => s.canAct c bank k write (t0 + d))).map (fun d => t0 + d)

/-! ### Order within a bank -/

/-- A part's turn among those of its pseudo-channel. -/
def Part.turn (p : Part) : Nat := p.rel.getD 0

/-- In-order mode of a bank (R163): a read stands behind an unissued write to its row. -/
def inOrder (l : List Part) : Bool :=
  l.any (fun w => w.write && l.any (fun r => !r.write && r.row == w.row && decide (w.turn < r.turn)))

/-- A part is held by an earlier one to its row, one of them a write (R164). -/
def heldBack (l : List Part) (p : Part) : Bool :=
  l.any (fun q => decide (q.turn < p.turn) && q.row == p.row && (q.write || p.write))

/-- The highest class of a list of parts. -/
def topClass (l : List Part) : Cls := l.foldl (fun a p => clsMax a p.cls) .bl

/-- The class a part is selected with, none while its bank's order holds it back (R163, R164). -/
def selClass (l : List Part) (p : Part) : Option Cls :=
  let first := l.all (fun q => decide (p.turn ≤ q.turn))
  if inOrder l then (if first then some (topClass l) else none)
  else if heldBack l p then none
  else if first && l.any (heldBack l) then some (topClass l)
  else some p.cls

/-- The released parts of a pseudo-channel. -/
def State.pcParts (s : State) (c : Nat) : List Part := s.sched.parts.filter (fun p => p.pc == c && p.rel.isSome)

/-- A part that may be chosen, with its selection class (R160). -/
structure Cand where
  p : Part
  cls : Cls

/-- Data cycles that waiting class-P parts will need (R161). -/
def State.pNeeds (s : State) (c : Nat) : List (Nat × Nat) :=
  ((s.pcParts c).filter (fun p => p.cls == .p)).filterMap (fun p =>
    (s.earliestAct c p.bank p.lns.length p.write s.clk.now).map (fun t =>
      let f := t + s.tim 1 + (if p.write then s.tim 15 else s.tim 14)
      (f, f + 2 * p.lns.length)))

/-- Banks held for a waiting class-P part (R161). -/
def State.pBanks (s : State) (c : Nat) : List Nat := ((s.pcParts c).filter (fun p => p.cls == .p)).map (fun p => p.bank)

/-- An access of k lines may start now for a class (R63, R158, R161); a retired bank takes no ACT (R312). -/
def State.mayStart (s : State) (c bank k : Nat) (write pcls : Bool) : Bool :=
  !((s.pc c).forced.contains bank) && !((s.pc c).rbanks.contains bank) && s.canAct c bank k write s.clk.now &&
    (pcls || (!(s.pBanks c).contains bank &&
      (let f := s.clk.now + s.tim 1 + (if write then s.tim 15 else s.tim 14)
       (s.pNeeds c).all (fun x => decide (f + 2 * k ≤ x.1) || decide (x.2 ≤ f)))))

/-- The class may be served in the current slot (R60, R63). -/
def State.granted (s : State) (cls : Cls) : Bool := grants s.anvil.slotWord cls

/-- Work that its own rule lets go now: a Seam write whose new line is known (R195), the walk while its debt stands (R190), and a line of the
rebuild or resynchronisation within the frame's REBUILD_LIMIT (R200, R204). -/
def State.mayGo (s : State) (p : Part) : Bool :=
  match p.origin with
  | .seamNew _ => !s.seamWaits p
  | .pickleWalk => decide (0 < (s.pc p.pc).pkDebt)
  | .rebuildW => decide (s.seam.wrote + p.lns.length ≤ (s.reg 0x4900 3).toNat)
  | .rebuild => decide (2 < s.n) || decide (s.seam.wrote + p.lns.length ≤ (s.reg 0x4900 3).toNat)
  | .req => true | .homeRead _ => true | .homeWrite _ => true | .pickleFix => true | .pickleBack => true | .seamOld _ => true
  | .seamPoison _ => true | .standRead _ => true | .poison => true | .row => true

/-- The candidates of a pseudo-channel (R160). -/
def State.cands (s : State) (c : Nat) : List Cand :=
  (s.pcParts c).filterMap (fun p =>
    match selClass ((s.pcParts c).filter (fun q => q.bank == p.bank)) p with
    | none => none
    | some k => if s.granted k && s.mayGo p && s.mayStart c p.bank p.lns.length p.write (k == .p) then some ⟨p, k⟩ else none)

/-- The key of R160. -/
def candBefore (a b : Cand) : Bool :=
  if a.cls ≠ b.cls then decide (clsNo a.cls < clsNo b.cls)
  else if a.cls = .p then decide (a.p.turn < b.p.turn)
  else match a.p.promoted, b.p.promoted with
    | some x, some y => if x ≠ y then decide (x < y) else decide (a.p.turn < b.p.turn)
    | some _, none => true
    | none, some _ => false
    | none, none => if a.p.finish ≠ b.p.finish then serNewer a.p.finish b.p.finish else decide (a.p.turn < b.p.turn)

/-- The candidates that the fall-back order puts first (R165). -/
def State.fallCands (s : State) (c : Nat) (l : List Cand) : List Cand :=
  let ps := l.filter (fun x => x.cls == .p)
  let blocks := fun (x : Cand) => x.p.write && inOrder ((s.pcParts c).filter (fun q => q.bank == x.p.bank))
  let pref := l.filter (fun x => x.p.write == (s.pc c).drain || blocks x)
  if !ps.isEmpty then ps else if !pref.isEmpty then pref else l

/-- The head of the next access (R160). -/
def State.head (s : State) (c : Nat) : Option Cand :=
  firstMin candBefore (if (s.pc c).fall = 0 then s.cands c else s.fallCands c (s.cands c))

/-- The parts that may ride in an access behind those it has (R157): of the head's queue, bank and row, eligible, whole, with no line of the
access. Those of the access stand as issued in the order of their bank, but a bank in in-order mode stays so for this cycle (R163). -/
def State.riders (s : State) (c : Nat) (h : Cand) (a : List Part) : List Cand :=
  let bank := (s.pcParts c).filter (fun q => q.bank == h.p.bank)
  let left := bank.filter (fun q => !a.any (samePart q))
  let k0 := a.foldl (fun n x => n + x.lns.length) 0
  left.filterMap (fun p =>
    let cls := if inOrder bank then (if left.all (fun q => decide (p.turn ≤ q.turn)) then some (topClass left) else none) else selClass left p
    match cls with
    | some k =>
      if p.write == h.p.write && p.row == h.p.row && s.granted k && s.mayGo p && decide (k0 + p.lns.length ≤ 4) &&
          !a.any (fun x => shareLine x p) && s.mayStart c p.bank (k0 + p.lns.length) p.write (h.cls == .p) then some ⟨p, k⟩ else none
    | none => none)

/-- The parts of an access (R157): those it has, then the first rider by key, until none fits. -/
def State.accessMore (s : State) (c : Nat) (h : Cand) : Nat → List Part → List Part
  | 0, a => a
  | fuel + 1, a => match firstMin candBefore (s.riders c h a) with
    | some x => s.accessMore c h fuel (a ++ [x.p])
    | none => a

/-- The parts of the access headed by a candidate (R157). -/
def State.access (s : State) (c : Nat) (h : Cand) : List Part := s.accessMore c h 3 [h.p]

/-! ### Issue -/

/-- The counter class of a part (R135). -/
def byteClass (p : Part) : Nat := if p.req.port = 29 then 5 else if p.req.port = 28 then 6 else clsNo p.cls

/-- The lines of a part in ascending column order (R157). -/
def Part.sorted (p : Part) : List PLn :=
  (List.range 16).flatMap (fun c => p.lns.filter (fun l => l.col == c))

/-- A class-P part's wait, measured to its first data (R175). -/
def State.late (s : State) (c : Nat) (p : Part) (first : Nat) : State :=
  match p.pSince with
  | none => s
  | some t =>
    if p.cls = .p ∧ 2048 < first - t then
      (s.count 0x4000 9).logLim 0x0705 0 8192 1 (fun _ => [w16 c, w16 p.bank, sat16 (first - t)])
    else s

/-- A line of a request waits at the home agent (R221, R229). -/
def State.homeHolds (s : State) (r : HReq) : Bool :=
  let mine := fun (x : Nat × HReq) => sameReq x.2 r
  s.ha.plain.any mine || s.ha.plainWait.any mine || s.ha.held.any (fun x => sameReq x r) ||
    s.ha.txns.any (fun x => (match x.req with | some q => sameReq q r | none => false) || (match x.next with | some q => mine q | none => false))

/-- A line of a request waits at the home agent for an access that has not been issued (R138). -/
def State.homeOwes (s : State) (r : HReq) : Bool :=
  let mine := fun (x : Nat × HReq) => sameReq x.2 r
  s.ha.plain.any mine || s.ha.plainWait.any mine || s.ha.held.any (fun x => sameReq x r) ||
    s.ha.txns.any (fun x => (match x.req with | some q => sameReq q r && !x.stackDue && x.busy != .wb | none => false) ||
      (match x.next with | some q => mine q | none => false))

/-- The entry that a request of this tile holds of its share is free once its access is issued (R138). -/
def State.freeShare (s : State) (r : HReq) : State :=
  if r.tile = s.t then
    match (s.port r.port).find r.txid with
    | some o => if o.share then (s.setOnward r.port { o with share := false }).addShare o.home (-1) else s
    | none => s
  else s

/-- What a part's issue does but for the commands (R132, R135, R138, R148): bytes and lines counted, its wait measured, and once no
part of its request is left, the entry share of this tile, and the notice to the entry tile: of a posted write that needs nothing more, and to another
tile's request that its entry is free (log entry 72). DESIGN CHOICE: the read of a Seam write's old line counts among its queue's lines too (log entry 72). -/
def State.partIssued (s : State) (c : Nat) (p : Part) (first : Nat) : State :=
  let n := p.lns.length
  let s1 := (s.count (0x3500 + byteClass p) (if p.write then 5 else 1) (64 * n)).late c p first
  let s2 := if p.queue < 1024 then s1.count (0x3600 + p.queue) 10 n else s1
  if p.internal || s2.sched.parts.any (fun x => sameReq x.req p.req) || s2.homeOwes p.req then s2
  else
    let s3 := if p.req.op ≠ .writePosted ∧ p.req.tile ≠ s.t ∧ p.req.txid ≠ 0 ∨ p.origin = .req ∧ p.req.op = .writePosted ∧ !s2.homeHolds p.req then
      s2.ring (.notice p.req.tile p.req.port p.req.txid) else s2
    s3.freeShare p.req

/-- The commands of an access at the current cycle (R157, R158): the ACT, its columns, the bookings and the lines in flight. -/
def State.issue (s : State) (c : Nat) (ps : List Part) : State :=
  match ps with
  | [] => s
  | h :: _ =>
    let q := s.pc c
    let t := s.clk.now
    let lns := ps.flatMap (fun p => p.sorted.map (fun l => (p, l)))
    let k := lns.length
    let col := t + s.tim 1
    let lat := if h.write then s.tim 15 else s.tim 14
    let ready := t + (if h.write then writeEnvelope s.tim k else readEnvelope s.tim k)
    let s1 := s.emit (.stack c t (.act h.bank h.row))
    let s2 := lns.zipIdx.foldl (fun a x => a.emit (.stack c (col + 2 * x.2)
      (if h.write then .wr h.bank x.1.2.col (x.2 + 1 == k) else .rd h.bank x.1.2.col (x.2 + 1 == k)))) s1
    let fl := lns.zipIdx.map (fun x =>
      Flight.mk c h.bank h.row h.write (x.1.1.origin.ofLine x.1.2) x.1.1.req x.1.2 (x.2 + 1 == k) (col + lat + 2 * (x.2 + 1)) false)
    let s3 := s2.setPc c { q with
      rowFree := t + s.tim 5, acts := (t :: q.acts).take 4, bankReady := q.bankReady.set h.bank ready,
      bankRc := q.bankRc.set h.bank (t + s.tim 4), idleFrom := max q.idleFrom ready,
      cal := (q.cal.filter (fun b => decide (t ≤ b.2.1 + 4096))) ++ [(col + lat, col + lat + 2 * k, h.write)] }
    let qs := (ps.map (fun p => p.queue)).eraseDups
    let s4 := qs.foldl (fun a x => a.mark x) s3
    let sc := { s4.sched with flight := s4.sched.flight ++ fl, parts := s4.sched.parts.filter (fun p => !ps.any (samePart p)) }
    let s5 := ({ s4 with sched := sc }).count (0x4100 + c) 7
    let s6 := s5.count (0x4100 + c) 11 k
    let at_ := fun (p : Part) => match lns.zipIdx.find? (fun x => samePart x.1.1 p) with
      | some x => col + lat + 2 * x.2
      | none => col + lat
    ((ps.foldl (fun a p => a.partIssued c p (at_ p)) s6).fixV).drainCheck c

/-- The domains that a pseudo-channel's work goes through are reported usable: its scheduler's half, the line code, the PHY and its group (R29,
R31). -/
def State.pcPowered (s : State) (c : Nat) : Bool := s.dom (if c < 32 then 6 else 7) && s.dom 10 && s.dom 12 && s.dom (13 + c / 4)

/-- A pseudo-channel's stack may take commands: its domains are usable, the stack in service, the tile neither fenced
nor the pseudo-channel retired (R10, R29, R74, R160, R318). -/
def State.pcServes (s : State) (c : Nat) : Bool :=
  s.pcPowered c && s.store.ready && !s.store.selfRef && s.repair.fenced.isNone && !s.repair.stackRetired && !(s.pc c).retired

/-- A pseudo-channel is stopped for its classes and opportunities: by PLAN or ASSAY, or by a recovery (R62, R66). -/
def State.pcStopped (s : State) (c : Nat) : Bool := (s.pc c).stopped || (s.pc c).recov

/-! ### Refreshes that go first -/

/-- A pseudo-channel may be refreshed (R71, R74, R317). -/
def State.refreshes (s : State) (c : Nat) : Bool :=
  s.dom 2 && s.anvil.lockstepOk && s.store.ready && !s.store.selfRef && s.repair.fenced.isNone && !s.repair.stackRetired && !(s.pc c).retired

/-- A bank's refresh debt. -/
def PcSt.debt (q : PcSt) (b : Nat) : Int := q.debts.getD b 0

/-- Banks in order of debt, the highest first, ties by the lowest number (R72, R73). -/
def PcSt.worst (q : PcSt) (l : List Nat) : Option Nat :=
  firstMin (fun a b => if q.debt a ≠ q.debt b then decide (q.debt b < q.debt a) else decide (a < b)) l

/-- −PULLIN_LIMIT, below which no refresh takes a debt (R71). -/
def State.pullin (s : State) : Int := -((s.reg 0x2100 6).toNat : Int)

/-- The pending forced refreshes that may still be issued: a bank at −PULLIN_LIMIT takes none (R71, R73). -/
def State.forcedOf (s : State) (c : Nat) : List Nat := (s.pc c).forced.filter (fun b => decide (s.pullin < (s.pc c).debt b))

/-- The forced refresh that a pseudo-channel can issue at a cycle of the frame (R73). -/
def State.forcedAt (s : State) (c t : Nat) : Option Nat :=
  let q := s.pc c
  if !s.refreshes c then none
  else q.worst ((s.forcedOf c).filter (fun b => decide (q.bankReady.getD b 0 ≤ t) && decide (q.rowFree ≤ t) &&
    decide (t + s.tim 12 ≤ frameEnd s.clk.now) && q.down.isNone))

/-- The forced refresh that a pseudo-channel can issue at the current cycle (R73). -/
def State.forcedNext (s : State) (c : Nat) : Option Nat := s.forcedAt c s.clk.now

/-- A pending forced refresh can still be issued in the frame (R73): it goes ahead of the slot's maintenance (R63). -/
def State.forcedAhead (s : State) (c : Nat) : Bool :=
  let q := s.pc c
  (s.forcedOf c).any (fun b => decide (max (max s.clk.now q.rowFree) (q.bankReady.getD b 0) + s.tim 12 ≤ frameEnd s.clk.now))

/-- The bank that takes a REFPB refresh at a cycle (R72, R162): idle then, above −PULLIN_LIMIT, its refresh ended before the tick; a bank with a forced
refresh pending takes that. -/
def State.refpbAt (s : State) (c t : Nat) (done : List Nat) : Option Nat :=
  let q := s.pc c
  q.worst ((List.range s.banks).filter (fun b => !done.contains b && decide (s.pullin < q.debt b) && !q.forced.contains b &&
    decide (q.bankReady.getD b 0 ≤ t) && decide (t + s.tim 12 ≤ frameEnd s.clk.now)))

/-- The cycle of the next refresh of a pseudo-channel's REFPB batch (R162). -/
def State.refpbTime (s : State) (c : Nat) : Nat := max (max s.clk.now (s.pc c).rowFree) (s.pc c).refpbFrom

/-- A refresh of the REFPB batch goes at the current cycle (R63, R162). -/
def State.refpbNow (s : State) (c : Nat) : Bool :=
  let q := s.pc c
  s.refreshes c && q.refpb != 0 && !q.refab && s.refpbTime c == s.clk.now && (s.refpbAt c s.clk.now q.refpbDone).isSome

/-- A refresh goes ahead of the classes and opportunities of a pseudo-channel at the current cycle (R63, R160). -/
def State.refreshFirst (s : State) (c : Nat) : Bool := (s.forcedNext c).isSome || s.refpbNow c

/-! ### Requests at hand -/

/-- An age one tick on (R153). -/
def older (a : Nat) : Nat := min (a + 1) 511
/-- A request one tick older. -/
def HReq.older (r : HReq) : HReq := { r with age := Machine.older r.age }

/-- A bucket holds the write part of a Seam write (R142, R153). -/
def State.seamHeld (s : State) (w : SeamWr) : Bool :=
  s.sched.parts.any (fun p => p.rel.isNone && p.origin == .seamNew w.no && p.lns.any (fun l => l.addr == w.line) && !s.bucketOk p)

/-- The requests at hand that are no parts: in the cipher lanes or on their way to the home, at the home agent, held, waiting for the members of
their row, behind the writes and updates of the Seam engine (R153, R154). -/
def State.mapReqs (s : State) (f : HReq → HReq) (g : Onward → Onward) (h : SeamWr → Bool := fun _ => true) : State :=
  let req := fun (x : Nat × HReq) => (x.1, f x.2)
  { s with
    ports := s.ports.mapVals (fun _ q => { q with onward := q.onward.map g }),
    ha := { s.ha with plain := s.ha.plain.map req, plainWait := s.ha.plainWait.map req, held := s.ha.held.map f,
                      txns := s.ha.txns.map (fun (x : Txn) => { x with req := x.req.map f, next := x.next.map req }) },
    seam := { s.seam with recons := s.seam.recons.map (fun (x : Recon) => { x with req := f x.req }),
                          writes := s.seam.writes.map (fun (w : SeamWr) => if h w then { w with req := f w.req } else w),
                          updates := s.seam.updates.map (fun (u : SeamUpd) => { u with req := f u.req }) } }

end Sys2Proof.Machine
end

