-- ==== Sys2Proof/Machine/StackOps.lean ====
section
/-!
DEFINITION. What happens at the home tile around its stack: a request's lines given to their queues or stand-ins (R47, R136, R195,
R199, R314, R315), the lines that come back (R183, R188, R191-R193, R198, R408), writes that complete (R17, R109, R195) and the accesses
of Pickle and of the Seam engine (R61, R189-R192, R200, R204).
-/
namespace Sys2Proof.Machine
open Sys2Proof

/-! ### Writes that complete -/

/-- Work of a request is still under way at this home. -/
def State.busyReq (s : State) (r : HReq) : Bool :=
  s.sched.parts.any (fun p => sameReq p.req r && !p.internal) || s.sched.flight.any (fun f => sameReq f.req r) ||
    s.seam.writes.any (fun w => sameReq w.req r) || s.seam.recons.any (fun x => sameReq x.req r) || s.homeHolds r

/-- One line of a write is done (R92, R109, R132, R229): a failed line of a posted write is reported; the acknowledgement follows the
last line, POISON if any failed, else PARTITION if any was refused in doubt; `notice` sends the completion notice of a posted write after its last line. -/
def State.lineWritten (s : State) (r : HReq) (idx : Nat) (cause : Nat) (notice : Bool) : State :=
  let me := (r.tile, r.port.val, r.txid)
  let s1 := if cause = 0 then s
    else if r.op = .writePosted then s.answerPosted r idx cause
    else if cause = 6 then { s with sched := { s.sched with wpart := if s.sched.wpart.contains me then s.sched.wpart else s.sched.wpart ++ [me] } }
    else { s with sched := { s.sched with wfail := if s.sched.wfail.contains me then s.sched.wfail else s.sched.wfail ++ [me] } }
  if s1.busyReq r then s1
  else
    let s2 := { s1 with sched := { s1.sched with wfail := s1.sched.wfail.filter (fun x => x ≠ me), wpart := s1.sched.wpart.filter (fun x => x ≠ me) } }
    if r.op = .writeAck then
      s2.answer r [noData 0 (if s1.sched.wfail.contains me then .poison else if s1.sched.wpart.contains me then .partition else .ok)] .none
    else if r.op = .writePosted ∧ notice then s2.ring (.notice r.tile r.port r.txid)
    else s2

/-! ### Seam writes -/

/-- The stripe row of a tile-local address in the Seam part (R45). -/
def State.rowOf (s : State) (loc : Nat) : Nat := (loc - s.map.ord) / 4096

/-- The tile that holds the parity or mirror of a Seam line (R45, R46). -/
def State.parityTile (s : State) (loc : Nat) : Nat := if s.n = 2 then 1 - s.t else s.map.parityOf (s.rowOf loc)

/-- Stripe rows of the Seam part (R45). -/
def State.rows (s : State) : Nat := s.map.seam / 4096
/-- The tile-local address of a row (R45). -/
def State.rowAddr (s : State) (j : Nat) : Nat := s.map.ord + 4096 * j
/-- A line's bit within its row. -/
def State.lineBit (s : State) (loc : Nat) : Nat := (loc - s.map.ord) / 64 % 64

/-- The tile whose line stands rebuilt here in place of a parity line (R200). -/
def State.rebuiltAt (s : State) (loc : Nat) : Option Nat :=
  if loc < s.map.ord then none
  else (s.seam.switched.find? (fun e => e.1 == s.rowOf loc && e.2.2.testBit (s.lineBit loc))).map (fun e => e.2.1)

/-- What a tile's stack held at a line is gone (R199, R315). -/
def State.goneAt (s : State) (u loc : Nat) : Bool := s.retiredAt u loc || s.lostAt u loc

/-- A tile of the row other than this one has lost its data line there (R199, R315). -/
def State.lostMember (s : State) (loc : Nat) : Option Nat :=
  (List.range s.n).find? (fun u => u != s.t && u != s.parityTile loc && s.goneAt u loc)

/-- The tile whose line the rebuild of a row makes at a line: the one noted as the row was taken up, else the one that lost it (R200). -/
def State.jobFor (s : State) (j : SeamJob) (loc : Nat) : Option Nat :=
  match j.who.find? (fun e => e.2.testBit (s.lineBit loc)) with
  | some e => some e.1
  | none => s.lostMember loc

/-- The tile whose line has been written here in place of a parity line (R200, R201): in a row that has switched, or in the row at work. -/
def State.copyOf (s : State) (loc : Nat) : Option Nat :=
  match s.rebuiltAt loc, s.seam.job with
  | some u, _ => some u
  | none, some j =>
    if !j.resync && decide (s.map.ord ≤ loc) && s.rowOf loc == j.row && j.done.testBit (s.lineBit loc) then s.jobFor j loc else none
  | none, none => none

/-- A Seam write whose parity or mirror is gone is written alone (R199, R201, R315). -/
def State.noParity (s : State) (loc : Nat) : Bool := s.goneAt (s.parityTile loc) loc

/-- A request without what only its entry tile needs: what the parts of a Seam update carry on (R195). -/
def HReq.bare (r : HReq) : HReq := { r with txid := 0, data := [] }

/-- The update of a Seam write on its way to the parity or mirror tile (R195 step 3, R197). -/
def State.seamUpdOf (s : State) (w : SeamWr) (no : Nat) (delta : Line) (old new : Bool) (whole : Option Line) : SeamUpd :=
  let g := (SMap.look s.sched.tags (reqKey w.req)).getD s.noTag
  { home := s.t, no := no, req := w.req.bare, start := g.start, finish := g.finish, line := w.line, delta := delta, oldPoison := old, newPoison := new,
    whole := whole }

/-- A line does not decode. -/
def Member.broken (m : Member) : Bool := m.res == .misplaced || m.res == .uncorrectable
/-- A line decodes as good or corrected. -/
def Member.fine (m : Member) : Bool := m.res == .good || m.res == .corrected
/-- The XOR of members' data symbols. -/
def xorMembers (ms : List Member) : Line := ms.foldl (fun a m => a ^^^ m.data) 0

/-- An update needs the row's other data lines (R195 step 4): Δ is unknown, the parity's poison may end, or the parity line read does not decode. With
n = 2 the copy is whole. -/
def asksRow (n : Nat) (old : Member) (u : SeamUpd) : Bool :=
  n != 2 && (u.whole.isSome || old.broken || (u.oldPoison && !u.newPoison && old.res == .poisoned))

/-- The new parity line of an update (R195 step 4): `old` is the parity line read, `ms` the row's data lines that were asked for. DESIGN CHOICE: a parity
line that does not decode is made anew from all data lines of its row, as Pickle makes it (R191), for want of a rule in R195 (log entry 72). -/
def newParity (old : Member) (u : SeamUpd) (ms : List Member) : PLine :=
  let anyPoison := ms.any (fun m => m.res == .poisoned)
  let broken := ms.any Member.broken
  match u.whole with
  | some new => ⟨new ^^^ xorMembers ms, u.newPoison || anyPoison || broken⟩
  | none =>
    if old.broken then ⟨xorMembers ms, u.newPoison || anyPoison || broken⟩
    else
      let was := old.res == .poisoned
      ⟨old.data ^^^ u.delta, if u.newPoison then true else if u.oldPoison && was then anyPoison else was⟩

/-- The other tiles of a line's row, but for those named, are asked for their lines there (R195, R198-R200). -/
def State.askRow (s : State) (l : Nat) (but : List Nat) : State :=
  s.ring (.memberRead l ((List.range s.n).filter (fun u => u != s.t && !but.contains u)))

/-- An update's other data lines are asked for: all but the home's own where the home's new line or Δ stands for it. -/
def State.askUpdate (s : State) (w : SeamWr) (old : Member) (u : SeamUpd) : State :=
  (s.setSeam { w with par := some old }).askRow w.line (if u.whole.isNone && old.broken then [] else [u.home])

/-- The new parity line of an update is known (R195 step 4). -/
def State.parityNew (s : State) (w : SeamWr) (p : PLine) : State := (s.setSeam { w with new := p, old := some none }).setNew w.no w.line p

/-- The line that a Seam write depends on is known (R187, R195 steps 1 to 4): at the home the update goes out, and a line poisoned by the block
keeps its data; at the parity tile the new parity line is formed. `old` is what was read. -/
def State.seamOldRead (s : State) (no loc : Nat) (old : Member) : State :=
  match s.seamBy no loc with
  | none => s
  | some w =>
    match w.kind with
    | .data =>
      let new : PLine := if w.keep then ⟨old.data, true⟩ else w.new
      let s1 := (s.setSeam { w with new := new, old := some (if old.broken then none else some ⟨old.data, old.res == .poisoned⟩) }).setNew no loc new
      if w.acked then s1
      else if old.broken || s.n == 2 then s1.ring (.seamUpdate (s.parityTile loc) (s.seamUpdOf w no 0 false new.poison (some new.data)))
      else s1.ring (.seamUpdate (s.parityTile loc) (s.seamUpdOf w no (old.data ^^^ new.data) (old.res == .poisoned) new.poison none))
    | .parity u => if asksRow s.n old u then s.askUpdate w old u else s.parityNew w (newParity old u [])
    | .stand => s

/-- A Seam write starts that depends on no line of this stack (R195, R197): its update, if it has one, is sent at once. -/
def State.startAlone (s : State) (w : SeamWr) : State :=
  match w.kind with
  | .stand => (s.setSeam { w with started := true }).askRow w.line (s.lostMember w.line).toList
  | .parity u =>
    let old : Member := ⟨0, .good⟩
    if asksRow s.n old u then s.askUpdate { w with started := true } old u else s.parityNew { w with started := true } (newParity old u [])
  | .data =>
    let s1 := s.setSeam { w with started := true, old := some none }
    if w.acked then s1 else s1.ring (.seamUpdate (s.parityTile w.line) (s.seamUpdOf w w.no 0 false w.new.poison (some w.new.data)))

/-- A Seam write must read its line first (R195): at the home while the row has parity, at the parity tile to apply Δ, and to keep a line's data. -/
def State.readsOld (s : State) (w : SeamWr) : Bool :=
  match w.kind with
  | .data => w.keep || (decide (2 < s.n) && !w.acked)
  | .parity u => u.whole.isNone
  | .stand => false

/-- The write part of a Seam write may start: the Seam engine is on (R31), none earlier is under way on its lines, and none of them has started (R196). -/
def State.seamCan (s : State) (p : Part) (no : Nat) : Bool :=
  s.dom 11 && p.lns.all (fun l => match s.seamOf l.addr with
    | some w => w.no == no && !w.started
    | none => false)

/-- The Seam engine takes a write that has come to the write queue (R195 step 1, R196): the lines it must read join the read queue with its class, age
and tags and its turn, once that queue has room for them. -/
def State.seamStart (s : State) (p : Part) (no : Nat) : State :=
  let ws := p.lns.filterMap (fun l => s.seamBy no l.addr)
  let reads := p.lns.filter (fun l => match s.seamBy no l.addr with
    | some w => s.readsOld w
    | none => false)
  let rp : Part := { p with seq := s.sched.seq + 1, origin := .seamOld no, lns := reads, write := false }
  if !reads.isEmpty && !s.hasRoom rp p.cls then s
  else
    let s1 := if reads.isEmpty then s else { s with sched := { s.sched with seq := s.sched.seq + 1, parts := s.sched.parts ++ [rp] } }
    ws.foldl (fun z w => if s.readsOld w then z.setSeam { w with started := true } else z.startAlone w) s1

/-- A line that a Seam write leaves as poison, its parity or mirror having failed (R17, R109), joins the write queue ahead of what waits there, once that has
room for its class (R150); a write-back of Pickle's that waits gives way to it (R191). -/
def State.poisonAgain (s : State) (w : SeamWr) : State :=
  let pl := s.map.place w.line
  let g := (SMap.look s.sched.tags (reqKey w.req)).getD s.noTag
  let p : Part := { seq := s.sched.seq + 1, origin := .seamPoison w.no, req := w.req, queue := g.queue, pc := pl.pc, bank := pl.bank, row := pl.row,
                    lns := [{ col := pl.col, addr := w.line, idx := w.idx, d := ⟨w.new.data, true⟩ }], write := true, cls := s.joinCls w.req, calm := w.req.cls,
                    promoted := w.req.promoted, age := w.req.age, k := g.k, start := g.start, finish := g.finish, joined := s.clk.now,
                    rel := some 0, pSince := if s.joinCls w.req = .p then some s.clk.now else none }
  if !s.hasRoom p p.cls then s
  else
    (((({ s with sched := { s.sched with seq := s.sched.seq + 1, parts := s.sched.parts ++ [p] } }).overtake p).setSeam { w with started := false }).wakePc
      pl.pc).drainCheck pl.pc

/-- The Seam engine goes on with what waits on a pseudo-channel (R195, R196). -/
def State.seamPump (s : State) (c : Nat) : State :=
  let s1 := (s.seam.writes.filter (fun w => w.again.isSome && w.started && (s.map.place w.line).pc == c)).foldl (fun z w => z.poisonAgain w) s
  (s1.pcParts c).foldl (fun z p => match p.origin with
    | .seamNew no => if z.seamCan p no then z.seamStart p no else z
    | .req => z | .homeRead _ => z | .homeWrite _ => z | .pickleWalk => z | .pickleFix => z | .pickleBack => z | .seamOld _ => z
    | .seamPoison _ => z | .standRead _ => z | .rebuild => z | .rebuildW => z | .poison => z | .row => z) s1

/-- The number of the Seam write of a request whose part its lines join (R151). -/
def State.seamPartNo (s : State) (r : HReq) (ls : List PLn) : Option Nat :=
  (s.sched.parts.find? (fun x => x.rel.isNone && !x.internal && sameReq x.req r && x.origin.seamNo.isSome && ls.any (fun l =>
    (s.map.place l.addr).pc == x.pc && (s.map.place l.addr).bank == x.bank && (s.map.place l.addr).row == x.row))).bind (fun x => x.origin.seamNo)

/-- Seam writes of lines under given tags: their part joins its queue, and a record of each line stands for what the write has still to do. -/
def State.seamWriteAs (s : State) (g : Tag) (r : HReq) (o : Origin) (kind : SeamKind) (keep : Bool) (ls : List PLn) : State :=
  let no := (s.seamPartNo r ls).getD (s.sched.seq + 1)
  let ws := ls.map (fun l => ({ no := no, line := l.addr, kind := kind, o := o, req := r, idx := l.idx, new := l.d, keep := keep,
                                acked := (match kind with | .data => s.noParity l.addr | .parity _ => true | .stand => true) } : SeamWr))
  let s1 := s.joinAs r (.seamNew no) true g ls
  { s1 with seam := { s1.seam with writes := s1.seam.writes ++ ws } }

/-- Seam writes of a request's lines, with its own tags. -/
def State.seamWrite (s : State) (r : HReq) (o : Origin) (kind : SeamKind) (keep : Bool) (ls : List PLn) : State :=
  let c := s.stamp r
  c.1.seamWriteAs c.2 r o kind keep ls

/-- What a Seam write was for learns that it is done (R17, R109, R132, R195 steps 5 and 6): a request's line, the acknowledgement of an update, or the
home agent's write, whose end HOME_WRITEBACK_DONE tells. -/
def State.seamDone (s : State) (w : SeamWr) (cause : Nat) : State :=
  match w.kind with
  | .parity u => if u.no = 0 ∧ 2 < s.n ∧ u.whole.isNone then s else s.ring (.seamAck u.home u.line u.no (cause == 0))
  | .data => if w.o = .req then s.lineWritten w.req w.idx cause true else s
  | .stand => if w.o = .req then s.lineWritten w.req w.idx cause true else s

/-- A Seam write completes once its line is written and its parity acknowledged (R195). If the line's write failed the parity is told; if the parity failed
the line is written as poison, and the parity told (R17, R109). The next write to the line then starts (R196). -/
def State.endSeam (s : State) (w : SeamWr) (cause : Nat) : State :=
  let pc := (s.map.place w.line).pc
  if !(w.written && w.acked) then s
  else
    let close := fun (z : State) => { z with seam := { z.seam with writes := z.seam.writes.filter (fun x => !(x.no == w.no && x.line == w.line)) } }
    let tell := fun (z : State) =>
      if z.seam.readOnly || z.noParity w.line then z
      else z.ring (.seamUpdate (z.parityTile w.line) (z.seamUpdOf w 0 0 false true (if z.n = 2 then some w.new.data else none)))
    match w.kind, w.failed with
    | .data, true =>
      if cause = 2 ∧ w.again.isNone then (s.setSeam { w with again := some cause, started := true }).seamPump pc
      else ((tell (close s)).seamDone w (w.again.getD cause)).seamPump pc
    | _, f => ((close s).seamDone w (if f then cause else 0)).seamPump pc

/-- A part of a Seam write's line has been written (R195 steps 2 and 4, R17). -/
def State.seamWritten (s : State) (no loc : Nat) (ok : Bool) : State :=
  match s.seamBy no loc with
  | none => s
  | some w =>
    let w1 := { w with written := true, failed := w.failed || !ok }
    (s.setSeam w1).endSeam w1 (if ok then (match w.kind with | .data => 2 | .parity _ => 2 | .stand => 1) else 1)

/-! ### A request's lines at the home -/

/-- The lines of a request with their tile-local addresses and data; a piece of a request numbers them as the request does. -/
def State.reqLines (s : State) (r : HReq) : List PLn :=
  (List.range r.lines).map (fun i =>
    let loc := (s.map.home (r.addr + 64 * i)).loc
    { col := (s.map.place loc).col, addr := loc, idx := r.first + i, d := nth r.data i ⟨0, false⟩ })

/-- Line `idx` of a request alone, which keeps the length that the request has as a whole (R144). -/
def HReq.lineAt (r : HReq) (idx : Nat) : HReq :=
  { r with lines := 1, total := if r.total = 0 then r.lines else r.total, addr := r.addr + 64 * (idx - r.first), first := idx,
           data := (r.data.drop (idx - r.first)).take 1 }

/-- What a home sends to the stand-in for a line that is gone at the home itself: a line of a port's request, or the read or write that the home agent
needs, as work of P28 (R199, R315). -/
def State.passLine (s : State) (q : Nat) (r : HReq) (o : Origin) (l : PLn) : State :=
  let x := r.lineAt l.idx
  if o = .req then s.sendRequest q x
  else s.sendRequest q { internalReq s.t 28 (if isWrite r.op then .writePosted else .read) x.addr with data := x.data }

/-- What reads for the home agent learns that its line cannot be read (R314). -/
def State.homeLost (s : State) (no : Nat) : State :=
  { s with ha := { s.ha with txns := s.ha.txns.map (fun x => if x.no = no then { x with stack := some ⟨0, true⟩ } else x) } }

/-- Lines of a request that lie in a retired unit are answered (R314), a posted write's completion with its last line. -/
def State.linesRetired (s : State) (r : HReq) (idxs : List Nat) (addr : Nat) : State :=
  if r.op = .writeAck then idxs.foldl (fun z i => z.lineWritten r i 1 false) (s.retiredHit addr r.op)
  else
    let s1 := s.answerRetired r idxs addr
    if r.op = .writePosted ∧ !s1.busyReq r then s1.ring (.notice r.tile r.port r.txid) else s1

/-- Lines of the ordinary part (R136, R314): those of a retired unit are answered, the others join a queue. -/
def State.queueOrdinary (s : State) (r : HReq) (o : Origin) (ls : List PLn) : State :=
  let bad := ls.filter (fun l => s.ownRetired (s.map.place l.addr))
  let good := ls.filter (fun l => !s.ownRetired (s.map.place l.addr))
  let s1 := if good.isEmpty then s else s.joinQueue r o (isWrite r.op) good
  if bad.isEmpty then s1
  else match o with
    | .homeRead no => (s1.homeLost no).retiredHit r.addr r.op
    | .homeWrite _ => s1.retiredHit r.addr r.op
    | .poison => s1
    | .req | .pickleWalk | .pickleFix | .pickleBack | .seamOld _ | .seamNew _ | .seamPoison _ | .standRead _ | .rebuild | .rebuildW | .row =>
      s1.linesRetired r (bad.map (fun l => l.idx)) r.addr

/-- A read that waits for the members of its row, after this tile's own parity line where `own` is still to be read (R198, R199). -/
def State.addRecon (s : State) (no l : Nat) (o : Origin) (r : HReq) (idx : Nat) (own : Option Member) (stale : Bool := false) (was : Line := 0) : State :=
  { s with seam := { s.seam with recons := s.seam.recons ++ [Recon.mk no l o r idx own stale was] } }

/-- A line to be made again from the other members of its row (R198); `stale` as the flight that read it (R191), `was` its symbols as read. -/
def State.askMembers (s : State) (l : Nat) (o : Origin) (r : HReq) (idx : Nat) (stale : Bool) (was : Line) : State :=
  (s.addRecon 0 l o r idx (some ⟨0, .good⟩) stale was).askRow l []

/-- A Seam line of which nothing survives here (R201, R316): it reads as poison and takes no write. -/
def State.lineLost (s : State) (r : HReq) (o : Origin) (idx : Nat) : State :=
  match o with
  | .req => if isWrite r.op then s.lineWritten r idx 1 true else s.answer r [noData idx .poison] .none
  | .homeRead no => s.homeLost no
  | .homeWrite _ => s | .pickleWalk => s | .pickleFix => s | .pickleBack => s | .seamOld _ => s | .seamNew _ => s | .seamPoison _ => s
  | .standRead _ => s | .rebuild => s | .rebuildW => s | .poison => s | .row => s

/-- A Seam line served by the tile that stands in for its home (R199, R200): after the row has switched, or with n = 2, by a single
access. Before that a read takes the parity line and then asks for the other members, and a write asks for them at its turn. A line whose unit is gone
here too is lost, as is one where another tile's line stands rebuilt (R201, R316). -/
def State.standIn (s : State) (r : HReq) (o : Origin) (ls : List PLn) : State :=
  let u := (s.map.home r.addr).tile
  let whole := fun (l : PLn) => s.n == 2 || s.copyOf l.addr == some u
  let lost := fun (l : PLn) => s.ownRetired (s.map.place l.addr) || (s.n != 2 && (s.copyOf l.addr).isSome && s.copyOf l.addr != some u)
  let live := ls.filter (fun l => !lost l)
  let left := live.filter (fun l => !whole l)
  let s0 := (ls.filter lost).foldl (fun a l => a.lineLost r o l.idx) s
  let s1 := if (live.filter whole).isEmpty then s0 else s0.joinQueue r o (isWrite r.op) (live.filter whole)
  if left.isEmpty then s1
  else if isWrite r.op then s1.seamWrite r o .stand false left
  else
    let no := (s1.stamp r).1.sched.seq + 1
    left.foldl (fun a l => a.addRecon no l.addr o r l.idx none) (s1.joinQueue r (.standRead no) false left)

/-- A request that needs the stack at its home joins a queue, and its lines that are gone there go to their stand-in (R136, R195, R199, R314, R315). -/
def State.queueHome (s : State) (r : HReq) (o : Origin) : State :=
  let h := s.map.home r.addr
  let ls := s.reqLines r
  match h.parity with
  | none => if h.tile = s.t then s.queueOrdinary r o ls else s.sendRequest h.tile r
  | some q =>
    if h.tile = s.t then
      let here := ls.filter (fun l => !s.goneAt s.t l.addr)
      let s1 := (ls.filter (fun l => s.goneAt s.t l.addr)).foldl (fun a l => a.passLine q r o l) s
      if here.isEmpty then s1
      else if isWrite r.op then s1.seamWrite r o .data false here
      else s1.joinQueue r o false here
    else if q = s.t then s.standIn r o ls
    else s.sendRequest (s.serves r.addr r.lines) r

/-! ### Lines that come back -/

/-- What a decode means for the reader (R183): status and CORRECTED. -/
def decodedStatus : Decoded → Status × Bool
  | .good => (.ok, false)
  | .corrected => (.ok, true)
  | .poisoned => (.poison, false)
  | .misplaced => (.poison, false)
  | .uncorrectable => (.poison, false)

/-- The counters and events of a decode (R183). -/
def State.countDecode (s : State) (c l : Nat) (r : Decoded) : State :=
  let ev := fun (z : State) (code : Nat) => z.logLim code 0 1 1 (fun held => [w16 c] ++ three l ++ [(z.pc c).marks, sat16 held])
  match r with
  | .good => s
  | .corrected => s.count 0x4801 1
  | .poisoned => s.count 0x4801 9
  | .misplaced => ev (s.count 0x4801 13) 0x0802
  | .uncorrectable => ev (s.count 0x4801 5) 0x0801

/-- A corrected symbol counted on its lane (R193); at CE_LIMIT event 0x0803 and a lane fault (R304). -/
def State.countLane (s : State) (c : Nat) (d : Decode1) : State :=
  match d.res, d.err with
  | .good, _ => s
  | .misplaced, _ => s
  | .uncorrectable, _ => s
  | _, none => s
  | _, some p =>
    if 36 ≤ p then s
    else
      let lane := posLane p
      let q := s.pc c
      let n := q.laneCnt.getD lane 0 + 1
      let s1 := s.setPc c { q with laneCnt := q.laneCnt.set lane n }
      if n = (s.reg 0x4800 5).toNat then (s1.log1 0x0803 [w16 c, w16 lane, sat16 n]).laneFault c lane else s1

/-- A line that decodes as uncorrectable or misplaced counts for its row in the pass; ROW_LIMIT of them are a row fault (R304). -/
def State.countRow (s : State) (pl : Place) (r : Decoded) : State :=
  if r = .uncorrectable ∨ r = .misplaced then
    let q := s.pc pl.pc
    let key := 65536 * pl.bank + pl.row
    let seen := q.rowBad.getD key 0
    if seen.testBit pl.col then s
    else
      let m := seen + 2 ^ pl.col
      let s1 := s.setPc pl.pc { q with rowBad := q.rowBad.set key m }
      if popCount (BitVec.ofNat 16 m) = (s.reg 0x7800 5).toNat then s1.rowFault pl.pc pl.bank pl.row else s1
  else s

/-! ### Pickle's parts -/

/-- Groups of 4 lines that the walk of a pseudo-channel meets (R189). -/
def State.walkEnd (s : State) : Nat := s.phy.cap / 16384

/-- The place of column 0 of group k of the walk: column groups, banks, rows, stack IDs (R189). -/
def State.walkPlace (s : State) (c k : Nat) : Place :=
  let deep := k / 64
  ⟨c, deep / 2 ^ s.phy.rowBits * 16 + k / 4 % 16, deep % 2 ^ s.phy.rowBits, 4 * (k % 4)⟩

/-- The walk's position after those in retired banks (R189); a stack ID all of whose banks are retired is passed over whole. -/
def State.walkSkip (s : State) (c : Nat) : Nat → Nat → Nat
  | 0, k => k
  | fuel + 1, k =>
    let per := 64 * 2 ^ s.phy.rowBits
    let id := k / per
    let out := fun (b : Nat) => (s.pc c).rbanks.contains b
    if s.walkEnd ≤ k then k
    else if (List.range 16).all (fun b => out (16 * id + b)) then s.walkSkip c fuel ((id + 1) * per)
    else if out (s.walkPlace c k).bank then s.walkSkip c fuel (k + 1)
    else k

/-- A 4-line group of Pickle's is to be read: its part waits for the pseudo-channel's read queue (R152, R189, R192). -/
def State.groupJoin (s : State) (pl : Place) (o : Origin) : State :=
  let lns := (List.range 4).map (fun i =>
    ({ col := pl.col + i, addr := s.map.unplace { pl with col := pl.col + i }, idx := i, d := ⟨0, false⟩ } : PLn))
  s.joinAs (internalReq s.t 29 .read (s.map.unplace pl)) o false s.noTag lns

/-- The walk of a pseudo-channel is on: its pass runs, and its debt stands (R189, R190). -/
def State.walkDue (s : State) (c : Nat) : Bool :=
  let q := s.pc c
  s.seam.passOn && !q.pkDone && !q.retired && decide (0 < q.pkDebt) && bit (s.reg 0x4800 2) 15

/-- The next group of the walk joins while its debt stands and none waits (R152, R190); at its end the walk of the pass is done, and its debt is held
at 0. -/
def State.walkFeed (s : State) (c : Nat) : State :=
  if !s.walkDue c || s.sched.parts.any (fun p => p.pc == c && p.origin == .pickleWalk) then s
  else
    let k := s.walkSkip c 1024 (s.pc c).pkPos
    if s.walkEnd ≤ k then s.setPc c { s.pc c with pkPos := k, pkDone := true, pkDebt := 0 }
    else (s.setPc c { s.pc c with pkPos := k }).groupJoin (s.walkPlace c k) .pickleWalk

/-- An access of the walk is issued: it goes on, or the pass is done on this pseudo-channel (R189, R190). -/
def State.walkOn (s : State) (c : Nat) : State :=
  let q := s.pc c
  let k := q.pkPos + 1
  if s.walkEnd ≤ k then s.setPc c { q with pkPos := k, pkDone := true, pkDebt := 0 }
  else (s.setPc c { q with pkPos := k, pkDebt := q.pkDebt - 1 }).walkFeed c

/-- A corrected port read puts its line into the correction queue (R192), whose group is to be read again. -/
def State.queueFix (s : State) (c l : Nat) : State :=
  if s.seam.fixQueue.contains l then s
  else if s.seam.fixQueue.length < 64 then
    let s1 := { s with seam := { s.seam with fixQueue := s.seam.fixQueue ++ [l] } }
    let pl := s.map.place l
    if s1.sched.parts.any (fun p => p.origin == .pickleFix && p.lns.any (fun x => x.addr == l)) then s1
    else s1.groupJoin { pl with col := pl.col / 4 * 4 } .pickleFix
  else (s.count 0x4801 17).logLim 0x0806 0 8192 1 (fun _ => [w16 c] ++ three l)

/-! ### What a decoded line is for -/

/-- A line is a Seam data line of this tile, a parity or mirror line, or ordinary (R45, R46). -/
inductive LineKind | ordinary | data | parity
  deriving DecidableEq, Repr

/-- The kind of a tile-local line. -/
def State.lineKind (s : State) (l : Nat) : LineKind :=
  if l < s.map.ord then .ordinary else if (s.map.package s.t l).isSome then .data else .parity

/-- Every other member of a Seam line's row can be reached by the Seam engine, and its parity is valid (R31, R198, R201, R202, R204). -/
def State.membersThere (s : State) (l : Nat) : Bool :=
  s.dom 11 && !s.seam.readOnly && !s.awaits (s.rowOf l) &&
    (List.range s.n).all (fun u => u == s.t || (!s.goneAt u l && bit s.repair.view u))

/-- A Pickle write-back (R191): an internal write part of class BH, dropped where another write to the line has come since its read was issued; no Seam
line is rewritten while they are read-only (R202), and none in a retired unit (R312). -/
def State.writeBack (s : State) (stale : Bool) (l : Nat) (d : PLine) : State :=
  if stale || s.ownRetired (s.map.place l) || (s.lineKind l != .ordinary && s.seam.readOnly) then s
  else s.joinAs (internalReq s.t 29 .writePosted l) .pickleBack true s.noTag [{ col := (s.map.place l).col, addr := l, idx := 0, d := d }]

/-- Pickle acts on a decoded line (R191); a row that has switched holds no parity (R200). -/
def State.pickleAct (s : State) (stale : Bool) (l : Nat) (d : Decode1) (o : Origin) : State :=
  match d.res with
  | .good => s
  | .poisoned => s
  | .corrected => s.writeBack stale l ⟨d.data, false⟩
  | .misplaced => go s
  | .uncorrectable => go s
where
  /-- A line that does not decode: poison in the ordinary part, else made again from its row. -/
  go (s : State) : State :=
    if s.lineKind l = .ordinary then (s.writeBack stale l ⟨d.data, true⟩).log1 0x0804 (three l)
    else if s.membersThere l && (s.copyOf l).isNone then s.askMembers l o (internalReq s.t 29 .read l) 0 stale d.data
    else s

/-- One line's answer to the reader's port (R92). -/
def State.answerLine (s : State) (r : HReq) (idx : Nat) (st : Status) (corrected : Bool) (data : Line) : State :=
  s.answer r [⟨idx, st, corrected, if st = .ok then data else 0⟩] .none

/-- A port's or the home agent's line has been read: `d` its data with its poison. -/
def State.readDone (s : State) (o : Origin) (r : HReq) (idx : Nat) (d : PLine) (corrected : Bool) : State :=
  match o with
  | .req => s.answerLine r idx (if d.poison then .poison else .ok) corrected d.data
  | .homeRead no =>
    { s with ha := { s.ha with txns := s.ha.txns.map (fun x => if x.no = no then { x with stack := some d, corr := corrected } else x) } }
  | .homeWrite _ => s | .pickleWalk => s | .pickleFix => s | .pickleBack => s | .seamOld _ => s | .seamNew _ => s | .seamPoison _ => s
  | .standRead _ => s | .rebuild => s | .rebuildW => s | .poison => s | .row => s

/-- A reader's line as it decoded (R183, R188, R198): a Seam data line that does not decode is made again where its row can be reached. Another tile
that asked for a member of its row gets the line as it decoded. -/
def State.readerDecode (s : State) (o : Origin) (r : HReq) (idx l : Nat) (d : Decode1) : State :=
  let st := decodedStatus d.res
  if o = .req ∧ r.port.val = 28 then s.ring (.member r.tile l ⟨d.data, d.res⟩)
  else if (d.res == .misplaced || d.res == .uncorrectable) && s.lineKind l == .data && s.membersThere l then s.askMembers l o r idx false d.data
  else s.readDone o r idx ⟨d.data, st.1 != .ok⟩ st.2

/-- This tile's own parity line has been read for what waits on it (R199, R200): the other members are asked for, but for the tile whose line is made. -/
def State.ownRead (s : State) (f : Recon → Bool) (l : Nat) (m : Member) : State :=
  ({ s with seam := { s.seam with recons := s.seam.recons.map (fun (x : Recon) =>
      if x.line = l ∧ x.own.isNone ∧ f x then { x with own := some m } else x) } }).askRow l (s.lostMember l).toList

/-- The parity line read for a stand-in's reader: where the line has been rebuilt meanwhile it is the line itself (R200). -/
def State.standRead (s : State) (no l : Nat) (d : Decode1) : State :=
  let mine := fun (x : Recon) => x.no == no && x.line == l && x.own.isNone
  match s.copyOf l with
  | none => s.ownRead (fun x => x.no == no) l ⟨d.data, d.res⟩
  | some u =>
    (s.seam.recons.filter mine).foldl (fun z x =>
      z.readDone x.o x.req x.idx ⟨d.data, (decodedStatus d.res).1 != .ok || (s.map.home x.req.addr).tile != u⟩ (decodedStatus d.res).2)
      { s with seam := { s.seam with recons := s.seam.recons.filter (fun x => !mine x) } }

/-- A line of the row of a rung 2 recovery has been read (R311): into the repair buffer, or back to be verified against what it was written with. A
Seam line that does not decode is asked for from its row's other members (R198), an ordinary one held as poison. -/
def State.rowRead (s : State) (pl : Place) (l : Nat) (d : Decode1) : State :=
  match s.repair.recov with
  | none => s
  | some r =>
    if r.rung ≠ 2 ∨ r.u.pc ≠ pl.pc ∨ (pl.bank, pl.row) ∉ r.rows then s
    else
      let got : PLine := ⟨d.data, (decodedStatus d.res).1 != .ok⟩
      if decide (r.opened.toNat + 5 ≤ s.frame) then
        (if SMap.look r.held l = some got ∧ d.res ≠ .misplaced ∧ d.res ≠ .uncorrectable then
          { s with repair := { s.repair with recov := some { r with verified := insNat r.verified l } } } else s)
      else
        let s1 := { s with repair := { s.repair with recov := some { r with held := SMap.set r.held l got } } }
        if (d.res == .misplaced || d.res == .uncorrectable) && s.lineKind l != .ordinary && s.membersThere l then s1.askRow l [] else s1

/-- A decoded line handed to what it was read for. -/
def State.useDecode (s : State) (f : Flight) (d : Decode1) : State :=
  let l := f.ln.addr
  match f.origin with
  | .pickleWalk => (s.count 0x4800 8).pickleAct f.stale l d .pickleWalk
  | .pickleFix => s.pickleAct f.stale l d .pickleFix
  | .seamOld no => s.seamOldRead no l ⟨d.data, d.res⟩
  | .req => s.readerDecode .req f.req f.ln.idx l d
  | .homeRead no => s.readerDecode (.homeRead no) f.req f.ln.idx l d
  | .standRead no => s.standRead no l d
  | .row => s.rowRead ⟨f.pc, f.bank, f.row, f.ln.col⟩ l d
  | .rebuild =>
    if s.n = 2 then
      s.ring (.seamUpdate (1 - s.t)
        { home := s.t, no := 0, req := internalReq s.t 28 .writePosted l, start := 0, finish := 0, line := l,
          delta := 0, oldPoison := false, newPoison := (decodedStatus d.res).1 != .ok, whole := some d.data })
    else s.ownRead (fun x => x.o == .rebuild) l ⟨d.data, d.res⟩
  | .homeWrite _ => s | .pickleBack => s | .seamNew _ => s | .seamPoison _ => s | .rebuildW => s | .poison => s

/-- The next line on a pseudo-channel's data bus, and the state without it, at the cycle in which its data ends. -/
def State.nextFlight (s : State) (c : Nat) : Option (Flight × State) :=
  match takeFirst (fun (f : Flight) => f.pc == c) s.sched.flight with
  | some (f, rest) => some (f, ({ s with sched := { s.sched with flight := rest } }).toCycle f.dataEnd)
  | none => none

/-- A port's reads, whose corrected lines Pickle reads again (R192). -/
def Origin.port : Origin → Bool
  | .req => true | .homeRead _ => true
  | .homeWrite _ => false | .pickleWalk => false | .pickleFix => false | .pickleBack => false | .seamOld _ => false | .seamNew _ => false
  | .seamPoison _ => false | .standRead _ => false | .rebuild => false | .rebuildW => false | .poison => false | .row => false

/-- A read line's data arrives, with the errors its lanes brought (R183). -/
def State.readArrives (s : State) (c : Nat) (errs : List (Nat × Word)) : State :=
  match s.nextFlight c with
  | none => s
  | some (f, s0) =>
    if f.write then s
    else
      let l := f.ln.addr
      let d := s.decodeAt c l errs
      let s1 := s0.setPc c { s0.pc c with noData := none }
      let s2 := ((s1.countDecode c l d.res).countLane c d).countRow ⟨c, f.bank, f.row, f.ln.col⟩ d.res
      let s3 := if f.origin.port && d.res == .corrected then s2.queueFix c l else s2
      s3.useDecode f d

/-- A read line without data (R408): answered as one that cannot be corrected, uncounted; Pickle leaves its line as it stands. Two frames of it are a
pseudo-channel fault, on every pseudo-channel a stack fault (R304). -/
def State.readAbsent (s : State) (c : Nat) : State :=
  match s.nextFlight c with
  | none => s
  | some (f, s0) =>
    if f.write then s
    else
      let q := s0.pc c
      let since := q.noData.getD s.frame
      let s1 := s0.setPc c { q with noData := some since }
      let s2 := if f.origin = .pickleWalk ∨ f.origin = .pickleFix then s1 else s1.useDecode f ⟨.uncorrectable, 0, none⟩
      let out := fun (x : Nat) => match (s2.pc x).noData with
        | some y => decide (y + 2 ≤ s.frame)
        | none => false
      if since + 2 ≤ s.frame then
        if allPcs.all (fun x => (s2.pc x).retired || out x) then s2.stackFault ⟨c, 0, 0, 0⟩ .stack
        else if s2.repair.due.contains (.pc c .pc) then s2
        else s2.pcFault ⟨c, 0, 0, 0⟩ .pc
      else s2

/-! ### The row at work -/

/-- A row that this tile, back in the package, has still to take back (R323). -/
def State.retakes (s : State) (j : Nat) : Bool := s.seam.taking.contains s.t && !s.repair.rejoin && !s.seam.backRows.contains j

/-- The lines of a row by a mask, for which a test holds. -/
def State.rowMask (s : State) (j : Nat) (f : Nat → Bool) : Nat :=
  ((List.range 64).filter (fun k => f (s.rowAddr j + 64 * k))).foldl (fun a k => a ||| 2 ^ k) 0

/-- The reads of the row at work join their pseudo-channels' queues from P28, four lines at a time (R152, R200, R204): this tile's own line, and
with n ≥ 3 the other members of the row; a parity line that is resynchronised is not read, nor is a line that is taken back from its stand-in (R323). -/
def State.feedJob (s : State) (j : SeamJob) : State :=
  let s1 := { s with seam := { s.seam with job := some { j with fed := true } } }
  let ls := ((List.range 64).filter (fun k => j.todo.testBit k && !j.done.testBit k)).map (fun k => s.rowAddr j.row + 64 * k)
  let wait := fun (own : Option Member) (z : State) => ls.foldl (fun a l => a.addRecon 0 l .rebuild (internalReq s.t 28 .read l) 0 own) z
  if j.resync ∧ (2 < s.n ∨ s.retakes j.row) then ls.foldl (fun a l => a.askRow l []) (wait (some ⟨0, .good⟩) s1)
  else
    let four := fun (a : State) (i : Nat) =>
      let g := ls.filter (fun l => s.lineBit l / 4 == i)
      if g.isEmpty then a
      else a.joinAs (internalReq s.t 28 .read (s.rowAddr j.row)) .rebuild false s.noTag (g.map (fun l => { col := (s.map.place l).col, addr := l, idx := 0, d := ⟨0, false⟩ }))
    let s2 := (List.range 16).foldl four s1
    if s.n = 2 then s2 else wait none s2

/-- Rows of the package that await their resynchronisation, in ascending order (R204). -/
def State.awaited (s : State) : List Nat := (if s.seam.listedAll then List.range s.rows else s.seam.listed).filter (fun j => s.awaits j)

/-- This tile resynchronises a row (R204): it is its parity tile, or with n = 2 its primary. -/
def State.resyncMine (s : State) (j : Nat) : Bool := if s.n = 2 then j % 2 == s.t else s.map.parityOf j == s.t

/-- This tile works on a row itself: it takes it back, or resynchronises it (R204, R323). -/
def State.ownRow (s : State) (j : Nat) : Bool := s.retakes j || (s.awaits j && s.resyncMine j)

/-- A row has been resynchronised (R204): it becomes writable, and has valid parity again. -/
def State.rowReady (s : State) (j : Nat) : State :=
  { s with seam := { s.seam with rowsDone := insNat s.seam.rowsDone j, resync := s.seam.resync.filter (fun x => x ≠ j) } }

/-- A row has been taken back from its stand-in (R323): its home serves it again. -/
def State.rowBack (s : State) (j : Nat) : State :=
  if s.seam.taking.isEmpty then s else { s with seam := { s.seam with backRows := insNat s.seam.backRows j } }

/-- This tile is done with the row at work (R204, R323). -/
def State.rowResynced (s : State) (j : Nat) : State :=
  let s1 := if s.retakes j then s.rowBack j else s.rowReady j
  { s1 with seam := { s1.seam with job := s1.seam.job.filter (fun x => !(x.resync && x.row == j)) } }

/-- The Seam engine may work on rows: its domain is on, and the tile's stack serves (R29, R202, R318). -/
def State.engineUp (s : State) : Bool := s.dom 11 && !s.seam.readOnly && s.repair.fenced.isNone && !s.repair.stackRetired

/-- The lines of a row that this tile takes back or resynchronises, by bit: not those of a retired unit, nor those that stand rebuilt in place of their
parity line (R200, R204). -/
def State.resyncMask (s : State) (j : Nat) : Nat :=
  s.rowMask j (fun l => !s.ownRetired (s.map.place l) && (s.copyOf l).isNone && (s.retakes j || !(s.n == 2 && s.goneAt (1 - s.t) l)))

/-- The next row starts that this tile takes back or resynchronises (R204, R323). -/
def State.resyncStep (s : State) : State :=
  if s.seam.job.isSome || !s.engineUp then s
  else match (if s.seam.taking.contains s.t then List.range s.rows else s.awaited).find? (fun j => s.ownRow j) with
    | none => s
    | some j =>
      let m := s.resyncMask j
      if m = 0 then s.rowResynced j else s.feedJob ⟨j, true, true, m, 0, []⟩

/-- A line of the row at work is written (R200, R204); after the last one of a row that is resynchronised the next row starts. -/
def State.jobLine (s : State) (l : Nat) : State :=
  match s.seam.job with
  | none => s
  | some j =>
    if s.rowOf l ≠ j.row ∨ l < s.map.ord then s
    else
      let j1 := { j with done := j.done ||| 2 ^ s.lineBit l }
      let s1 := { s with seam := { s.seam with job := some j1 } }
      if j.resync ∧ j1.done &&& j.todo = j.todo then (s1.rowResynced j.row).resyncStep else s1

/-- A line of the row at work stands in the stack (R200, R204). One that was taken back is done once its parity is computed anew (R323). -/
def State.jobWritten (s : State) (l : Nat) (d : PLine) : State :=
  match s.seam.job with
  | none => s
  | some j =>
    if s.retakes j.row && decide (2 < s.n) && s.map.parityOf j.row != s.t then
      s.ring (.seamUpdate (s.parityTile l)
        { home := s.t, no := 0, req := internalReq s.t 28 .writePosted l, start := 0, finish := 0, line := l,
          delta := 0, oldPoison := false, newPoison := d.poison, whole := some d.data })
    else s.jobLine l

/-- A write access completes at the stack, or fails and its line is poisoned (R17). -/
def State.writeArrives (s : State) (c : Nat) (ok : Bool) : State :=
  match s.nextFlight c with
  | none => s
  | some (f, s0) =>
    if !f.write then s
    else
      let l := f.ln.addr
      let s1 := s0.writeLine l f.ln.d.data (f.ln.d.poison || !ok)
      match f.origin with
      | .req => s1.lineWritten f.req f.ln.idx (if ok then 0 else 1) false
      | .seamNew no => s1.seamWritten no l ok
      | .seamPoison no => (match s1.seamBy no l with | some w => s1.endSeam w 2 | none => s1)
      | .rebuildW => s1.jobWritten l ⟨f.ln.d.data, f.ln.d.poison || !ok⟩
      | .homeRead _ => s1 | .homeWrite _ => s1 | .pickleWalk => s1 | .pickleFix => s1 | .pickleBack => s1 | .seamOld _ => s1
      | .standRead _ => s1 | .rebuild => s1 | .poison => s1 | .row => s1

/-! ### Lines poisoned by the block -/

/-- A line that the block itself poisons (R187, R225, R233, R316): an internal write in the line's order. In the Seam part it is a Seam write that keeps
the data read; in the ordinary part nothing is read, and the data is zero. -/
def State.poisonHere (s : State) (loc : Nat) : State :=
  let r := internalReq s.t 28 .writePosted ((s.map.package s.t loc).getD 0)
  let ln : PLn := { col := (s.map.place loc).col, addr := loc, idx := 0, d := ⟨0, true⟩ }
  if s.ownRetired (s.map.place loc) then s
  else if s.lineKind loc = .data then s.seamWrite r .poison .data true [ln]
  else s.joinQueue r .poison true [ln]

/-- A line of another home that this tile stands in for is poisoned by it (R199, R234, R320). -/
def State.poisonStand (s : State) (line loc : Nat) : State :=
  s.standIn (internalReq s.t 28 .writePosted line) .poison [{ col := (s.map.place loc).col, addr := loc, idx := 0, d := ⟨0, true⟩ }]

/-! ### Reconstruction -/

/-- A stand-in's write has the other members of its row (R199): parity equal to the new line XOR those. -/
def State.standNew (s : State) (w : SeamWr) (ms : List Member) : State :=
  let broken := ms.any Member.broken
  let p : PLine := ⟨w.new.data ^^^ xorMembers ms, w.new.poison || broken || ms.any (fun m => m.res == .poisoned)⟩
  (s.setSeam { w with new := p, old := some none }).setNew w.no w.line p

/-- A line of the row at work is written in its place, from the work of P28 (R200, R204). -/
def State.jobWrite (s : State) (l : Nat) (d : PLine) : State :=
  s.joinAs (internalReq s.t 28 .writePosted l) .rebuildW true s.noTag [{ col := (s.map.place l).col, addr := l, idx := 0, d := d }]

/-- A Seam data line of this home that Pickle cannot have made again becomes poison (R187, R191, R198): a Seam write that keeps the data symbols read, unless
another write to the line has come. -/
def State.pickleGone (s : State) (x : Recon) : State :=
  if x.stale || s.seam.readOnly || (s.seamOf x.line).isSome then s else s.poisonHere x.line

/-- What waited for a row's members is made from them: a line of this home (R191, R197, R198), a parity line for Pickle, a line that this tile stands in
for (R199), or a line of the row at work (R200, R204). With n = 2 `par` is the mirror copy; of a row that is taken back it is the line itself where the
stand-in has rebuilt it, with no members beside it (R323). A row that awaits its resynchronisation has no valid parity to make a line from (R201, R204). -/
def State.reconDone (s : State) (x : Recon) (ms : List Member) (par : Member) : State :=
  let pickle := x.o == .pickleWalk || x.o == .pickleFix
  if x.o = .rebuild then
    let own := x.own.getD ⟨0, .good⟩
    match s.seam.job with
    | some j =>
      if j.resync ∧ s.retakes j.row ∧ s.n = 2 then s.jobWrite x.line ⟨par.data, !par.fine⟩
      else if j.resync ∧ s.retakes j.row ∧ s.map.parityOf j.row ≠ s.t then
        s.jobWrite x.line ⟨xorMembers ms ^^^ par.data, !(par.fine && ms.all Member.fine)⟩
      else if j.resync then s.jobWrite x.line ⟨xorMembers ms, !ms.all Member.fine⟩
      else s.jobWrite x.line ⟨own.data ^^^ xorMembers ms, !(own.fine && ms.all Member.fine) || s.awaits j.row⟩
    | none => s
  else if s.lineKind x.line = .data then
    if s.n = 2 then
      let s2 := if par.broken then (if pickle then s.pickleGone x else s)
        else s.writeBack x.stale x.line ⟨par.data, par.res == .poisoned⟩
      s2.readDone x.o x.req x.idx ⟨par.data, !par.fine⟩ false
    else
      let data := xorMembers ms ^^^ par.data
      if par.fine && ms.all Member.fine then
        (((s.writeBack x.stale x.line ⟨data, false⟩).count 0x4901 1).log1 0x0901 []).readDone x.o x.req x.idx ⟨data, false⟩ false
      else
        let s2 := if pickle then s.pickleGone x else s
        s2.readDone x.o x.req x.idx ⟨0, true⟩ false
  else if pickle then
    let usable := ms.all (fun m => m.fine || m.res == .poisoned)
    if usable then s.writeBack x.stale x.line ⟨xorMembers ms, ms.any (fun m => m.res == .poisoned)⟩ else s.writeBack x.stale x.line ⟨x.was, true⟩
  else
    let own := x.own.getD ⟨0, .uncorrectable⟩
    s.readDone x.o x.req x.idx ⟨xorMembers ms ^^^ own.data, !(own.fine && ms.all Member.fine) || s.awaits (s.rowOf x.line)⟩ false

/-- A line held in the repair buffer that did not decode, made from its row's other members before the row is written (R198, R311). -/
def State.fixHeld (s : State) (l : Nat) (ms : List Member) (par : Member) : State :=
  match s.repair.recov with
  | none => s
  | some r =>
    let data := s.lineKind l == .data
    let d := if !data then xorMembers ms else if s.n = 2 then par.data else xorMembers ms ^^^ par.data
    if r.rung = 2 ∧ (SMap.look r.held l).isSome ∧ s.frame < r.opened.toNat + 4 ∧ ms.all Member.fine ∧ (par.fine ∨ !data) then
      (({ s with repair := { s.repair with recov := some { r with held := SMap.set r.held l ⟨d, false⟩ } } }).count
        0x4901 1).log1 0x0901 []
    else s

/-- The members of a row have come (R195, R197-R200): for the first line that waits for them, else for the stand-in's write of it or the update that asked
for them. -/
def State.reconstruct (s : State) (l : Nat) (ms : List Member) (par : Member) : State :=
  match takeFirst (fun (x : Recon) => x.line == l && x.own.isSome) s.seam.recons with
  | some (x, rest) => ({ s with seam := { s.seam with recons := rest } }).reconDone x ms par
  | none => match s.seam.writes.find? (fun w => w.line == l && (w.kind == .stand || w.par.isSome) && w.started && w.old.isNone) with
    | some w => (match w.kind with
      | .parity u => s.parityNew w (newParity (w.par.getD ⟨0, .good⟩) u ms)
      | .stand => s.standNew w ms
      | .data => s)
    | none => s.fixHeld l ms par

/-! ### The next access -/

/-- What the internal ports' engines make of an access just issued (R190, R192, R200, R204). -/
def State.enginesIssued (s : State) (c : Nat) (ps : List Part) : State :=
  ps.foldl (fun z p => match p.origin with
    | .pickleWalk => z.walkOn c
    | .pickleFix => { z with seam := { z.seam with fixQueue := z.seam.fixQueue.filter (fun x => !p.lns.any (fun y => y.addr == x)) } }
    | .rebuildW => { z with seam := { z.seam with wrote := z.seam.wrote + p.lns.length } }
    | .rebuild => if z.n = 2 then { z with seam := { z.seam with wrote := z.seam.wrote + p.lns.length } } else z
    | .req => z | .homeRead _ => z | .homeWrite _ => z | .pickleBack => z | .seamOld _ => z | .seamNew _ => z | .seamPoison _ => z
    | .standRead _ => z | .poison => z | .row => z) s

/-- An access is issued (R157, R158), and what waits on its pseudo-channel for room goes on. -/
def State.runAccess (s : State) (c : Nat) (ps : List Part) : State := ((s.issue c ps).enginesIssued c ps).seamPump c

/-- The place of Pickle's work in its slot (R191): a write-back, a read of the correction queue, the walk. -/
def pickleRank : Origin → Option Nat
  | .pickleBack => some 0 | .pickleFix => some 1 | .pickleWalk => some 2
  | .req => none | .homeRead _ => none | .homeWrite _ => none | .seamOld _ => none | .seamNew _ => none | .seamPoison _ => none
  | .standRead _ => none | .rebuild => none | .rebuildW => none | .poison => none | .row => none

/-- The part of an internal port that a PICKLE or SEAM slot lets go ahead, if it can start now (R61, R152, R161, R191): none where the first that waits
meets a held bank or cannot go yet. -/
def State.slotPart (s : State) (c : Nat) : Option Part :=
  let l := (s.pcParts c).filter (fun p => p.internal && s.mayGo p)
  let first := if (s.pc c).opp = 5 then
      firstMin (fun a b => decide ((pickleRank a.origin).getD 3 < (pickleRank b.origin).getD 3) ||
        (pickleRank a.origin == pickleRank b.origin && decide (a.turn < b.turn))) (l.filter (fun p => (pickleRank p.origin).isSome))
    else if (s.pc c).opp = 6 then firstMin (fun a b => decide (a.turn < b.turn)) (l.filter (fun p => (pickleRank p.origin).isNone))
    else none
  match first with
  | none => none
  | some p =>
    if (selClass ((s.pcParts c).filter (fun x => x.bank == p.bank)) p).isSome && s.mayStart c p.bank p.lns.length p.write false then some p else none

/-- The access of a rung 2 recovery that its pseudo-channel takes now, which serves nothing else (R307, R311): the first that waits, if it can go. -/
def State.rowPart (s : State) (c : Nat) : Option Part :=
  ((s.pcParts c).find? (fun p => p.origin == .row)).filter (fun p => s.canAct c p.bank p.lns.length p.write s.clk.now)

/-- One access of a pseudo-channel at the current cycle (R61, R63, R160): none while a refresh goes first; in a recovery those of its row (R311); the internal
part of a PICKLE or SEAM slot ahead of every class but P; else the first candidate with its riders. DESIGN CHOICE: the one access that a PICKLE or SEAM slot
lets go ahead takes no riders (log entry 72). -/
def State.accessNow (s : State) (c : Nat) : State :=
  if !s.pcServes c || s.refreshFirst c || s.quench.on then s
  else if (s.pc c).recov then (match s.rowPart c with
    | some p => s.runAccess c [p]
    | none => s)
  else if s.pcStopped c then s
  else
    let h := s.head c
    let pFirst : Bool := match h with
      | some x => x.cls == .p
      | none => false
    match (if pFirst then none else s.slotPart c), h with
    | some p, _ => (s.setPc c { s.pc c with opp := 0 }).runAccess c [p]
    | none, some x => s.runAccess c (s.access c x)
    | none, none => s

/-! ### Updates at the parity tile -/

/-- A line stands in the row that is being rebuilt here (R200). -/
def State.inRebuild (s : State) (loc : Nat) : Bool :=
  match s.seam.job with
  | some j => !j.resync && decide (s.map.ord ≤ loc) && s.rowOf loc == j.row && j.todo.testBit (s.lineBit loc)
  | none => false

/-- A line that its home takes back no longer stands rebuilt here (R323). -/
def State.giveBack (s : State) (u : SeamUpd) : State :=
  if u.no = 0 ∧ u.whole.isSome ∧ s.rebuiltAt u.line = some u.home then
    let b := s.lineBit u.line
    { s with seam := { s.seam with switched := s.seam.switched.map (fun e =>
      if e.1 = s.rowOf u.line ∧ e.2.1 = u.home ∧ e.2.2.testBit b then (e.1, e.2.1, e.2.2 - 2 ^ b) else e) } }
  else s

/-- The parity or mirror tile takes the update of one line (R195 steps 4 and 5, R196, R197): a Seam write of its own, under the class, age and tags that
the update carries. Where a copy stands rebuilt, or the line's unit is gone, there is nothing to update; in the row that is being rebuilt it waits for
the switch (R200), and for the Seam engine's domain (R31). DESIGN CHOICE: the parity's read and write count in the write's class, not as Seam's (R135; log
entry 72). -/
def State.takeUpdate (s0 : State) (u : SeamUpd) : State :=
  let s := s0.giveBack u
  let k := clockOf (s.joinCls u.req)
  if (s.rebuiltAt u.line).isSome || s.ownRetired (s.map.place u.line) then s.ring (.seamAck u.home u.line u.no true)
  else if s.inRebuild u.line || !s.dom 11 then { s with seam := { s.seam with updates := s.seam.updates ++ [u] } }
  else
    (s.seamWriteAs { queue := 1024, k := k, start := u.start, finish := u.finish } u.req .req (.parity u) false
      [{ col := (s.map.place u.line).col, addr := u.line, idx := 0, d := ⟨u.whole.getD 0, u.newPoison⟩ }]).seamPump (s.map.place u.line).pc

/-- The updates that waited for a row's switch go on (R200). -/
def State.releaseUpdates (s : State) : State :=
  s.seam.updates.foldl State.takeUpdate { s with seam := { s.seam with updates := [] } }

/-- The work on a row pauses (R202, R312): what is under way on it is given up. A resynchronisation starts anew later; a rebuild goes on from the lines it has
written, without those whose unit is gone here. -/
def State.abortJob (s : State) : State :=
  match s.seam.job with
  | none => s
  | some j =>
    let here := s.rowMask j.row (fun l => !s.ownRetired (s.map.place l))
    let job := if j.resync || j.todo &&& here == 0 then none else some { j with fed := false, todo := j.todo &&& here, done := j.done &&& here }
    let s1 := s.dropParts (fun p => p.origin == .rebuild || p.origin == .rebuildW)
    ({ s1 with seam := { s1.seam with job := job, recons := s1.seam.recons.filter (fun (x : Recon) => x.o ≠ Origin.rebuild) } }).releaseUpdates

/-! ### Lines lost -/

/-- The lines of a row that this tile has still to rebuild, by bit: it is the parity tile, another tile's data is gone there, and nothing stands
rebuilt (R200, R315). -/
def State.rowLeft (s : State) (j : Nat) : Nat :=
  if s.n ≤ 2 ∨ s.map.parityOf j ≠ s.t then 0
  else s.rowMask j (fun l => (s.lostMember l).isSome && (s.rebuiltAt l).isNone && !s.goneAt s.t l)

/-- A row that this tile rebuilds (R200, R315). -/
def State.standsFor (s : State) (j : Nat) : Bool := s.rowLeft j != 0

/-- A Seam line of a tile has no survivor (R201, R316): its own stack, a rebuilt copy, or a complete set of the row's other members with valid
parity. -/
def State.lineGone (s : State) (u loc : Nat) : Bool :=
  let j := s.rowOf loc
  if s.n = 2 then s.goneAt u loc && (s.goneAt (1 - u) loc || s.awaits j)
  else
    let q := s.map.parityOf j
    s.goneAt u loc && !(s.copyOf loc == some u && !s.goneAt q loc) &&
      !((List.range s.n).all (fun v => v == u || !s.goneAt v loc) && !s.awaits j && (s.copyOf loc).isNone)

/-- The tile that counts the lost lines of a row: its parity tile, with n = 2 its mirror tile, or the next in ring order that is in view (log
entry 68). -/
def State.rowCounter (s : State) (j : Nat) : Nat :=
  let q := if s.n = 2 then 1 - j % 2 else s.map.parityOf j
  ((q :: s.after q).find? (fun u => bit s.repair.view u)).getD q

/-- The lines of the rows that this tile counts and of which nothing survives (R201). -/
def State.goneLines (s : State) : List (Nat × Nat) :=
  ((List.range s.rows).filter (fun j => s.rowCounter j == s.t)).flatMap (fun j => (List.range 64).flatMap (fun k =>
    ((List.range s.n).filter (fun u => (if s.n = 2 then u == j % 2 else u != s.map.parityOf j) && s.lineGone u (s.rowAddr j + 64 * k))).map
      (fun u => (u, s.rowAddr j + 64 * k))))

/-- Tiles of which some unit is gone. -/
def State.hurtTiles (s : State) : List Nat :=
  (List.range s.n).filter (fun u => bit s.seam.lost u || s.repair.others.any (fun e => e.1 == u) ||
    (u == s.t && (s.repair.stackRetired || s.pcs.any (fun e => e.2.retired || !e.2.rbanks.isEmpty))))

/-- Lines that a retirement or a stack loss has made lost since `old` count in SEAM_POISONED (R201, R316); a stack loss logs event 0x0904 with their
count. Only a second unit's loss, or one while rows await their resynchronisation, can make any. -/
def State.countGone (s old : State) (stack : Bool) : State :=
  if s.map.seam = 0 ∨ s.n < 2 ∨ (s.hurtTiles.length < 2 ∧ !s.seam.resyncing) then s
  else
    let was := old.goneLines
    let k := s.goneLines.countP (fun x => !was.contains x)
    if k = 0 then s
    else
      let s1 := s.count 0x4901 5 k
      if stack then s1.log1 0x0904 (three k) else s1

end Sys2Proof.Machine
end

