-- ==== Sys2Proof/Machine/HeatOps.lean ====
section
/-!
DEFINITION. Temperatures, coefficient sets and their interpolation (R276-R278), corrections (R281-R283), the refresh interval (R291) and
what is due of Assay and Planish (R281, R285).
-/
namespace Sys2Proof.Machine
open Sys2Proof

/-! ### Samples -/

/-- The last sample of a channel; a missing one reads 0x8000 (R272). -/
def State.sample (s : State) (ch : Nat) : Word := s.hk.samples.getD ch 0x8000
/-- A sample present, as an integer (R271, R272). -/
def State.present (s : State) (ch : Nat) : Option Int := if s.sample ch = 0x8000 then none else some (i16 (s.sample ch))
/-- The highest of present channels. -/
def State.highest (s : State) (chs : List Nat) : Option Int :=
  (chs.filterMap s.present).foldl (fun a x => match a with | none => some x | some y => some (max x y)) none
/-- TJ, the highest present die sensor (R302). -/
def State.tj (s : State) : Option Int := s.highest (List.range 8)
/-- TS, the highest present stack readout (R291, R302). -/
def State.ts (s : State) : Option Int := s.highest [8, 9, 10, 11]
/-- The temperature of a group, with the substitute of a missing sensor (R273, R276). -/
def State.groupTemp (s : State) (g : Nat) : Option Int := match s.present (g / 2) with
  | some x => some x
  | none => s.tj

/-- A channel is signed: temperatures and deviations (R271). -/
def signedCh (ch : Nat) : Bool := decide (ch < 12) || ch == 12 || ch == 14 || ch == 15 || ch == 16
/-- A supply channel (R271, R273): everything measured in millivolts but the reference clock's amplitude. -/
def supplyCh (ch : Nat) : Bool := ch == 13 || (decide (17 ≤ ch) && decide (ch ≤ 30))

/-- The deviation of the witness lies beyond its limit (R268). -/
def State.witnessBeyond (s : State) (x : Int) : Bool := decide (((s.reg 0x7200 4).toNat : Int) < x) || decide (x < -((s.reg 0x7200 4).toNat : Int))

/-- A sample lies beyond its channel's limits (R271, R272). -/
def State.beyond (s : State) (ch : Nat) (v : Word) : Bool :=
  let lo := s.reg 0x7203 (ch + 1)
  let hi := s.reg 0x7204 (ch + 1)
  if ch = 12 then s.witnessBeyond (i16 v)
  else if signedCh ch then decide (i16 v < i16 lo) || decide (i16 hi < i16 v)
  else decide (v.toNat < lo.toNat) || decide (hi.toNat < v.toNat)

/-! ### Coefficients -/

/-- The index of a coefficient (R301). -/
def coefIdx (kind g : Nat) : Nat := if kind < 4 then 0x7100 + 16 * kind + g else 0x7140 + (kind - 4)
/-- Every coefficient: kind and group. -/
def allCoefs : List (Nat × Nat) := (List.range 64).map (fun k => (k / 16, k % 16)) ++ [(4, 0), (5, 0), (6, 0)]
/-- The range of a kind (R276). -/
def kindRange (kind : Nat) : Int × Int :=
  if kind < 3 then (0, 127) else if kind = 3 then (256, 4095) else if kind = 4 then (0, 1023) else (0, 255)
/-- The temperature points in 1/16 °C (R276, R277). -/
def tempPts : List Int := [-80, 400, 880, 1360, 1680]
/-- The segment a temperature lies in: points i and i + 1; none at or beyond an end point (R277). -/
def segment (t : Int) : Option Nat :=
  if t ≤ -80 ∨ 1680 ≤ t then none else (List.range 4).find? (fun i => decide (nth tempPts i 0 ≤ t) && decide (t < nth tempPts (i + 1) 0))
/-- The value that five sets give at a temperature (R277), before its clamp. -/
def interp (c : List Int) (t : Int) : Int :=
  match segment t with
  | none => if t ≤ -80 then nth c 0 0 else nth c 4 0
  | some i =>
    let span := (nth tempPts (i + 1) 0 - nth tempPts i 0).toNat
    let f := t - nth tempPts i 0
    nth c i 0 + roundDiv ((nth c (i + 1) 0 - nth c i 0) * f) span
/-- The sets of a coefficient. -/
def State.sets (s : State) (idx : Nat) : List Int := (List.range 5).map (fun k => i16 (s.reg idx (k + 1)))
/-- The clamp of a kind. -/
def clampKind (kind : Nat) (x : Int) : Int := clampI (kindRange kind).1 (kindRange kind).2 x
/-- The value of a coefficient at a temperature; with every die sensor missing, the set for 105 °C (R273, R277). -/
def State.coefAt (s : State) (kind g : Nat) (t : Option Int) : Int :=
  let c := s.sets (coefIdx kind g)
  clampKind kind (match t with | some x => interp c x | none => nth c 4 0)
/-- The temperature a coefficient uses (R276). -/
def State.coefTemp (s : State) (kind g : Nat) : Option Int := if kind < 4 then s.groupTemp g else s.tj
/-- IN_FORCE of a coefficient (R301): until a value has applied, the one its sets give without a sensor. -/
def State.coefForce (s : State) (idx kind g : Nat) : Word := s.hk.force.getD idx (ofI16 (s.coefAt kind g none))

/-- The channel against which a tile-wide kind is measured (R280); its coefficient keeps its value while the channel is missing (R273). -/
def kindChannel (kind : Nat) : Nat := kind + 10

/-- The channel of a tile-wide kind is there to be measured against (R280, R284): its sample is, or at a start, before the first round that could sample them, the
multipliers are. -/
def State.kindHere (s : State) (kind : Nat) (atStart : Bool) : Bool :=
  (s.present (kindChannel kind)).isSome || (atStart && ((kind == 5 && s.phy.pll0) || (kind == 6 && s.phy.pll1)))

/-- A coefficient keeps its last value: a tile-wide one whose channel is missing (R273). -/
def State.keepsCoef (s : State) (kind : Nat) (atStart : Bool) : Bool := decide (4 ≤ kind) && !s.kindHere kind atStart

/-- Every value in force recomputed, for the next tick (R273, R278), but for those of the groups in `skip`, whose measurements stand. -/
def State.recompute (s : State) (atStart : Bool) (skip : List Nat) : State :=
  let one := fun (m : SMap Word) (k : Nat × Nat) => SMap.set m (coefIdx k.1 k.2) (ofI16 (s.coefAt k.1 k.2 (s.coefTemp k.1 k.2)))
  let stands := fun (k : Nat × Nat) => decide (k.1 < 4) && skip.contains k.2
  let kept := s.hk.forceDue.filter (fun e => allCoefs.any (fun k => stands k && coefIdx k.1 k.2 == e.1))
  { s with hk := { s.hk with forceDue := (allCoefs.filter (fun k => !stands k && !s.keepsCoef k.1 atStart)).foldl one kept } }

/-- The set that a measurement at a temperature corrects and its weight (R282): the nearest point, the lower one midway. -/
def chosen (t : Int) : Nat × Int × Int :=
  match segment t with
  | none => (if t ≤ -80 then 0 else 4, 1, 1)
  | some i =>
    let span := nth tempPts (i + 1) 0 - nth tempPts i 0
    let f := t - nth tempPts i 0
    if 2 * f ≤ span then (i, span, span - f) else (i + 1, span, f)

/-- Assay corrects nothing: a reference fault, or no die sensor (R268, R273, R279). -/
def State.frozen (s : State) : Bool := s.hk.refFault || s.tj.isNone

/-- The key of a coefficient's refusals. -/
def refKey (kind g : Nat) : Nat := kind * 16 + g
/-- The group word of an Assay event (R303). -/
def groupWord (kind g : Nat) : Word := if kind < 4 then w16 g else Config.tileGroup

/-- A measurement of a coefficient (R282, R283): recorded, and unless Assay is frozen or the correction too large, its nearest set is
corrected and the measurement in force from the next tick. Two refusals in a row are a calibration fault of the group. -/
def State.measure (s : State) (kind g : Nat) (m : Word) : State :=
  let idx := coefIdx kind g
  let s1 := { s with hk := { s.hk with meas := s.hk.meas.put 0 idx m } }
  match s.coefTemp kind g with
  | none => s1
  | some t =>
    let s2 := { s1 with hk := { s1.hk with measT := s1.hk.measT.put 0 idx (ofI16 t) } }
    if s.frozen then s2
    else
      let delta := i16 m - s.coefAt kind g (some t)
      if ((s.reg 0x7000 6).toNat : Int) < delta ∨ delta < -((s.reg 0x7000 6).toNat : Int) then
        let n := s2.hk.refusals.getD (refKey kind g) 0 + 1
        let s3 := ({ s2 with hk := { s2.hk with refusals := SMap.put 0 s2.hk.refusals (refKey kind g) (if n = 2 then 0 else n) } }).log1 0x0C06
          [groupWord kind g, w16 kind, ofI16 delta]
        if n = 2 then
          let s4 := s3.log1 0x0C07 [groupWord kind g, w16 kind]
          if kind < 4 then s4.calFault g else s4
        else s3
      else
        let c := chosen t
        let old := i16 (s2.reg idx (c.1 + 1))
        let new := clampKind kind (old + roundDiv (delta * c.2.1) c.2.2.toNat)
        let s3 := s2.setReg idx (c.1 + 1) (ofI16 new)
        { s3 with hk := { s3.hk with forceDue := SMap.set s3.hk.forceDue idx m, refusals := SMap.del s3.hk.refusals (refKey kind g) } }

/-- The measurements of a step on a group, kinds 0 to 3 (R279). -/
def State.measureGroup (s : State) (g : Nat) (m : AssayMeas) : State :=
  (((s.measure 0 g m.drvPu).measure 1 g m.drvPd).measure 2 g m.odt).measure 3 g m.dlyGain

/-- The measurements of the tile-wide kinds, where their channel is there (R273, R280, R284). -/
def State.measureTile (s : State) (m : HkMeas) (atStart : Bool) : State :=
  let one := fun (z : State) (kind : Nat) (v : Option Word) => match v with
    | some x => if z.kindHere kind atStart then z.measure kind 0 x else z
    | none => z
  one (one (one s 4 m.trim) 5 m.band0) 6 m.band1

/-- Assay as at a start (R284): the values recomputed, then every group not in `skip` and every tile-wide kind measured; a measurement that corrects its
set is itself the value in force (R278, R282). -/
def State.startAssay (s : State) (meas : List AssayMeas) (m : HkMeas) (skip : List Nat) : State :=
  let one := fun (z : State) (x : AssayMeas × Nat) =>
    if skip.contains x.2 then z
    else ({ z with hk := { z.hk with assayAt := SMap.set z.hk.assayAt x.2 z.ns } }).measureGroup x.2 x.1
  ((meas.take 16).zipIdx.foldl one (s.recompute true skip)).measureTile m true

/-! ### What is due -/

/-- A group takes part in no step: retired, fenced or in recovery (R281). -/
def State.groupOut (s : State) (g : Nat) : Bool :=
  s.repair.fenced.isSome || (groupPcs g).all (fun c => (s.pc c).retired) || (groupPcs g).any (fun c => (s.pc c).recov)

/-- Assay is due on a group (R281). -/
def State.assayDue (s : State) (g : Nat) : Bool :=
  !s.groupOut g &&
    (decide (s.hk.assayAt.getD g 0 + 1000000 * (s.reg 0x7000 4).toNat ≤ s.ns) ||
      (match s.groupTemp g with
       | some t => let d := t - i16 (s.hk.measT.getD (coefIdx 0 g) 0)
                   decide (((s.reg 0x7000 5).toNat : Int) ≤ d) || decide (((s.reg 0x7000 5).toNat : Int) ≤ -d)
       | none => false))

/-- Planish is due on a pseudo-channel at a moment in ns (R285). -/
def State.planDueAt (s : State) (c ns : Nat) : Bool :=
  let q := s.pc c
  !q.retired && (q.offCentre || decide (q.planAt + 1000000 * (s.reg 0x7000 7).toNat ≤ ns))

/-- The powered time of the current frame's tick in ns. -/
def State.tickNs (s : State) : Nat := (s.clk.pt - s.cyc * cycleTime s.phy.grade) / 36

/-- Planish is due on a pseudo-channel of the group that is in service and in no recovery (R62, R66). -/
def State.planDue (s : State) (g : Nat) : Bool :=
  s.repair.fenced.isNone && (groupPcs g).any (fun c => !(s.pc c).recov && s.planDueAt c s.ns)

/-! ### The refresh interval -/

/-- The refresh interval in ns, hot or not (R291). -/
def State.interval (s : State) (hot : Bool) : Nat := if hot then s.declared 11 / 2 else s.declared 11

/-- The tile becomes hot or normal (R291): the new interval takes effect at the next tick, event 0x0D07. -/
def State.setHot (s : State) (h : Nat) : State :=
  let was := s.hk.hot
  let s1 := { s with hk := { s.hk with hot := h } }
  if (was = 0) = (h = 0) then s1
  else
    let ts := match s.ts with
      | some x => ofI16 x
      | none => 0x8000
    ({ s1 with hk := { s1.hk with halfDue := some (h != 0) } }).log1 0x0D07 [sat16 (s.interval (h != 0)), ts]

/-- The state that the readouts call for is in force from the tick (R291). -/
def State.hotTick (s : State) : State := { s with hk := { s.hk with hotNow := s.hk.hot } }

/-- A pending interval takes effect, its tick the reference of the new schedule (R71, R75). -/
def State.takeInterval (s : State) : State :=
  match s.hk.halfDue with
  | none => s
  | some h => { s with hk := { s.hk with half := h, halfDue := none }, anvil := { s.anvil with refRef := s.clk.now } }

/-! ### Eyes -/

/-- Eyes narrower than EYE_MIN (R287): event 0x0C08 and a lane fault for every lane that is not marked. -/
def State.narrowEye (s : State) (c : Nat) (e : LaneEye) : State :=
  let lim := (s.reg 0x7000 8).toNat
  let q := s.pc c
  let marked := (markedLanes q.marks).contains e.lane || (markedLanes (q.marksDue.getD q.marks)).contains e.lane
  if marked ∨ 36 ≤ e.lane then s
  else
    let s1 := if e.readEye < lim then s.log1 0x0C08 [w16 c, w16 e.lane, w16 e.readEye, Config.dirCode false] else s
    let s2 := if e.writeEye < lim then s1.log1 0x0C08 [w16 c, w16 e.lane, w16 e.writeEye, Config.dirCode true] else s1
    if e.readEye < lim ∨ e.writeEye < lim then s2.laneFault c e.lane else s2

/-- The word of the narrowest eye and its lane (R300). -/
def eyeWord (f : LaneEye → Nat) (ls : List LaneEye) (old : Word) : Word :=
  match firstMin (fun a b => decide (f a < f b)) ls with
  | some e => w16 (f e % 256 * 256 + e.lane % 64)
  | none => old

/-- The eyes of a pseudo-channel after a sweep (R286). -/
def State.setEyes (s : State) (c : Nat) (ls : List LaneEye) : State :=
  let q := s.pc c
  s.setPc c { q with readEye := eyeWord LaneEye.readEye ls q.readEye, writeEye := eyeWord LaneEye.writeEye ls q.writeEye }

/-- The eyes that a lane check found (R287, R288, R289): the words of each pseudo-channel named, and what is narrower than EYE_MIN. -/
def State.laneCheck (s : State) (eyes : List (Nat × LaneEye)) : State :=
  let pcs := ((eyes.map (fun x => x.1)).filter (fun c => decide (c < 64) && !(s.pc c).retired)).eraseDups
  pcs.foldl (fun z c =>
    let ls := (eyes.filter (fun x => x.1 == c)).map (fun x => x.2)
    ls.foldl (fun y e => y.narrowEye c e) (z.setEyes c ls)) s

/-- The settings of a Planish step (R286): each lane moves by at most 2 taps each way, from the tick that ends the step. -/
def planMoves (ls : List LaneEye) : List (Nat × Int × Int) := ls.map (fun e => (e.lane, clampI (-2) 2 e.off, clampI (-2) 2 e.writeOff))

/-- The moves of a step apply at the tick (R286). -/
def State.dlyTick (s : State) : State :=
  let one := fun (q : PcSt) (x : Nat × Int × Int) =>
    { q with rdDly := q.rdDly.put 0 x.1 (q.rdDly.getD x.1 0 + x.2.1), wrDly := q.wrDly.put 0 x.1 (q.wrDly.getD x.1 0 + x.2.2) }
  { s with pcs := s.pcs.mapVals (fun _ q => { q.dlyDue.foldl one q with dlyDue := [] }) }

/-! ### The tile's state -/

/-- The state that heartbeats report (R83, R318, R295). -/
def State.tileSt (s : State) : TileSt :=
  if s.repair.fenced.isSome then .fenced else if s.quench.on then .quenched else if s.repair.recov.isSome then .recovering else .serving

end Sys2Proof.Machine
end

