-- ==== Sys2Proof/Machine/PortFlow.lean ====
section
/-!
DEFINITION. How a request comes into a port and leaves its queue: acceptance (R88-R98), write lines (R90), MASTER_RESET (R107),
the charge to a budget (R128-R132), refusal (R119, R121, R122), the way onward (R15, R99, R138) and what the entry tile answers
itself (R202, R234, R236, R320).
-/
namespace Sys2Proof.Machine
open Sys2Proof

/-! ### Acceptance -/

/-- A request or line of no epoch in force is dropped and counted (R97): event 0x0401, at most once a tile in 8192 frames. -/
def State.epochDrop (s : State) (p : Port) : State :=
  (s.count (0x3100 + p) 8).logLim 0x0401 0 8192 1 (fun held => [w16 p, sat16 held])

/-- A credit overrun (R98): event 0x0402 with the channel, then a flush. -/
def State.overrun (s : State) (p : Port) (channel : Nat) : State :=
  (s.log1 0x0402 [w16 p, w16 channel]).flushPort p 2

/-- The port takes input of an epoch (R97). -/
def State.epochOk (s : State) (p : Port) (e : BitVec 2) : Bool :=
  s.enabled p && (s.port p).live && e == (s.port p).epoch

/-- A malformed request is refused (R89): event 0x0403, one beat FORMAT_FAULT, its credits returned; with LAST 1 it closes a failed stream (R257). -/
def State.formatFault (s : State) (p : Port) (code : BitVec 4) (cause : Nat) (w : ReqWord) (lines : Nat) : State :=
  let s1 := ((s.log1 0x0403 [w16 p, w16 code.toNat, w16 w.tag.toNat, w16 cause]).retCredOf p w.epoch 1 lines).pushBeat p
    (statusBeat .formatFault w.tag .none 0)
  match w.desc with
  | some d => if d.cv && !d.first && d.last then (match s1.stream p d.stream.toNat with
      | some (k, e) => if e.failed.isSome then s1.closeStream k else s1
      | none => s1) else s1
  | none => s1

/-- A write request is discarded by a MASTER_RESET that waits behind it in the queue (R99, R107): no further line of it comes. -/
def QReq.doomed (r : QReq) (rest : List QReq) : Bool := rest.any (fun m => m.op == .masterReset && m.bad.isNone && m.w.master == r.w.master)

/-- A line goes to the oldest write request whose lines are not all received (R90), but for one that a MASTER_RESET discards (R107): the queue after it, with the
request whose LINES the line's LAST disagrees with; none where no request waits for a line. -/
def giveLine (l : WLine) : List QReq → Option (List QReq × Option QReq)
  | [] => none
  | r :: rest =>
    if isWrite r.op && decide (r.got.length < r.w.count) && !r.doomed rest then
      let r' := { r with got := r.got ++ [l] }
      some (r' :: rest, if l.last == (r'.got.length == r.w.count) then none else some r')
    else match giveLine l rest with
      | some (q, e) => some (r :: q, e)
      | none => none

/-- Lines at hand given out in order; a LAST that disagrees is a format fault, and the port is flushed (R90). -/
def State.giveLines (s : State) (p : Port) : List WLine → State
  | [] => s.setPort p { s.port p with early := [] }
  | l :: rest =>
    match giveLine l (s.port p).queue with
    | none => s.setPort p { s.port p with early := l :: rest }
    | some (q, none) => (s.setPort p { s.port p with queue := q, early := rest }).giveLines p rest
    | some (q, some r) =>
      ((s.setPort p { s.port p with queue := q, early := rest }).log1 0x0403
        [w16 p, w16 (opCode r.op), w16 r.w.tag.toNat, 4]).flushPort p 3

/-- A request joins the port's queue and takes the lines already at hand for it (R90). -/
def State.enqueue (s : State) (p : Port) (r : QReq) : State :=
  let q := s.port p
  ((s.setPort p { q with queue := q.queue ++ [r] }).giveLines p q.early).watch p

/-- A malformed request as it arrives (R89): refused at once, or held in the queue until the response FIFO has room (R99). A write request owns its
lines all the same, so it waits there for them and leaves only with the last (R90, R96). -/
def State.malformed (s : State) (p : Port) (op : Op) (code : BitVec 4) (cause : Nat) (w : ReqWord) : State :=
  let q := s.port p
  if !isWrite op && decide (q.respLevel < 64) && q.flush.isNone then (s.formatFault p code cause w 0).watch p
  else s.enqueue p { op := op, w := w, bad := some (code, cause) }

/-- What a request word of an accepted epoch meets: a credit overrun (R98), or its credit is spent and `f` follows. -/
def State.spendReq (s : State) (p : Port) (w : ReqWord) (f : State → State) : State :=
  if !s.portsUp ∨ internalPort p then s
  else if !s.epochOk p w.epoch then s.epochDrop p
  else
    let q := s.port p
    if q.reqCred = 0 then s.overrun p 0 else f (s.setPort p { q with reqCred := q.reqCred - 1 })

/-- A request word arrives (R88, R89, R97, R98). -/
def State.accept (s : State) (p : Port) (op : Op) (w : ReqWord) : State :=
  s.spendReq p w (fun a =>
    if formatCause p op w ≠ 0 then a.malformed p op (BitVec.ofNat 4 (opCode op)) (formatCause p op w) w
    else a.enqueue p { op := op, w := w })

/-- A write line arrives on the write-data channel (R90, R97, R98). -/
def State.takeLine (s : State) (p : Port) (l : WLine) : State :=
  if !s.portsUp ∨ internalPort p then s
  else if !s.epochOk p l.epoch then s.epochDrop p
  else
    let q := s.port p
    if q.wrCred = 0 then s.overrun p 1
    else ((s.setPort p { q with wrCred := q.wrCred - 1 }).giveLines p (q.early ++ [l])).watch p

/-! ### MASTER_RESET -/

/-- The steps of R107 among the requests that stand before the MASTER_RESET; the queue after it is `rest`. A discarded partial
burst logs event 0x0407. Cipher work of the master's streams on the port is discarded (R256). The master's whole writes, queued or onward, are
marked with the number of the reset, whose RESET_DONE waits for them (steps 2 and 5). -/
def State.masterReset (s : State) (p : Port) (w : ReqWord) (before rest : List QReq) : State :=
  let isPart := fun (r : QReq) => r.w.master == w.master && isWrite r.op && decide (r.got.length < r.w.count)
  let isRd := fun (r : QReq) => r.w.master == w.master && r.bad.isNone && isRead r.op
  let part := before.filter isPart
  let reads := before.filter isRd
  let no := (s.port p).resetNo + 1
  let rst := fun (m : BitVec 8) (op : Op) (old : Nat) => if m = w.master ∧ isWrite op ∧ old = 0 then no else old
  let keep := (before.filter (fun r => !isPart r && !isRd r)).map (fun r => { r with rst := rst r.w.master r.op r.rst })
  let s1 := (s.dropCipherWork p (some w.master)).closeStreams p (some w.master)
  let q := s1.port p
  let s2 := s1.setPort p { q with
    queue := keep ++ rest, resetNo := no, resets := q.resets ++ [(no, w)],
    onward := q.onward.map (fun o => if o.master = w.master ∧ isRead o.op then { o with dropped := true, reserved := 0 }
      else { o with rst := rst o.master o.op o.rst }) }
  let s3 := part.foldl (fun a r => (a.log1 0x0407 ([w16 p, w16 w.master.toNat, w16 r.w.tenant.toNat] ++
    three r.w.byteAddr ++ [w16 r.got.length])).retCredOf p r.w.epoch 1 r.got.length) s2
  let s4 := reads.foldl (fun a r => a.retCredOf p r.w.epoch 1 0) s3
  let s5 := (((s4.log1 0x0406 [w16 p, w16 w.master.toNat, w16 w.tag.toNat]).endReturned p).finishResets p).watch p
  let s6 := s5.retCredOf p w.epoch 1 0
  if bit (s6.masterWord w.master) 13 then s6.killAgent p .reset else s6

/-! ### Budgets -/

/-- The place of a master's word of a budget object whose first index is `base` (R133). -/
def budIdx (base : Nat) (m : BitVec 8) : Nat × Nat := (base + m.toNat / 128, m.toNat % 128 + 1)
/-- A budget word of a master (R133). -/
def State.bud (s : State) (base : Nat) (m : BitVec 8) : Nat := (s.reg (budIdx base m).1 (budIdx base m).2).toNat
/-- USED (R133): the charged amount in 4 KiB units, rounded up, saturating. -/
def State.used (s : State) (m : BitVec 8) : Nat := min (ceilDiv (s.budget.used.getD m.toNat 0) 4096) 0xFFFF

/-- The bytes charged for a request (R130). -/
def chargeOf (op : Op) (lines : Nat) : Nat := if op = .upgrade ∨ op = .masterReset then 0 else 64 * lines

/-- A request is charged and its class fixed (R130, R131). -/
def State.charge (s : State) (p : Port) (m : BitVec 8) (op : Op) (lines : Nat) : State × Cls :=
  let u := s.budget.used.getD m.toNat 0 + chargeOf op lines
  let b := s.bud 0x3410 m
  let s1 := { s with budget := { s.budget with used := s.budget.used.put 0 m.toNat u } }
  if b = 0xFFFF ∨ u ≤ b * 4096 then (s1, baseClass p)
  else
    let s2 := s1.count 0x3507 1
    if s.budget.overMap.contains m.toNat then (s2, .bl)
    else
      (({ s2 with budget := { s2.budget with overMap := insNat s2.budget.overMap m.toNat } }).logLim 0x0604 m.toNat 8192 1
        (fun _ => [w16 m.toNat, w16 s.t, w16 (s1.used m), w16 b]), .bl)

/-- Transactions of a master are below its OUT_CAP (R132). -/
def State.underCap (s : State) (m : BitVec 8) : Bool := decide (s.budget.outst.getD m.toNat 0 < s.bud 0x3414 m)

/-! ### Refusal -/

/-- A request that the access check refuses leaves the queue (R96, R119, R121, R122). A refused request of an open stream aborts
it (R244), and its LAST closes a failed stream (R257). A speculative read refused quietly counts in SPEC_REFUSED_COUNT alone (log entry 67). -/
def State.refuse (s : State) (p : Port) (r : QReq) (st : Status) (code entry : Nat) : State :=
  let quiet := r.w.spec && (r.op == .read || r.op == .rdShared)
  let open_ := match r.w.desc with
    | some d => if d.cv && !d.first then s.stream p d.stream.toNat else none
    | none => none
  let s0 := match open_ with
    | some (k, e) => s.setEnt k { e with lastFrame := s.anvil.frameNo }
    | none => s
  let s1 := (if quiet then s0.count 0x3403 1 else s0.logAccess p r.op r.w code entry).retCredOf p r.w.epoch 1 r.got.length
  let st1 := if quiet then .specRefused else st
  match open_ with
  | none => s1.pushBeat p (statusBeat st1 r.w.tag .none 0)
  | some (k, e) =>
    let aborts := code == 0x0505 && e.failed.isNone
    let s2 := (if aborts then s1.abortStream k else s1).pushBeat p (statusBeat st1 r.w.tag .none (if aborts then 6 else 0))
    let last := match r.w.desc with
      | some d => d.last
      | none => false
    if last && (aborts || e.failed.isSome) then s2.closeStream k else s2

/-! ### What the entry tile answers itself -/

/-- Why a request that passed the check does not reach a home. -/
inductive Here
  | across
  | readOnly
  | gone (cause : Nat)
  deriving DecidableEq, Repr

/-- The entry tile's own answer where there is one: a WR_BACK to read-only Seam lines before any other (R202), the home across a split (R236, and
R237 once the hold has expired), a write to read-only Seam lines (R202, R204), a home that is fostered (R320), or a coherent request to the ordinary part of a
lost stack, this tile's own among them (R234). A line of a retired bank or pseudo-channel is ordered by its home (R225, R314). -/
def State.here (s : State) (op : Op) (coh : Bool) (addr : Nat) (lines : Nat := 1) : Option Here :=
  let h := s.map.home addr
  let u := s.serves addr lines
  let row := (h.loc - s.map.ord) / 4096
  let closed := h.parity.isSome && isWrite op && (s.seam.readOnly || s.awaits row)
  if s.across u then (if closed && op == .wrBack && !s.ha.expired then some .readOnly else some .across)
  else if closed then some .readOnly
  else if u ≠ s.t ∧ !bit s.repair.view u then some (.gone 3)
  else if coh && isCoherent op && h.parity.isNone && (s.lostAt u h.loc || (u == s.t && s.repair.stackRetired)) then some (.gone 3)
  else none

/-- The status and coherence response of such an answer (R202, R214, R234, R236, R237). -/
def State.hereAnswer (s : State) (op : Op) (h : Here) : Status × Cresp :=
  match h with
  | .across =>
    if op = .wrBack then (if s.ha.expired then (.ok, .ack) else (.partition, .partition))
    else (.partition, if isCoherent op then .partition else .none)
  | .readOnly => if op = .wrBack then (.ok, .retry) else (.partition, .none)
  | .gone _ => if op = .wrBack then (.ok, .ack) else (.poison, if isCoherent op then .poison else .none)

/-- Beats of an answer made here: one a line for reads of a lost home, one for the whole request otherwise (R92, R320); the last carries the
CSTAT of its stream (R259). -/
def State.hereBeats (s : State) (p : Port) (r : QReq) (h : Here) (cstat : Nat) : State :=
  let a := s.hereAnswer r.op h
  match r.op, h with
  | .read, .gone _ => (List.range r.w.count).foldl (fun z k => z.pushBeat p
      { statusBeat .poison r.w.tag .none (if k + 1 = r.w.count ∨ cstat = 6 then cstat else 0) with line := k, last := k + 1 == r.w.count }) s
  | _, _ => s.pushBeat p (statusBeat a.1 r.w.tag a.2 cstat) r.w.byteAddr

/-- A request that passed the check and is answered at its entry tile: charged, its credits returned; a posted write fails with
its cause (R109). One to a stack that is gone counts as a request to a retired line (R314). -/
def State.answerHere (s : State) (p : Port) (r : QReq) (h : Here) (cent : Option (Nat × CDesc)) : State :=
  let s0 := ((s.charge p r.w.master r.op r.w.count).1).retCredOf p r.w.epoch 1 r.got.length
  let s1 := match h with
    | .gone _ => s0.retiredHit r.w.byteAddr r.op
    | .across => s0
    | .readOnly => s0
  let s2 := match cent with
    | some (k, d) => s1.skipLines k 0 r.w.count d
    | none => s1
  let cstat := match cent with
    | some (k, d) => (match SMap.look s1.cipher.ents k with
      | some e => CEnt.cstat { e with poisoned := e.poisoned || e.mode == .gcm } d.last
      | none => 0)
    | none => 0
  if r.op = .writePosted then
    (List.range r.w.count).foldl (fun a k => a.putFail p
      ⟨match h with | .gone c => c | .across => 6 | .readOnly => 6, r.w.master, s.t, r.w.tenant, r.w.byteAddr + 64 * k, r.w.tag,
        BitVec.ofNat 32 s.frame⟩) s2
  else s2.hereBeats p r h cstat

/-! ### The way onward -/

/-- The onward entry of a request (R99, R105, R132, R138). -/
def QReq.onward (r : QReq) (txid home : Nat) (cls : Cls) (coh : Bool) (cent : Option Nat) (seam : Bool) : Onward :=
  { txid := txid, op := r.op, lines := r.w.count, tag := r.w.tag, tenant := r.w.tenant, master := r.w.master, addr := r.w.byteAddr,
    epoch := r.w.epoch, demoted := cls == .bl, home := home, reserved := if r.op = .read then r.w.count else if r.op = .writePosted then 0 else 1,
    cent := cent, seam := seam, coherent := coh, cls := cls, sent := !(cent.isSome && isWrite r.op), rst := r.rst }

/-- A request's data lines (R90). -/
def QReq.data (r : QReq) : List PLine := r.got.map (fun l => ⟨l.data, l.poison⟩)

/-- The request as it crosses to its home, with its coherence sideband (R15, R213). -/
def QReq.toHome (r : QReq) (o : Onward) (tile : Nat) (p : Port) : HReq :=
  { o.toHome tile p r.data with dirty := r.w.dirty, rage := r.w.rage.toNat }

/-- A request passed onward (R99, R130, R132, R138): it is charged, accounted for and sent to its home; the lines of a cipher
write go to the lanes first (R251). A read on a failed stream takes the stream's outcome at once (R257). -/
def State.passOn (s : State) (p : Port) (r : QReq) (coh : Bool) (cent : Option (Nat × CDesc)) : State :=
  let addr := r.w.byteAddr
  let home := s.serves addr r.w.count
  let c := s.charge p r.w.master r.op r.w.count
  let txid := c.1.sched.txid + 1
  let failed := match cent with
    | some (k, _) => (match SMap.look s.cipher.ents k with | some e => e.failed.isSome | none => false)
    | none => false
  let o0 := r.onward txid home c.2 coh (cent.map (fun x => x.1)) (s.map.inSeam addr)
  let o := { o0 with share := !(failed && isRead r.op) }
  let s1 := { c.1 with sched := { c.1.sched with txid := txid } }
  let s2 := s1.setPort p { s1.port p with onward := (s1.port p).onward ++ [o] }
  let s3 := (s2.addOut r.w.master 1).retCredOf p r.w.epoch 1 r.got.length
  let s4 := (if o.share then s3.addShare home 1 else s3).watch p
  match cent with
  | none => s4.sendRequest home (r.toHome o s.t p)
  | some (k, d) =>
    if isWrite r.op then s4.takeLines k txid r.w.count r.data d
    else if failed then s4.takeLines k txid r.w.count (List.replicate r.w.count ⟨0, false⟩) d
    else (s4.openSeg k txid r.w.count d).sendRequest home (r.toHome o s.t p)

/-- Response entries a request that passed needs (R99). -/
def QReq.need (r : QReq) : Nat := if r.op = .read then r.w.count else if r.op = .writePosted then 0 else 1

/-- The response FIFO can reserve so many entries (R99). -/
def State.room (s : State) (p : Port) (k : Nat) : Bool := decide ((s.port p).respLevel + k ≤ 64)

/-- A share entry is free at the request's home (R138). -/
def State.hasShare (s : State) (home : Nat) : Bool := decide (s.budget.shareHeld.getD home 0 < s.budget.share)

/-- The turn a FIRST cipher request takes for admission: after every one that passed the check earlier (R250). -/
def State.nextTurn (s : State) : Nat :=
  1 + s.ports.foldl (fun a p => max a (p.2.queue.foldl (fun b r => max b (r.adm.getD 0)) 0)) 0

/-- Some FIRST request of the tile passed the check before turn k and still waits (R250). -/
def State.earlierTurn (s : State) (k : Nat) : Bool :=
  s.ports.any (fun p => p.2.queue.any (fun r => match r.adm with | some j => decide (j < k) | none => false))

/-- A FIRST cipher request that waits for admission holds back what its stream carries and what its master asks of the same lines (R21, R244, R250). DEDUCED: not
its master's other requests, since R250 has it hold back FIRST requests alone (log entry 72). -/
def QReq.bars (h r : QReq) : Bool :=
  h.adm.isSome && r.op != .masterReset &&
    ((match h.w.desc, r.w.desc with | some a, some b => b.cv && a.stream == b.stream | _, _ => false) ||
     (h.w.master == r.w.master && decide (h.w.byteAddr < r.w.byteAddr + 64 * r.w.count) && decide (r.w.byteAddr < h.w.byteAddr + 64 * h.w.count)))

/-- No request is checked for its leaving now: a commit holds requests (R81) or is due at the tick that has come (R125), or the package-wide group is being copied
after a heal (R329). -/
def State.checkHeld (s : State) : Bool := s.commit.holdSince.isSome || s.commitDue || s.repair.copying.isSome

/-- What stands for a request at its turn in the queue: it waits, it waits for admission to the cipher lanes, or it leaves. -/
inductive Leave
  | wait
  | turn (d : CDesc)
  | go (s : State)

/-- Whether a request may leave now, and what then becomes of it (R96, R99, R118, R132, R138). `before` and `rest` are the queue
around it. A request leaves neither while the stack is initialised (R57), nor while a commit or a copy holds it (R81, R125, R329), nor while the cipher lanes hold a line
of it for an earlier one (R252). -/
def State.tryLeave (s : State) (p : Port) (r : QReq) (before rest : List QReq) : Leave :=
  let s0 := s.setPort p { s.port p with queue := before ++ rest }
  match r.bad with
  | some (code, cause) =>
    if isWrite r.op && decide (r.got.length < r.w.count) then .wait
    else if s.room p 1 then .go (s0.formatFault p code cause r.w r.got.length) else .wait
  | none =>
    if r.op = .masterReset then
      if !s.room p 1 || s.checkHeld then .wait
      else match s.check p r.op r.w with
        | .refuse st code e => .go (s0.refuse p r st code e)
        | .pass _ _ => .go (s0.masterReset p r.w before rest)
    else if isWrite r.op && decide (r.got.length < r.w.count) then .wait
    else if s.checkHeld || !s.underCap r.w.master then .wait
    else match s.check p r.op r.w with
      | .refuse st code e => if s.room p 1 then .go (s0.refuse p r st code e) else .wait
      | .pass cipher coh =>
        if s.store.initing || !s.room p r.need || s.inLanes p r.w then .wait
        else
          let here := s.here r.op coh r.w.byteAddr r.w.count
          let home := s.serves r.w.byteAddr r.w.count
          if here.isNone && !s.hasShare home then .wait
          else match cipher, r.w.desc with
            | true, some d =>
              if d.first then .turn d
              else match s.stream p d.stream.toNat with
                | some (k, _) => .go (match here with
                  | some h => s0.answerHere p r h (some (k, d))
                  | none => s0.passOn p r coh (some (k, d)))
                | none => .wait
            | _, _ => .go (match here with
              | some h => s0.answerHere p r h none
              | none => s0.passOn p r coh none)

/-- The turn of a FIRST request that passes the check behind others of its queue (R250). -/
def State.turnOf (s : State) (before : List QReq) (r : QReq) : Nat :=
  r.adm.getD (max s.nextTurn (1 + before.foldl (fun a h => max a (h.adm.getD 0)) 0))

/-- The queue taken in order: the first request that may leave does; a master whose request waits waits with all its later ones
(R132), but for a MASTER_RESET (R107). A FIRST cipher request takes its turn for admission and waits for it, and requests without FIRST go on (R250). -/
def State.leaveFrom (s : State) (p : Port) : List (BitVec 8) → List QReq → List QReq → State
  | _, before, [] => s.setPort p { s.port p with queue := before }
  | blocked, before, r :: rest =>
    if (blocked.contains r.w.master && r.op != .masterReset) || before.any (fun h => h.bars r) then s.leaveFrom p blocked (before ++ [r]) rest
    else match s.tryLeave p r before rest with
      | .go t => (t.watch p).finishResets p
      | .wait => s.leaveFrom p (r.w.master :: blocked) (before ++ [r]) rest
      | .turn _ => s.leaveFrom p blocked (before ++ [{ r with adm := some (s.turnOf before r) }]) rest

/-- A FIRST cipher request at hand: its turn, the queue around it and its descriptor. -/
structure Turn where
  turn : Nat
  before : List QReq
  r : QReq
  d : CDesc
  rest : List QReq

/-- The FIRST cipher requests of a port that have passed the check, each with its turn (R250). -/
def State.turns (s : State) (p : Port) : List (BitVec 8) → List QReq → List QReq → List Turn
  | _, _, [] => []
  | blocked, before, r :: rest =>
    if blocked.contains r.w.master || before.any (fun h => h.bars r) then s.turns p blocked (before ++ [r]) rest
    else match s.tryLeave p r before rest with
      | .turn d => ⟨s.turnOf before r, before, r, d, rest⟩ :: s.turns p blocked (before ++ [r]) rest
      | .go _ => s.turns p (r.w.master :: blocked) (before ++ [r]) rest
      | .wait => s.turns p (r.w.master :: blocked) (before ++ [r]) rest

/-- The FIRST cipher request of a port that passed the check first (R250). -/
def State.findTurn (s : State) (p : Port) : Option Turn :=
  firstMin (fun a b => decide (a.turn < b.turn)) (s.turns p [] [] (s.port p).queue)

/-- The FIRST request at hand on a port is admitted if it is the oldest to have passed the check and finds room (R250). -/
def State.admitFirst (s : State) (p : Port) : State :=
  match s.findTurn p with
  | none => s
  | some ⟨turn, before, r, d, rest⟩ =>
    if s.earlierTurn turn || !s.canAdmit d then
      s.setPort p { s.port p with queue := before ++ [{ r with adm := some turn }] ++ rest }
    else
      match s.freeEntry with
      | none => s
      | some k =>
        let s1 := (s.setPort p { s.port p with queue := before ++ rest }).takeStream p r.w d r.w.master r.w.tenant
        match s.here r.op false r.w.byteAddr r.w.count with
        | some h => ((s1.answerHere p r h (some (k, d))).watch p).finishResets p
        | none => (s1.passOn p r false (some (k, d))).watch p

/-! ### Responses -/

/-- The status of a coherence response (R214). -/
def crespStatus : Cresp → Status
  | .poison => .poison
  | .partition => .partition
  | .none => .ok | .dataS => .ok | .dataE => .ok | .dataM => .ok | .dataO => .ok | .ack => .ok | .retry => .ok

/-- Beats of a plain read that may now enter the FIFO: the next lines in ascending LINE order (R92). -/
def State.readBeats (s : State) (p : Port) (txid : Nat) : Nat → State
  | 0 => s
  | fuel + 1 =>
    match (s.port p).find txid with
    | none => s
    | some o =>
      let k := o.lines - o.reserved
      match o.beats.find? (fun a => a.line == k) with
      | none => s
      | some a =>
        if o.reserved = 0 then s
        else
          let b : Beat := { status := a.status, line := k, last := k + 1 == o.lines, corrected := a.corrected && a.status == .ok,
                            tag := o.tag, cresp := .none, data := if a.status = .ok then a.data else 0,
                            cstat := if k + 1 = o.lines ∨ o.cstat = 6 then o.cstat else 0, ctag := 0 }
          let s1 := (s.setOnward p { o with reserved := o.reserved - 1 }).pushBeat p b (o.addr + 64 * k)
          if k + 1 = o.lines then (match (s1.port p).find txid with | some o2 => s1.endOnward p o2 | none => s1)
          else s1.readBeats p txid fuel

/-- A read's lines reach its port (R92, R104): beats of a dropped request are discarded, those of a cipher request go to the
lanes (R242), and those of a stream closed since take its outcome (R256; data under a free status OK is free, log entry 2). -/
def State.readReturn (s : State) (p : Port) (o : Onward) (ls : List LineAns) : State :=
  let new := ls.filter (fun a => !(o.beats.any (fun b => b.line == a.line)) && decide (a.line < o.lines))
  let o1 := { o with beats := o.beats ++ new }
  let s1 := s.setOnward p o1
  if o.dropped then (if o1.beats.length ≥ o.lines then s1.endOnward p o1 else s1)
  else match o.cent with
    | none => s1.readBeats p o.txid 4
    | some k =>
      if k < 256 then s1.fillLines k o.txid new
      else ((s1.setOnward p { o1 with beats := o1.beats.map (fun a => { a with status := o.st, data := Config.freeLine s.freeCount }) }).draw).readBeats
        p o.txid 4

/-- A response from the home reaches its port (R92, R214). A data response without its data was cut off by a split: Poison is
presented and the home told (R236). -/
def State.response (s : State) (m : RespMsg) : State :=
  match m.failed with
  | some r => s.putFail m.port r
  | none =>
    match (s.port m.port).find m.txid with
    | none => s
    | some o =>
      if o.txid ≠ m.txid then (if o.op = .writePosted then s else s.pieceDone m.port o m.txid (match m.lines with | [] => .ok | a :: _ => a.status))
      else if o.op = .read then s.readReturn m.port o m.lines
      else if o.op = .writePosted then s
      else
        let st := match m.lines with
          | [] => .ok
          | a :: _ => a.status
        let cut := crespData m.cresp && m.lines.isEmpty
        let s1 := if cut then s.ring (.lostLine o.home o.addr (agentOf s.t m.port)) else s
        let cresp := if cut then .poison else m.cresp
        let status := if isCoherent o.op then (if cresp = .none then st else crespStatus cresp) else if o.st ≠ .ok then o.st else st
        s1.endWith m.port o
          { statusBeat status o.tag cresp o.cstat with
            corrected := crespData cresp && m.lines.any (fun a => a.corrected),
            data := if crespData cresp then (match m.lines with | a :: _ => a.data | [] => 0) else 0 }

/-- The beat presented for a mailbox record (R92, R110): the record in data [127:0], TAG of the failed request. -/
def mboxBeat (r : MboxRec) : Beat :=
  { statusBeat .errMsg r.tag .none 0 with data := BitVec.ofNat 512 (ofWords (mboxWords r)) }

/-- The head beat moves to the consumer: mailbox records before FIFO beats (R93). None where nothing waits. -/
def State.deliver (s : State) (p : Port) : Option State :=
  let q := s.port p
  match q.mbox, q.fifo with
  | r :: rest, _ => some ((s.setPort p { q with mbox := rest }).emit (.beat p (mboxBeat r)))
  | [], b :: rest => some (((s.setPort p { q with fifo := rest }).emit (.beat p b.1)).watch p)
  | [], [] => none

/-! ### Initialisation -/

/-- Onward requests of the next epoch are outstanding: the initialisation word waits (R105). -/
def State.nextBusy (s : State) (p : Port) : Bool :=
  (s.port p).onward.any (fun o => o.epoch == (s.port p).epoch + 1)

/-- The port sends its initialisation word, or waits for the next epoch to be free (R95, R105). -/
def State.initPort (s : State) (p : Port) : State :=
  if s.nextBusy p then s.setPort p { s.port p with initDue := true } else s.sendInit p

end Sys2Proof.Machine
end

