-- ==== Sys2Proof/Machine/HomeOps.lean ====
section
/-!
DEFINITION. The home agent (R208-R240): its snoop filter, the supplier and the targets of a transaction (R222, R223), the order of
requests (R225, R229), what a snoop answer does (R226), retries and reservations (R230), dead agents (R233), lost homes (R234) and lines
in doubt (R235-R238). A line is named by its package address.
-/
namespace Sys2Proof.Machine
open Sys2Proof

/-! ### The snoop filter -/

/-- The agents in a PRESENT mask, in ascending index. -/
def agentsOf (m : BitVec 48) : List Nat := (List.range 48).filter (fun a => bit m a)

/-- The set of a line: L[22:6] of its tile-local address (R218). -/
def State.setOf (s : State) (line : Nat) : Nat := (s.map.home line).loc / 64 % 131072

/-- The entry of a line (R218). -/
def State.entry (s : State) (line : Nat) : Option Entry := SMap.look s.ha.filter line

/-- An entry recorded; one whose PRESENT is zero is freed (R219). -/
def State.setEntry (s : State) (line : Nat) (e : Entry) : State :=
  { s with ha := { s.ha with filter := if e.present = 0 then SMap.del s.ha.filter line else SMap.set s.ha.filter line e } }

/-- An entry freed. -/
def State.freeEntryOf (s : State) (line : Nat) : State := { s with ha := { s.ha with filter := SMap.del s.ha.filter line } }

/-- An entry used now, for the least recently used way (R220). -/
def State.touch (s : State) (line : Nat) : State :=
  match s.entry line with
  | some e => { s with ha := { s.ha with stamp := s.ha.stamp + 1, filter := SMap.set s.ha.filter line { e with used := s.ha.stamp + 1 } } }
  | none => s

/-- A holder's bit cleared, with the ownership it had (R219). -/
def Entry.drop (e : Entry) (a : Nat) : Entry :=
  let own := e.kind != .none && e.owner == a
  { e with present := setBit e.present a false, kind := if own then .none else e.kind, owner := if own then 0 else e.owner }

/-- The one holder of a line, its owner in kind X (R225). -/
def Entry.sole (a : Nat) (cur : Bool) (used : Nat) : Entry :=
  { present := setBit 0 a true, kind := .x, owner := a, cur := cur, doubt := .none, used := used }

/-! ### The tracker -/

/-- The transaction of a line (R221). -/
def State.txnOf (s : State) (line : Nat) : Option Txn := s.ha.txns.find? (fun x => x.line == line)
/-- The transaction with a number. -/
def State.txn (s : State) (id : Nat) : Option Txn := s.ha.txns.find? (fun x => x.id == id)
/-- A transaction changed. -/
def State.setTxn (s : State) (x : Txn) : State :=
  { s with ha := { s.ha with txns := s.ha.txns.map (fun y => if y.id = x.id then x else y) } }
/-- Tracker entries in use, with those of requests that wait for a way (R220, R221). -/
def State.trackerUsed (s : State) : Nat := s.ha.txns.length + s.ha.txns.countP (fun x => x.next.isSome)
/-- A line is in a transient state (R225). -/
def State.lineBusy (s : State) (line : Nat) : Bool :=
  s.ha.txns.any (fun x => x.line == line || (match x.next with | some q => q.2.addr / 64 * 64 == line | none => false))
/-- The lowest transaction number not in use. -/
def State.freeTxn (s : State) : Nat := ((List.range 256).find? (fun k => (s.txn k).isNone)).getD 256
/-- The line of a request that the home agent orders by itself. -/
def HReq.line (r : HReq) : Nat := r.addr / 64 * 64
/-- The requester's agent index (R208). -/
def HReq.agent (r : HReq) : Nat := agentOf r.tile r.port.val

/-! ### Poison -/

/-- A line written as poison by its home agent (R225, R233), in the order of its line (R20): here, or by the tile that stands in for its home. -/
def State.homePoison (s : State) (line : Nat) : State :=
  let h := s.map.home line
  if h.tile = s.t then s.poisonHere h.loc
  else if h.parity = some s.t then s.poisonStand line h.loc
  else s

/-- A line lost: written as poison and counted in LINES_LOST (R240). -/
def State.loseLine (s : State) (line : Nat) : State := (s.homePoison line).count 0x5002 21

/-- The number of a line's home state (log entry 9): HI, HS, HX, HO, HBusySnp, HBusyMem, HWbPend, HReserved, HInDoubt dirty and shared. -/
def State.homeStateNo (s : State) (line : Nat) : Nat :=
  match s.txnOf line with
  | some x => (match x.busy with | .snp => 4 | .mem => 5 | .wb => 6)
  | none =>
    if s.ha.resv.any (fun v => v.line == line && v.since.isSome) then 7
    else match s.entry line with
      | none => 0
      | some e => (match e.doubt, e.kind with | .dirty, _ => 8 | .shared, _ => 9 | .none, .none => 1 | .none, .x => 2 | .none, .o => 3)

/-- A protocol violation's event, at most once an agent in 8192 frames (R225, R226, R241): message and state are coded as log
entry 9 says. -/
def State.violation (s : State) (a line msg st : Nat) : State :=
  s.logLim 0x0A03 a 8192 1 (fun _ => [w16 a] ++ three line ++ [Config.msgCode msg, Config.homeCode st])

/-! ### Reclaim and doubt -/

/-- An entry met while agents are being reclaimed (R233): a dead owner's line is poisoned, which the stack then holds as the line's current value, and its owner
cleared; a dead holder's bit is cleared. -/
def State.reclaim (s : State) (line : Nat) : State :=
  match s.entry line with
  | none => s
  | some e =>
    (agentsOf (e.present &&& s.ha.dead)).foldl (fun z a =>
      match z.entry line with
      | none => z
      | some e1 =>
        let z1 := if e1.kind != .none && e1.owner == a then
            let z0 := z.loseLine line
            { z0 with ha := { z0.ha with deadLost := SMap.put 0 z0.ha.deadLost a (SMap.getD z0.ha.deadLost a 0 + 1) } }
          else z
        z1.setEntry line (let e2 := e1.drop a
          if e1.kind != .none && e1.owner == a then { e2 with cur := true } else e2)) s

/-- How a split leaves an entry (R235). -/
def State.classOf (s : State) (e : Entry) : Doubt :=
  if e.doubt != .none then e.doubt
  else if e.kind != .none && s.across (e.owner / 6) then .dirty
  else if (agentsOf e.present).any (fun a => s.across (a / 6)) then .shared
  else .none

/-- An entry met while the split is classified (R235). -/
def State.classify1 (s : State) (line : Nat) : State :=
  if s.ha.classify then
    match s.entry line with
    | some e => s.setEntry line { e with doubt := s.classOf e }
    | none => s
  else s

/-! ### Snoops -/

/-- Agents that a home may snoop: of tiles in view, not across a split, not dead (R233, R234, R236). -/
def State.reach (s : State) (a : Nat) : Bool := bit s.repair.view (a / 6) && !s.across (a / 6) && !bit s.ha.dead a

/-- Agents whose answer a home's own snoop awaits: one out of view answers by the notice of its death (R220, R233). -/
def State.owes (s : State) (a : Nat) : Bool := !s.across (a / 6) && !bit s.ha.dead a

/-- Agents in ring order from a tile (R222). -/
def State.ringAgents (s : State) (u : Nat) : List Nat :=
  (List.range s.n).flatMap (fun k => (List.range 6).map (fun j => 6 * ((u + k) % s.n) + j))

/-- The supplier of R222: the owner, or with S_FWD set the nearest other holder. -/
def State.supplier (s : State) (e : Entry) (tile : Nat) (not_ : Nat) (share : Bool) : Option Nat :=
  if e.kind != .none then some e.owner
  else if share && bit (s.reg 0x5000 1) 15 then (s.ringAgents tile).find? (fun a => bit e.present a && a != not_ && s.reach a)
  else none

/-- The key of an agent's line at its home. -/
def givenKey (a line : Nat) : Nat := line * 64 + a

/-- A snoop message reaches the ring stop of its targets' tile (R210): it waits there for each targeted agent, in order of arrival. SnpDown goes to
every target alike; with SnpGive only the supplier gives, the others drop (R225). -/
def State.holdSnoops (s : State) (m : SnoopMsg) : State :=
  let one := fun (a : Nat) =>
    let n : Snoop := { agent := a, ty := if m.sup = some a ∨ m.ty = .down then m.ty else .drop, fwd := m.sup == some a, home := m.home, txn := m.txn,
                       req := m.req, line := m.line }
    ({ s := n, shown := none, done := false, after := (m.after.find? (fun e => e.1 == a)).map (fun e => e.2) } : SnoopSt)
  { s with snoops := s.snoops ++ (m.targets.filter (fun a => a / 6 == s.t)).map one }

/-- The snoops of a transaction: one message on each arc, counted once (R14, R223, R240); this tile's agents are told at its own ring stop. Each names
the request of a target that this home answered last on the line (R217). -/
def State.sendSnoops (s : State) (id line req : Nat) (ty : SnpType) (sup : Option Nat) (targets : List Nat) : State :=
  if targets.isEmpty then s
  else
    let m := fun (l : List Nat) =>
      ({ ty := ty, sup := sup, home := s.t, txn := id, req := req, line := line, targets := l,
         after := l.filterMap (fun a => (SMap.look s.ha.given (givenKey a line)).map (fun g => (a, g.2))) } : SnoopMsg)
    let arc := fun (z : State) (b : Bool) =>
      let l := targets.filter (fun a => s.arcTo (a / 6) == some b)
      if l.isEmpty then z else z.ring (.snoop (some b) (m l))
    arc (arc ((s.count 0x5002 1).holdSnoops (m targets)) true) false

/-! ### Transactions -/

/-- A transaction's request number on the snoop channel (R215). -/
def reqNo (r : HReq) : Nat := if isCoherent r.op then r.agent else 0x3F

/-- A transaction opened (R221). -/
def State.openTxn (s : State) (x : Txn) : State := { s with ha := { s.ha with txns := s.ha.txns ++ [x], serial := s.ha.serial + 1 } }

/-- A stack read that a transaction no longer needs leaves its queue (R224), alone of its part's lines. -/
def State.dropRead (s : State) (x : Txn) : State :=
  if !x.stackDue then s
  else
    let s1 := { s with sched := { s.sched with parts := s.sched.parts.map (fun (p : Part) =>
      if decide (p.lns.length ≤ 1) || !p.serves (.homeRead x.no) then p else { p with lns := p.lns.filter (fun l => l.no != x.no) }) } }
    s1.dropParts (fun p => p.serves (.homeRead x.no))

/-- A fresh transaction on a line. -/
def State.newTxn (s : State) (line : Nat) (kind : TxKind) (r : Option HReq) (idx : Nat) (e : Option Entry) : Txn :=
  { id := s.freeTxn, no := s.ha.serial + 1, line := line, kind := kind, idx := idx, okind := match e with | some x => x.kind | none => .none, sup := none,
    req := r, busy := .snp, wait := [], owner := match e with | some x => (if x.kind = .none then none else some x.owner) | none => none,
    stackDue := false, stack := none, corr := false, fwd := none, dropped := none, bad := false,
    cur := match e with | some x => x.cur | none => true, grant := .none, next := none }

/-- One line of a request, which keeps the length it has as a whole (R144). -/
def HReq.oneLine (r : HReq) : HReq := { r with lines := 1, total := if r.total = 0 then r.lines else r.total }

/-- The address of line `idx` of a request. -/
def HReq.lineAddr (r : HReq) (idx : Nat) : Nat := (r.addr + 64 * (idx - r.first)) / 64 * 64

/-- A home's own access to a line (R225): the request it stands for, as a single line. -/
def State.lineReq (s : State) (r : Option HReq) (line : Nat) (op : Op) (d : List PLine) : HReq :=
  match r with
  | some q => { q.oneLine with op := op, addr := line, data := d }
  | none => { internalReq s.t 28 op line with data := d }

/-- The stack read of a transaction starts (R224, R225). -/
def State.startRead (s : State) (x : Txn) : State :=
  (s.setTxn { x with stackDue := true }).queueHome (s.lineReq x.req x.line .read []) (.homeRead x.no)

/-- The stack write of a transaction starts (R225, HWbPend). STACK_CURRENT is 1 from here (R219). -/
def State.startWrite (s : State) (x : Txn) (d : Line) : State :=
  let s1 := match s.entry x.line with
    | some e => s.setEntry x.line { e with cur := true }
    | none => s
  ((s1.dropRead x).setTxn { x with busy := .wb, stackDue := false }).queueHome (s1.lineReq x.req x.line .wrBack [⟨d, false⟩]) (.homeWrite x.no)

/-- The home notes what it answered last to an agent on a line (R217), and the master to which it granted the copy that the agent has (R126). -/
def State.noteGiven (s : State) (r : HReq) (grant : Bool) : State :=
  let k := givenKey r.agent r.line
  let m := if grant then r.master.toNat else ((SMap.look s.ha.given k).map (fun g => g.1)).getD r.master.toNat
  { s with ha := { s.ha with given := SMap.set s.ha.given k (m, r.txid) } }

/-- An answer of one line from the home (R214, R229). -/
def State.homeAnswer (s : State) (r : HReq) (idx : Nat) (c : Cresp) (st : Status) (corr : Bool) (d : Option Line) : State :=
  if isCoherent r.op then
    (s.noteGiven r (crespData c || (c == .ack && r.op == .upgrade))).answer r (match d with | some l => [LineAns.mk 0 .ok corr l] | none => [noData 0 st]) c
  else s.answer r [LineAns.mk idx st (corr && st == .ok) (if st = .ok then d.getD 0 else 0)] .none

/-! ### Retries and reservations -/

/-- The oldest reservation of a line (R230). -/
def State.oldest (s : State) (line : Nat) : Option Resv := s.ha.resv.find? (fun v => v.line == line)

/-- The oldest reservation of a stable line puts the line in HReserved from now (R230). -/
def State.reserveFrom (s : State) (line : Nat) : State :=
  if s.lineBusy line then s
  else match s.oldest line with
    | some v =>
      if v.since.isSome then s
      else { s with ha := { s.ha with resv := s.ha.resv.map (fun x =>
        if x.line = line ∧ x.agent = v.agent then { x with since := some s.anvil.frameNo } else x) } }
    | none => s

/-- Reservations removed. -/
def State.dropResv (s : State) (f : Resv → Bool) : State := { s with ha := { s.ha with resv := s.ha.resv.filter (fun v => !f v) } }

/-- A Retry (R225, R230); at RAGE 7 it reserves the line for its agent while the table has room. -/
def State.retry (s : State) (r : HReq) (mayReserve : Bool) : State :=
  let s1 := ((s.count 0x5002 13).noteGiven r false).answer r [noData 0 .ok] .retry
  if r.rage < 7 ∨ !mayReserve ∨ s1.ha.resv.any (fun v => v.line == r.line && v.agent == r.agent) then s1
  else if s1.ha.resv.length < 64 then
    ({ s1 with ha := { s1.ha with resv := s1.ha.resv ++ [Resv.mk r.agent r.line none] } }).reserveFrom r.line
  else s1.logLim 0x0A05 0 8192 1 (fun _ => [w16 r.agent] ++ three r.line)

/-! ### The victim of a set -/

/-- Ways of a set in use: its entries, and lines being granted their first holder (R220). -/
def State.waysUsed (s : State) (line : Nat) : Nat :=
  s.ha.filter.countP (fun e => s.setOf e.1 == s.setOf line) +
    s.ha.txns.countP (fun x => (s.entry x.line).isNone && s.setOf x.line == s.setOf line &&
      (x.kind == .rdShared || x.kind == .rdUnique || x.kind == .upgrade))

/-- The victim of a set (R220, R226): the least recently used way whose line is stable, not in doubt, and holds no reservation. -/
def State.victim (s : State) (line : Nat) : Option (Nat × Entry) :=
  firstMin (fun a b => decide (a.2.used < b.2.used))
    (s.ha.filter.filter (fun e => s.setOf e.1 == s.setOf line && !s.lineBusy e.1 && (s.oldest e.1).isNone &&
      (if s.ha.classify then s.classOf e.2 else e.2.doubt) == .none))

/-! ### Completion -/

/-- The entry and the coherence response that a served request leaves (R219, R225), from the entry as the answers left it; `fwd` tells
whether a cache supplied the line, and whether dirty. -/
def grantOf (x : Txn) (a : Nat) (e : Option Entry) (fwd : Option Bool) (used : Nat) : Entry × Cresp :=
  let was := e.getD { present := 0, kind := .none, owner := 0, cur := true, doubt := .none, used := used }
  let add := { was with present := setBit was.present a true, used := used }
  match x.kind, fwd with
  | .rdShared, some true => ({ add with cur := false }, .dataO)
  | .rdShared, some false => (add, .dataS)
  | .rdShared, none =>
    if x.grant = .dataS ∨ was.present ≠ 0 then (add, .dataS) else (Entry.sole a true used, .dataE)
  | .upgrade, _ => (Entry.sole a (was.cur && !(x.okind == .o && x.owner != some a)) used, .ack)
  | _, some true => (Entry.sole a false used, .dataM)
  | _, _ => (Entry.sole a true used, .dataE)

/-- A served request's data: from a cache, else from the stack (R224). -/
def Txn.data (x : Txn) : PLine × Bool :=
  match x.fwd with
  | some (d, _) => (⟨d, false⟩, false)
  | none => (x.stack.getD ⟨0, true⟩, x.corr)

/-- The line that a stand-in keeps no entry for: its home's part is gone and nothing stands rebuilt here; with n = 2 and a lost stack, the walk has not
come to it (R234; log entry 69). Nor is one kept for a tile that takes its lines back (R323). -/
def State.lostLine (s : State) (line : Nat) : Option Nat :=
  let h := s.map.home line
  if h.parity = some s.t && h.tile != s.t && s.goneAt h.tile h.loc && ((s.rebuiltAt h.loc).isNone || s.seam.taking.contains h.tile) &&
      !(s.n == 2 && bit s.seam.lost h.tile && !(s.ha.work.contains (line, .lostHome)) &&
        !(s.ha.lostRecall == some h.tile && decide (s.ha.lostPos ≤ (h.loc - s.map.ord) / 64))) then some h.tile
  else none

/-- A copy just granted is recalled where the access group has taken its coherence away since the request was checked (R126). -/
def State.grantLate (s : State) (line : Nat) (r : HReq) : State :=
  if s.stillCoherent r || s.ha.work.contains (line, .recall) then s
  else { s with ha := { s.ha with work := s.ha.work ++ [(line, TxKind.recall)] } }

/-- A request is answered with its data (R225, R229). A line that reads as poison is granted to nobody; of a lost home's line no entry is kept
(R234). -/
def State.serve (s : State) (x : Txn) (r : HReq) : State :=
  let d := x.data
  let s0 := if x.fwd.isSome then s.count 0x5002 9 else s
  if x.kind ≠ .upgrade ∧ d.1.poison then s0.homeAnswer r x.idx .poison .poison false none
  else if !isCoherent r.op then s0.homeAnswer r x.idx .none .ok d.2 (some d.1.data)
  else
    let used := s0.ha.stamp + 1
    let g := grantOf x r.agent (s0.entry x.line) (x.fwd.map (fun f => f.2)) used
    let s1 := { s0 with ha := { s0.ha with stamp := used } }
    let s2 := if (s0.lostLine x.line).isSome then s1 else (s1.setEntry x.line g.1).grantLate x.line r
    s2.homeAnswer r 0 g.2 .ok d.2 (if g.2 = .ack then none else some d.1.data)

/-- A transaction leaves the tracker, and a stack read of it that still waits its queue (R224). -/
def State.closeTxn (s : State) (x : Txn) : State :=
  let s1 := s.dropRead x
  { s1 with ha := { s1.ha with txns := s1.ha.txns.filter (fun y => y.id ≠ x.id) } }

/-- A transaction whose data is lost completes with Poison: the line is poisoned and its entry freed (R225, R226). -/
def State.endBad (s : State) (x : Txn) : State :=
  let s1 := ((s.homePoison x.line).freeEntryOf x.line).closeTxn x
  match x.req with
  | some r =>
    if x.kind = .plainWrite then s1.lineWritten r x.idx 1 true
    else s1.homeAnswer r x.idx .poison .poison false none
  | none => s1

/-- A plain write is ordered: the line is written whole and the entry freed (R229). -/
def State.plainWriteNow (s : State) (x : Txn) : State :=
  let s1 := (s.freeEntryOf x.line).closeTxn x
  match x.req with
  | some r => s1.queueHome { r.oneLine with addr := x.line, first := x.idx, data := [nth r.data (x.idx - r.first) ⟨0, false⟩] } .req
  | none => s1

/-- An in-doubt dirty line is resolved by the heal (R238): `d` is dirty data its owner returned. -/
def State.endHeal (s : State) (x : Txn) : State :=
  let s1 := s.freeEntryOf x.line
  if s.ha.expired then s1.closeTxn x
  else match x.dropped with
    | some d =>
      ({ s1 with ha := { s1.ha with healWb := s1.ha.healWb + 1 } }).startWrite x d
    | none =>
      if x.cur then s1.closeTxn x
      else ((({ s1 with ha := { s1.ha with healLost := s1.ha.healLost + 1 } }).loseLine x.line)).closeTxn x

/-- The current value of a line of a lost home is stored by its stand-in (R234). -/
def State.lostWrite (s : State) (x : Txn) (d : Line) : State :=
  s.queueHome (s.lineReq x.req x.line .wrBack [⟨d, false⟩]) (.homeWrite 0)

/-- Dirty data that came back on SnpDrop is stored, or the transaction ends (R226). -/
def State.storeOrEnd (s : State) (x : Txn) : State :=
  match x.dropped with
  | some d => s.startWrite x d
  | none => s.closeTxn x

/-- A request that needs data has it, awaits it, or asks the stack for it (R224, R226). Without its requester, dirty data is stored
(R233). -/
def State.useData (s : State) (x : Txn) : State :=
  match x.req with
  | none => (match x.fwd, x.dropped with
    | some (d, true), _ => s.startWrite x d
    | _, some d => s.startWrite x d
    | _, none => s.closeTxn x)
  | some r =>
    if x.fwd.isSome || x.stack.isSome then (s.serve x r).closeTxn x
    else if x.stackDue then s.setTxn { x with busy := .mem }
    else
      let s1 := s.startRead { x with busy := .mem }
      match s1.txn x.id with
      | some y => if y.stack.isSome then (s1.serve y r).closeTxn y else s1
      | none => s1

/-- A request for a line of a lost home is served as in HI, from what the SnpDrops gave back or from the stand-in's reading (R234). -/
def State.endLost (s : State) (x : Txn) : State :=
  match x.req with
  | none => s.storeOrEnd x
  | some r =>
    match r.op with
    | .writePosted => s.plainWriteNow x
    | .writeAck => s.plainWriteNow x
    | .wrBack =>
      let s1 := match x.dropped with
        | some d => s.lostWrite x d
        | none => s
      (s1.homeAnswer r 0 .ack .ok false none).closeTxn x
    | .read => read s x
    | .rdShared => read s x
    | .rdUnique => read s x
    | .upgrade => read s x
    | .masterReset => s.closeTxn x
where
  /-- The line's current value is stored and granted, or read. -/
  read (s : State) (x : Txn) : State :=
    match x.dropped with
    | some d => (s.lostWrite x d).useData { x with fwd := some (d, false) }
    | none => s.useData x

/-- The last answer has come, or none was needed (R226): the transaction reads, writes, or completes. -/
def State.settle (s : State) (x : Txn) : State :=
  if x.bad then s.endBad x
  else match x.kind with
    | .rdShared => s.useData x
    | .rdUnique => s.useData x
    | .plainRead => s.useData x
    | .lostHome => s.endLost x
    | .upgrade =>
      match x.req with
      | some r => (s.serve x r).closeTxn x
      | none => s.closeTxn x
    | .plainWrite => s.plainWriteNow x
    | .wrBack => s.storeOrEnd x
    | .recall => (s.freeEntryOf x.line).storeOrEnd x
    | .forget => if s.ha.work.contains (x.line, .forget) then s.closeTxn x else (s.freeEntryOf x.line).closeTxn x
    | .backInval => (s.freeEntryOf x.line).storeOrEnd x
    | .hold => s.closeTxn x
    | .heal => s.endHeal x

/-! ### Ordering a request -/

/-- A transaction begins: its snoops go out, its stack read starts beside them where STACK_EARLY allows (R223, R224), and with nothing to
wait for it settles at once. -/
def State.begin (s : State) (line : Nat) (kind : TxKind) (r : Option HReq) (idx : Nat) (ty : SnpType) (sup : Option Nat)
    (targets : List Nat) (grant : Cresp) (early : Bool) (next : Option (Nat × HReq) := none) : State :=
  let x := { s.newTxn line kind r idx (s.entry line) with sup := sup, wait := targets, grant := grant, next := next }
  let req := match r with
    | some q => reqNo q
    | none => 0x3F
  let coherent := match r with
    | some q => isCoherent q.op
    | none => false
  let s1 := (if targets.isEmpty && coherent then s.count 0x5002 5 else s).openTxn x
  let s2 := (s1.sendSnoops x.id line req ty sup targets).touch line
  if targets.isEmpty then s2.settle x
  else if early && bit (s.reg 0x5000 1) 14 then s2.startRead x
  else s2

/-- A protocol violation by a request (R225): answered Poison, the line poisoned, its entry freed. -/
def State.violate (s : State) (r : HReq) (st : Nat) : State :=
  ((((s.loseLine r.line).freeEntryOf r.line).violation r.agent r.line (opCode r.op) st).count 0x5002 5).homeAnswer r 0 .poison .poison false none

/-- An Ack given at once (R225): the accepted WR_BACK clears its sender's bit (R219). -/
def State.ackNow (s : State) (r : HReq) (e : Option Entry) : State :=
  let s1 := s.count 0x5002 5
  let s2 := match e with
    | some x => s1.setEntry r.line (x.drop r.agent)
    | none => s1
  s2.homeAnswer r 0 .ack .ok false none

/-- WR_BACK in a stable state (R225). -/
def State.orderWrBack (s : State) (r : HReq) (e : Option Entry) : State :=
  match e with
  | none => s.ackNow r none
  | some x =>
    if x.kind != .none && x.owner == r.agent then
      if r.dirty then
        let d := (nth r.data 0 ⟨0, false⟩)
        let t := { s.newTxn r.line .wrBack (some r) 0 e with busy := .wb }
        let s1 := (((s.count 0x5002 5).setEntry r.line { x.drop r.agent with cur := true }).openTxn t)
        s1.queueHome { r with addr := r.line, lines := 1, data := [d] } (.homeWrite t.no)
      else if x.kind == .o then s.violate r 3
      else s.ackNow r e
    else s.ackNow r e

/-- RD_UNIQUE in a stable state, and an UPGRADE taken as one (R225). -/
def State.orderUnique (s : State) (r : HReq) (e : Option Entry) : State :=
  let a := r.agent
  match e with
  | none => s.begin r.line .rdUnique (some r) 0 .give none [] .dataE false
  | some x =>
    let others := (agentsOf x.present).filter (fun b => b ≠ a)
    if x.kind != .none && x.owner == a then
      if x.kind == .o then s.violate r 3
      else (s.setEntry r.line (x.drop a)).begin r.line .rdUnique (some r) 0 .give none [] .dataE false
    else
      let sup := s.supplier x r.tile a true
      s.begin r.line .rdUnique (some r) 0 .give sup others .dataE (x.kind != .o)

/-- RD_SHARED in a stable state (R225). -/
def State.orderShared (s : State) (r : HReq) (e : Option Entry) : State :=
  let a := r.agent
  match e with
  | none => s.begin r.line .rdShared (some r) 0 .down none [] .dataE false
  | some x =>
    if x.kind != .none && x.owner == a then
      if x.kind == .o then s.violate r 3
      else (s.setEntry r.line (x.drop a)).begin r.line .rdShared (some r) 0 .down none [] .dataE false
    else
      let sup := s.supplier x r.tile a true
      s.begin r.line .rdShared (some r) 0 .down sup sup.toList (if x.kind = .none then .dataS else .dataE) (x.kind != .o)

/-- UPGRADE in a stable state (R225). -/
def State.orderUpgrade (s : State) (r : HReq) (e : Option Entry) : State :=
  let a := r.agent
  match e with
  | none => s.orderUnique r e
  | some x =>
    let others := (agentsOf x.present).filter (fun b => b ≠ a)
    if x.kind = .x then
      (if x.owner = a then s.begin r.line .upgrade (some r) 0 .drop none [] .ack false else s.orderUnique r e)
    else if bit x.present a then s.begin r.line .upgrade (some r) 0 .drop none others .ack false
    else s.orderUnique r e

/-- A plain READ of a line (R229): an owner is asked with SnpDown, else the stack is read. -/
def State.orderPlainRead (s : State) (r : HReq) (idx line : Nat) (e : Option Entry) : State :=
  match e with
  | some x =>
    if x.kind = .none then s.begin line .plainRead (some r) idx .down none [] .none false
    else s.begin line .plainRead (some r) idx .down (some x.owner) [x.owner] .none (x.kind == .x)
  | none => s.begin line .plainRead (some r) idx .down none [] .none false

/-- A plain write of a line (R229): every holder is sent SnpDrop first. -/
def State.orderPlainWrite (s : State) (r : HReq) (idx line : Nat) (e : Option Entry) : State :=
  s.begin line .plainWrite (some r) idx .drop none (match e with | some x => agentsOf x.present | none => []) .none false

/-- A request in an in-doubt state (R225, R229); none where it is served as in the stable state. -/
def State.inDoubt (s : State) (r : HReq) (idx : Nat) (d : Doubt) : Option State :=
  match d, r.op with
  | .none, _ => none
  | .dirty, .wrBack => some (s.ackNow r none)
  | .dirty, .read => some (s.homeAnswer r idx .none .poison false none)
  | _, .writeAck => some (s.lineWritten r idx 6 true)
  | _, .writePosted => some (s.lineWritten r idx 6 true)
  | .dirty, _ => some ((s.count 0x5002 5).homeAnswer r 0 .poison .poison false none)
  | .shared, .rdUnique => some ((s.count 0x5002 5).homeAnswer r 0 .partition .partition false none)
  | .shared, .upgrade => some ((s.count 0x5002 5).homeAnswer r 0 .partition .partition false none)
  | .shared, _ => none

/-- A request on a stable line that is not in doubt is ordered by its opcode (R225, R229). -/
def State.orderOp (s : State) (r : HReq) (idx line : Nat) : State :=
  let e := s.entry line
  match r.op with
  | .read => s.orderPlainRead r idx line e
  | .writePosted => s.orderPlainWrite r idx line e
  | .writeAck => s.orderPlainWrite r idx line e
  | .rdShared => s.orderShared r e
  | .rdUnique => s.orderUnique r e
  | .upgrade => s.orderUpgrade r e
  | .wrBack => s.orderWrBack r e
  | .masterReset => s

/-- A grant that needs a way of a full set (R220): a victim that the reclaim of dead agents does not free already is back-invalidated, in a tracker
entry beside the request's own; with no victim, or no room for the two, the request is retried. -/
def State.orderInto (s : State) (r : HReq) (idx line : Nat) : State :=
  match s.victim line with
  | none => s.retry r true
  | some (v, _) =>
    let s1 := s.reclaim v
    match s1.entry v with
    | none => s1.orderOp r idx line
    | some ve =>
      let ts := (agentsOf ve.present).filter s1.owes
      if ts.isEmpty then ((s1.count 0x5002 17).freeEntryOf v).orderOp r idx line
      else if 255 ≤ s1.trackerUsed then s1.retry r true
      else (s1.count 0x5002 17).begin v .backInval none 0 .drop none ts .none false (some (0, r))

/-- A request is ordered on its stable line (R225, R229). -/
def State.order (s0 : State) (r : HReq) (idx : Nat) : State :=
  let line := r.lineAddr idx
  let s := (s0.classify1 line).reclaim line
  if (s.lostLine line).isSome then
    s.begin line .lostHome (some r) idx .drop none ((s.ringAgents s.t).filter s.reach) .dataE false
  else
    let e := s.entry line
    match (match e with | some x => s.inDoubt r idx x.doubt | none => none) with
    | some z => z
    | none =>
      let grants := r.op == .rdShared || r.op == .rdUnique || r.op == .upgrade
      if e.isNone && grants && decide (16 ≤ s.waysUsed line) then s.orderInto r idx line else s.orderOp r idx line

/-! ### Lines that become free -/

/-- Work of the home itself on a line (R57, R126, R234, R237, R238): its holders are sent SnpDrop, every live agent for a line of a lost home. -/
def State.ownWork (s0 : State) (line : Nat) (k : TxKind) : State :=
  let s := if k = .recall ∨ k = .heal then s0.reclaim line else s0
  if k = .lostHome then s.begin line k none 0 .drop none ((s.ringAgents s.t).filter s.reach) .none false
  else match s.entry line with
    | none => s
    | some e =>
      let held := agentsOf e.present
      s.begin line k none 0 .drop none (if k = .heal then held.filter (fun a => !bit s.ha.dead a) else if k = .hold then held.filter s.reach
        else held.filter s.owes) .none false

/-- The home's own waiting work starts on lines that are free, while the tracker has room. -/
def State.startWork (s : State) : Nat → State
  | 0 => s
  | fuel + 1 =>
    if 256 ≤ s.trackerUsed then s
    else match takeFirst (fun w : Nat × TxKind => !s.lineBusy w.1) s.ha.work with
      | none => s
      | some (w, rest) => (({ s with ha := { s.ha with work := rest } }).ownWork w.1 w.2).startWork fuel

/-- Requests in the plain list (R221). -/
def State.plainUsed (s : State) : Nat := ((s.ha.plain.map (fun x => (x.2.tile, x.2.port, x.2.txid))).eraseDups).length

/-- The plain list is served in arrival order, each line once it is free (R221, R230), and filled again from the requests that wait. -/
def State.servePlain (s : State) : Nat → State
  | 0 => s
  | fuel + 1 =>
    let free := fun (x : Nat × HReq) =>
      let l := x.2.lineAddr x.1
      !s.lineBusy l && (s.oldest l).isNone
    match (if 256 ≤ s.trackerUsed then none else takeFirst free s.ha.plain) with
    | some (x, rest) => (({ s with ha := { s.ha with plain := rest } }).order x.2 x.1).servePlain fuel
    | none =>
      match s.ha.plainWait with
      | [] => s
      | x :: rest =>
        if s.plainUsed < 64 then ({ s with ha := { s.ha with plain := s.ha.plain ++ [x], plainWait := rest } }).servePlain fuel
        else s

/-- A line has become free or reserved: its reservation, the home's own work and the plain requests follow (R221, R230). -/
def State.afterFree (s : State) (line : Nat) : State :=
  let s1 := (s.reserveFrom line).startWork (s.ha.work.length + 1)
  s1.servePlain (2 * (s1.ha.plain.length + s1.ha.plainWait.length) + 1)

/-- A transaction may have ended: a request that waited for its way is ordered, and what waited for its line goes on. -/
def State.afterTxn (s : State) (x : Txn) : State :=
  if s.ha.txns.any (fun y => y.id == x.id && y.line == x.line) then s
  else
    let s1 := match x.next with
      | some (i, r) => (s.order r i).afterFree r.line
      | none => s
    s1.afterFree x.line

/-! ### Arrival -/

/-- While the heal is resolved, a request takes its line's entry out of doubt first (R238). -/
def State.heal1 (s : State) (line : Nat) : State :=
  if !s.ha.healing || s.lineBusy line then s
  else match s.entry line with
    | some e =>
      if e.doubt = .shared then s.setEntry line { e with doubt := .none }
      else if e.doubt = .dirty ∧ s.trackerUsed < 256 then s.ownWork line .heal
      else s
    | none => s

/-- A coherent request reaches its home agent (R221, R225, R230, R233). -/
def State.arriveCoherent (s0 : State) (r : HReq) : State :=
  if bit s0.ha.dead r.agent then s0.retry r false
  else
    let s := s0.heal1 r.line
    if s.lineBusy r.line || decide (256 ≤ s.trackerUsed) then s.retry r true
    else match s.oldest r.line with
      | some v =>
        if v.agent = r.agent then
          ((s.dropResv (fun x => x.line == r.line && x.agent == r.agent)).order r 0).afterFree r.line
        else s.retry r true
      | none => (s.order r 0).afterFree r.line

/-- A plain request to a coherent region reaches its home agent (R221, R229): its lines wait in the plain list, or at the home while
earlier ones do. -/
def State.arrivePlain (s : State) (r : HReq) (idxs : List Nat) : State :=
  let ls : List (Nat × HReq) := idxs.map (fun i => (i, r))
  let s1 : State := ls.foldl (fun z x => z.heal1 (r.lineAddr x.1)) s
  if !s1.ha.plainWait.isEmpty then { s1 with ha := { s1.ha with plainWait := s1.ha.plainWait ++ ls } }
  else
    let s2 : State := ({ s1 with ha := { s1.ha with plain := s1.ha.plain ++ ls } }).servePlain (s1.ha.plain.length + ls.length + 1)
    if s2.plainUsed ≤ 64 then s2
    else
      let late := fun (x : Nat × HReq) => sameReq x.2 r
      { s2 with ha := { s2.ha with plain := s2.ha.plain.filter (fun x => !late x), plainWait := s2.ha.plainWait ++ s2.ha.plain.filter late } }

/-- The lines of a request, as package addresses. -/
def HReq.lineList (r : HReq) : List Nat := (List.range r.lines).map (fun i => (r.addr + 64 * i) / 64 * 64)

/-- The copies of a line are being dropped by a map change (R57). -/
def State.forgetting (s : State) (line : Nat) : Bool :=
  s.ha.work.contains (line, .forget) || s.ha.txns.any (fun x => x.line == line && x.kind == .forget)

/-- A line awaits its recall, or the recalled data (R126). -/
def State.recalling (s : State) (line : Nat) : Bool :=
  s.ha.work.any (fun w => w.1 == line && w.2 == .recall) || s.ha.txns.any (fun x => x.line == line && x.kind == .recall)

/-- A line that this tile stands in for is in the row that is being rebuilt here (R200). -/
def State.rebuildingLine (s : State) (line : Nat) : Bool :=
  let h := s.map.home line
  h.parity == some s.t && h.tile != s.t && s.inRebuild h.loc

/-- A line for which this tile stands in only from a later tick (R312, R321). -/
def State.standsLater (s : State) (line : Nat) : Bool :=
  let h := s.map.home line
  decide (s.anvil.frameNo < s.seam.standFrom) && h.parity == some s.t && h.tile != s.t && s.goneAt h.tile h.loc

/-- A request waits at its home before anything is done with it (R16, R31, R57, R126, R200, R234, R321): for the domains it goes through, for the recall of a line
that has lost its coherence, for the copies that a map change drops, for the switch of a row that is being rebuilt, for the tick from which the stand-ins serve, or behind one that waits already on a
line of its own (R20). -/
def State.mustWait (s : State) (r : HReq) : Bool :=
  !s.dom 4 || (r.coherent && !s.dom 5) || (!s.dom 11 && r.lineList.any s.map.inSeam) || (!r.coherent && r.lineList.any s.recalling) || r.lineList.any s.forgetting ||
    ((isWrite r.op || r.coherent) && r.lineList.any s.rebuildingLine) || r.lineList.any s.standsLater || s.ha.held.any (fun x => x.lineList.any (fun l => r.lineList.contains l))

/-- A line that is to be written as poison through its stand-in (R320): here, or at the tile that stands in. -/
def State.poisonReport (s : State) (line : Nat) : State :=
  let h := s.map.home line
  if s.serving line ≠ s.t then s.sendRequest (s.serving line) { internalReq s.t 28 .writePosted line with data := [⟨0, true⟩] }
  else if h.tile = s.t then s.poisonHere h.loc
  else s.poisonStand line h.loc

/-- Work that another tile asks of this one's P28: a line of its row as it stands here, or as the stand-in has it (R195, R198-R200), a line that the home's
agent stores through its stand-in, or the report of a line that fostering leaves as poison (R320). A line is named by its package address, a parity line by
that of the asking home's line. -/
def State.takeSeam (s : State) (r : HReq) : State :=
  let h := s.map.home r.addr
  let ls := s.reqLines r
  if isWrite r.op then
    (if (nth r.data 0 ⟨0, true⟩).poison then s.poisonReport r.addr
     else if h.tile = s.t then s.queueHome r .poison else s.standIn r .poison ls)
  else if h.tile ≠ s.t ∧ s.goneAt h.tile h.loc then s.standIn r .req ls
  else s.joinQueue r .req false ls

/-- A request is taken by its home (R16, R136, R225), or as work for P28. -/
def State.takeRequest (s : State) (r : HReq) : State :=
  if r.port.val = 28 then s.takeSeam r
  else if !r.coherent then s.queueHome r .req
  else if isCoherent r.op then s.arriveCoherent r
  else s.arrivePlain r ((List.range r.lines).map (fun i => r.first + i))

/-- A request arrives at its home (R16, R136, R225). -/
def State.homeArrive (s : State) (r : HReq) : State :=
  if s.repair.fenced.isSome then s
  else if s.mustWait r then { s with ha := { s.ha with held := s.ha.held ++ [r] } }
  else s.takeRequest r

/-- Requests that waited at their home go on, in order, as far as they can. -/
def State.releaseHeld (s : State) : State :=
  if s.ha.held.isEmpty then s else s.ha.held.foldl (fun z r => z.homeArrive r) { s with ha := { s.ha with held := [] } }

/-! ### Answers -/

/-- What an answer leaves of the entry (R219, R226, R227). -/
def answered (e : Entry) (a : Nat) (ans : SnpAns) (keep : CState) : Entry :=
  let own := e.kind != .none && e.owner == a
  match ans with
  | .gone => e.drop a
  | .kept => if own then { e with kind := .none, owner := 0 } else e
  | .fwd =>
    if keep = .i then e.drop a
    else if keep = .o then { e with kind := .o, owner := a }
    else if own then { e with kind := .none, owner := 0 }
    else e

/-- An answer that loses an owner's dirty data (R226): from an owner of kind O without dirty data; with RESP 0 from an owner of either
kind. -/
def losesData (e : Option Entry) (a : Nat) (ans : SnpAns) (dirty zero : Bool) : Bool :=
  match e with
  | none => false
  | some x => x.owner == a && ((x.kind == .o && !(ans == .fwd && dirty)) || (zero && x.kind != .none))

/-- A snoop answer reaches the home (R226). DESIGN CHOICE: the violation of an answer whose TXN is not pending, of which no line is known, names address 0 and
the state HI (log entry 72). -/
def State.snoopAnswer (s : State) (a id : Nat) (ans : SnpAns) (keep : CState) (dirty : Bool) (d : Line) (zero : Bool) : State :=
  let msg := 16 + (if zero then 0 else match ans with | .gone => 1 | .kept => 2 | .fwd => 3)
  match s.txn id with
  | none => s.violation a 0 msg 0
  | some x =>
    if x.busy ≠ .snp ∨ !x.wait.contains a then s.violation a x.line msg (s.homeStateNo x.line)
    else
      let e := s.entry x.line
      let bad := losesData e a ans dirty zero && x.kind != .heal && x.kind != .hold && x.kind != .forget
      let s1 := if bad || zero then s.violation a x.line msg 4 else s
      let s2 := match e with
        | some y => s1.setEntry x.line (answered y a ans keep)
        | none => s1
      let x1 := { x with wait := x.wait.filter (fun b => b ≠ a), bad := x.bad || bad }
      let x2 := if ans = .fwd then
          (if x.sup = some a then { x1 with fwd := some (d, dirty) }
           else if dirty then { x1 with dropped := some d } else x1)
        else x1
      let s3 := s2.setTxn x2
      if x2.wait.isEmpty then (s3.settle x2).afterTxn x2 else s3

/-- The answer of an agent of this tile leaves its ring stop (R210, R216): the snoop that it names is answered, forwarded data goes to the requester's
entry tile, and the header to the home; one to this tile's own home is taken there. One that answers no snoop presented here goes to the home that it names. -/
def State.agentReply (s : State) (a : Nat) (n : SnpName) (ans : SnpAns) (keep : CState) (dirty : Bool) (d : Line) (zero : Bool) : State :=
  let id := n.txn.toNat
  match takeFirst (fun (x : SnoopSt) => x.s.agent == a && x.s.txn == id && x.s.home == n.home.val && x.shown.isSome) s.snoops with
  | none =>
    if n.home.val = s.t then s.snoopAnswer a id ans keep dirty d zero
    else if a / 6 = s.t ∧ n.home.val < s.n then s.ring (.snoopAnswer n.home a id ans zero keep dirty (if ans = .fwd then some d else none))
    else s
  | some (x, rest) =>
    let s1 := { s with snoops := rest }
    let s2 := if ans = .fwd ∧ x.s.fwd ∧ x.s.req < 48 then
        s1.ring (.forward (x.s.req / 6) (Fin.ofNat 32 (20 + x.s.req % 6)) x.s.line ⟨d, false⟩ dirty) else s1
    let direct := x.s.fwd && decide (x.s.req < 48)
    if x.s.home = s.t then s2.snoopAnswer a id ans keep dirty d zero
    else s2.ring (.snoopAnswer x.s.home a id ans zero keep dirty (if ans = .fwd ∧ !direct then some d else none))

/-! ### Stack accesses of the home -/

/-- A home's own stack access has work under way in the queues, on the bus or at the Seam engine. -/
def State.homeWorking (s : State) (o : Origin) : Bool :=
  s.sched.parts.any (fun p => p.serves o) || s.sched.flight.any (fun f => f.origin == o) || s.seam.recons.any (fun x => x.o == o) ||
    s.seam.writes.any (fun w => w.o == o)

/-- A stack read for the home returns (R226), once its line has come; `d` is what another tile gave back where that tile read it. -/
def State.homeRead (s : State) (id : Nat) (d : PLine) : State :=
  match s.txn id with
  | none => s
  | some x =>
    if !x.stackDue || (x.stack.isNone && s.homeWorking (.homeRead x.no)) then s
    else
      let x1 := { x with stack := some (x.stack.getD d), stackDue := false }
      let s1 := s.setTxn x1
      if x.busy = .mem then (s1.settle x1).afterTxn x1 else s1

/-- A home's stack write is done (R226), once its line is written: a WR_BACK is acknowledged and the line enters its stable state. -/
def State.homeWritten (s : State) (id : Nat) : State :=
  match s.txn id with
  | none => s
  | some x =>
    if x.busy ≠ .wb ∨ s.homeWorking (.homeWrite x.no) then s
    else
      let s1 := s.closeTxn x
      let s2 := match x.kind, x.req with
        | .wrBack, some r => s1.homeAnswer r 0 .ack .ok false none
        | _, _ => s1
      s2.afterTxn x

/-! ### Dead agents -/

/-- A transaction without its dead requester (R233): it ends as a plain read whose data is discarded. -/
def Txn.orphan (x : Txn) (a : Nat) : Txn :=
  let mine := fun (r : HReq) => isCoherent r.op && r.agent == a
  let x1 := match x.next with
    | some q => if mine q.2 then { x with next := none } else x
    | none => x
  match x1.req with
  | some r =>
    if mine r then
      { x1 with req := none, kind := if x1.kind = .rdShared ∨ x1.kind = .rdUnique ∨ x1.kind = .upgrade then .plainRead else x1.kind }
    else x1
  | none => x1

/-- A dead agent's pending snoop of a transaction is taken as RplGone (R233): a line it owned is reclaimed, but for one that the heal resolves by that answer
(R238) and one whose copies a map change drops (R57). -/
def State.goneFor (s : State) (a : Nat) (x0 : Txn) : State :=
  match s.txn x0.id with
  | none => s
  | some x =>
    if x.busy ≠ .snp ∨ !x.wait.contains a then s
    else
      let owned := match s.entry x.line with
        | some e => e.kind != .none && e.owner == a
        | none => false
      let quiet := x.kind == .heal || x.kind == .forget
      let s1 := if quiet then (match s.entry x.line with
          | some e => s.setEntry x.line (e.drop a)
          | none => s)
        else s.reclaim x.line
      let x1 := { x with wait := x.wait.filter (fun b => b ≠ a), stack := if owned && !quiet then some ⟨0, true⟩ else x.stack,
                         bad := x.bad || (owned && x.okind == .o && !quiet) }
      let s2 := s1.setTxn x1
      if x1.wait.isEmpty then (s2.settle x1).afterTxn x1 else s2

/-- A dead-agent notice reaches the home (R233). -/
def State.deadAgent (s : State) (a : Nat) (c : DeadCause) : State :=
  let no := match c with | .reset => 1 | .flushed => 2 | .snoopLimit => 3 | .fenced => 4
  let s1 : State := s.log1 0x0A01 [w16 a, w16 no]
  let s2 := { s1 with snoops := s1.snoops.filter (fun x => x.s.agent ≠ a),
                      ha := { s1.ha with dead := setBit s1.ha.dead a true, txns := s1.ha.txns.map (fun (x : Txn) => x.orphan a),
                                         resv := s1.ha.resv.filter (fun v => v.agent ≠ a) } }
  let s3 := s2.ha.txns.foldl (fun z x => z.goneFor a x) s2
  (s.ha.resv.filter (fun v => v.agent == a)).foldl (fun z v => z.afterFree v.line) s3

/-- The reclaim walk of an agent ends (R233). -/
def State.reclaimDone (s : State) (a : Nat) : State :=
  if !bit s.ha.dead a then s
  else
    let s1 := s.ha.filter.foldl (fun z e => if bit e.2.present a then z.reclaim e.1 else z) s
    let n := SMap.getD s1.ha.deadLost a 0
    ({ s1 with ha := { s1.ha with dead := setBit s1.ha.dead a false, deadLost := SMap.del s1.ha.deadLost a } }).log1 0x0A02 [w16 a, sat16 n]

/-- A request that a map change finds at its home is answered (R57): a coherent one is to be sent again, a WR_BACK is taken and its line discarded,
and the lines of a plain one are done on a store that reads as zero. -/
def State.forgetReq (s : State) (r : HReq) (idx : Nat) : State :=
  if r.op = .wrBack then s.homeAnswer r 0 .ack .ok false none
  else if isCoherent r.op then s.retry r false
  else if isWrite r.op then s.lineWritten r idx 0 true
  else s.homeAnswer r idx .none .ok false (some 0)

/-- Every cached copy is dropped, with no line written or poisoned: a map change (R57, R233). The requests at the home are answered, its own stack
accesses leave their queues, and SnpDrop goes to every holder of every line, of a line whose snoops are still
awaited once their answers have come. -/
def State.forgetCopies (s : State) : State :=
  let reqs := (s.ha.txns.filterMap (fun x => x.req.map (fun r => (x.idx, r)))) ++ (s.ha.txns.filterMap (fun x => x.next)) ++ s.ha.plain ++ s.ha.plainWait
  let waits := s.ha.txns.filter (fun x => x.busy == .snp)
  let s1 := s.dropParts (fun p => match p.origin with
    | .homeRead _ => true | .homeWrite _ => true
    | .req => false | .pickleWalk => false | .pickleFix => false | .pickleBack => false | .seamOld _ => false | .seamNew _ => false
    | .seamPoison _ => false | .standRead _ => false | .rebuild => false | .rebuildW => false | .poison => false | .row => false)
  let s2 := { s1 with ha := { s1.ha with
    txns := waits.map (fun (x : Txn) => { x with req := none, next := none, kind := .forget, stackDue := false, bad := false }), plain := [], plainWait := [],
    resv := [], work := s1.ha.filter.map (fun (e : Nat × Entry) => (e.1, TxKind.forget)), deadLost := [] } }
  let s3 := reqs.foldl (fun z x => z.forgetReq x.2 x.1) s2
  s3.startWork (s3.ha.work.length + 1)

/-- Lines recalled by SnpDrop with dirty data written (R126): at once, or once a transient line becomes stable. -/
def State.recallLines (s : State) (ls : List Nat) : State :=
  ({ s with ha := { s.ha with work := s.ha.work ++ ls.map (fun l => (l, TxKind.recall)) } }).startWork (s.ha.work.length + ls.length + 1)

/-! ### Split and heal -/

/-- In-doubt lines, by kind (R235, R239). -/
def State.doubts (s : State) (d : Doubt) : Nat := s.ha.filter.countP (fun e => e.2.doubt == d)

/-- The answer to a request whose transaction the split ends (R229, R236). -/
def State.splitAnswer (s : State) (r : HReq) (idx : Nat) (dirty : Bool) : State :=
  match r.op with
  | .writePosted => s.lineWritten r idx 6 true
  | .writeAck => s.lineWritten r idx 6 true
  | .wrBack => s.homeAnswer r 0 .ack .ok false none
  | .masterReset => s
  | .read => s.homeAnswer r idx .none .poison false none
  | .rdShared => s.homeAnswer r 0 .poison .poison false none
  | .rdUnique => s.homeAnswer r 0 (if dirty then .poison else .partition) (if dirty then .poison else .partition) false none
  | .upgrade => s.homeAnswer r 0 (if dirty then .poison else .partition) (if dirty then .poison else .partition) false none

/-- A transaction at the split tick that awaits an agent across the split (R236): the line is in doubt. A shared line is read all the same, from this
side's answers or from the stack; any other request ends, and what this side's agents still give back is stored. DESIGN CHOICE: a request that
waits for its way behind such a transaction is answered Retry (log entry 72). -/
def State.splitTxn (s : State) (x0 : Txn) : State :=
  match s.txn x0.id with
  | none => s
  | some x =>
    if x.busy ≠ .snp ∨ !x.wait.any (fun a => s.across (a / 6)) then s
    else
      let s1 := s.classify1 x.line
      let dirty := match s1.entry x.line with
        | some e => e.doubt == .dirty
        | none => false
      let rest := x.wait.filter (fun a => !s.across (a / 6))
      let goes := x.kind = .lostHome ∨ (!dirty ∧ (x.kind = .rdShared ∨ x.kind = .plainRead))
      let x1 : Txn := if goes then { x with wait := rest, next := none } else { x with wait := rest, req := none, kind := .plainRead, next := none }
      let s2 := s1.setTxn x1
      let s3 := match x.req with
        | some r => if goes then s2 else s2.splitAnswer r x.idx dirty
        | none => s2
      let s4 := match x.next with
        | some (_, r) => s3.retry r true
        | none => s3
      if rest.isEmpty then (s4.settle x1).afterTxn x1 else s4

/-- The split tick at a home (R235, R236). -/
def State.homeSplit (s : State) : State :=
  let s1 := { s with ha := { s.ha with classify := true, holdFrom := some s.anvil.frameNo, expired := false, healing := false } }
  s1.ha.txns.foldl (fun z x => z.splitTxn x) s1

/-- The classification ends (R235). -/
def State.classifyDone (s : State) : State :=
  if !s.ha.classify then s
  else
    let s1 := s.ha.filter.foldl (fun z e => z.classify1 e.1) s
    ({ s1 with ha := { s1.ha with classify := false } }).log1 0x0A07 [sat16 (s1.doubts .dirty), sat16 (s1.doubts .shared)]

/-- The hold expires (R237). -/
def State.holdExpire (s : State) : State :=
  match s.ha.holdFrom with
  | none => s
  | some f =>
    if s.repair.split.isNone || s.ha.expired || decide (s.frame < f.toNat + 65536 * (s.reg 0x5000 4).toNat) then s
    else
      let ls := (s.ha.filter.filter (fun e => e.2.doubt == .dirty)).map (fun e => e.1)
      let s1 := ls.foldl (fun z l => z.loseLine l) s
      let s2 := { s1 with ha := { s1.ha with expired := true, work := s1.ha.work ++ ls.map (fun l => (l, TxKind.hold)) } }
      (s2.startWork (s2.ha.work.length + 1)).log1 0x0A08 [sat16 ls.length]

/-- In-doubt entries in ascending set order (R238). -/
def State.doubtful (s : State) : List Nat :=
  let ls := s.ha.filter.filter (fun (e : Nat × Entry) => e.2.doubt != Doubt.none)
  (ls.foldl (fun (m : SMap Nat) e => SMap.set m (2 ^ 44 * s.setOf e.1 + e.1) e.1) []).map (fun x => x.2)

/-- A frame's share of the heal's resolution: at most 64 entries (R238). -/
def State.healFrame (s : State) : State :=
  if !s.ha.healing then s
  else
    let ls := (s.doubtful.filter (fun l => !s.ha.work.contains (l, .heal) && !s.lineBusy l)).take 64
    let s1 := ls.foldl (fun z l => match z.entry l with
      | some e =>
        if e.doubt = .shared then z.setEntry l { e with doubt := .none }
        else { z with ha := { z.ha with work := z.ha.work ++ [(l, TxKind.heal)] } }
      | none => z) s
    s1.startWork (s1.ha.work.length + 1)

/-- The heal tick at a home (R238). -/
def State.homeHeal (s : State) : State :=
  let s1 := { s with ha := { s.ha with classify := false, holdFrom := none, healing := true } }
  let s2 := if s.ha.classify then s.ha.filter.foldl (fun z e => z.setEntry e.1 { e.2 with doubt := s.classOf e.2 }) s1 else s1
  s2.healFrame

/-- The last in-doubt entry is resolved (R238). -/
def State.healDone (s : State) : State :=
  if !s.ha.healing || s.ha.filter.any (fun e => e.2.doubt != Doubt.none) || s.ha.txns.any (fun x => x.kind == .heal) then s
  else
    ({ s with ha := { s.ha with healing := false, expired := false, healWb := 0, healLost := 0 } }).log1 0x0A09
      [sat16 s.ha.healWb, sat16 s.ha.healLost]

/-- A lost-line notice reaches the home (R236). -/
def State.lostNotice (s : State) (line req : Nat) : State :=
  let s1 := match s.entry line with
    | some e => if e.kind = OwnKind.none then s else s.setEntry line (e.drop e.owner)
    | none => s
  (s1.loseLine line).log1 0x0A0B ([w16 req] ++ three line)

/-! ### The recall of a lost home -/

/-- The lines of the Seam part that the walk of a lost home has still to meet, in ascending order, with their offsets (R234). -/
def State.lostNext (s : State) (u k : Nat) : List (Nat × Nat) :=
  (((List.range (s.map.seam / 64 - s.ha.lostPos)).map (fun i => s.ha.lostPos + i)).filterMap (fun i =>
    (s.map.package u (s.map.ord + 64 * i)).map (fun a => (i, a)))).take k

/-- A frame's share of the recall of a lost home's lines with n = 2 (R234): REBUILD_LIMIT of them, by SnpDrop to every live agent. -/
def State.recallLost (s : State) : State :=
  match s.ha.lostRecall with
  | none => s
  | some u =>
    let l := s.lostNext u (s.reg 0x4900 3).toNat
    let next := match l.getLast? with
      | some x => x.1 + 1
      | none => s.map.seam / 64
    let s1 := { s with ha := { s.ha with work := s.ha.work ++ (l.filter (fun (x : Nat × Nat) => !s.ha.work.contains (x.2, .lostHome))).map (fun (x : Nat × Nat) => (x.2, TxKind.lostHome)),
                                         lostPos := next } }
    s1.startWork (s1.ha.work.length + 1)

/-- The recall of a lost home's lines has come to its end (R234). -/
def State.lostRecalled (s : State) : Bool :=
  decide (s.map.seam / 64 ≤ s.ha.lostPos) && !s.ha.work.any (fun w => w.2 == .lostHome) && !s.ha.txns.any (fun x => x.kind == .lostHome && x.req.isNone)

/-- What the home noted of its answers, kept for the agents that still hold their lines (R126, R217), for lines of which a stand-in keeps no entry (R234), and
while a line's copies are dropped (R57). -/
def State.pruneGiven (s : State) : State :=
  { s with ha := { s.ha with given := s.ha.given.filter (fun (e : Nat × Nat × Nat) => match s.entry (e.1 / 64) with
    | some x => bit x.present (e.1 % 64)
    | none => (s.lostLine (e.1 / 64)).isSome || s.forgetting (e.1 / 64)) } }

end Sys2Proof.Machine
end

