-- ==== Sys2Proof/Machine/RetireOps.lean ====
section
/-!
DEFINITION. Retirement (R312-R316): what becomes of the queued parts of a unit that leaves service, the rungs 3 to 5, and the Seam lines that a
loss takes with it (R199, R201).
-/
namespace Sys2Proof.Machine
open Sys2Proof

/-- The request and line index a part stands for, and its address as a package address. -/
def State.partAddr (s : State) (p : Part) : Nat :=
  match p.lns with
  | [] => p.req.addr
  | l :: _ => (s.map.package s.t l.addr).getD p.req.addr

/-- The request of a part's lines as it goes on to another tile: with the class and age it has come to and the tags it had (R168). -/
def Part.onward (p : Part) (addr : Nat) (data : List PLine) : HReq :=
  { p.req with addr := addr, lines := p.lns.length, total := if p.req.total = 0 then p.req.lines else p.req.total, data := data, cls := p.calm, age := p.age,
               promoted := p.promoted, first := minOf 0 (p.lns.map (fun l => l.idx)), stamped := if p.internal then none else some (p.k, p.start, p.finish) }

/-- A queued part of a retired unit: Seam lines go to the stand-in, the rest are answered (R312, R314, R315), those of one request among the parts `ps`
that leave together at its first. A Seam write whose parity line goes is acknowledged: its row has lost its protection. -/
def State.retirePart (s : State) (ps : List Part) (p : Part) : State :=
  let a := s.partAddr p
  match p.origin with
  | .req => (match (s.map.home a).parity with
    | some q => s.sendRequest q (p.onward a (p.lns.map (fun l => l.d)))
    | none =>
      let same := ps.filter (fun x => x.origin == .req && sameReq x.req p.req)
      if same.head?.map (fun x => x.seq) = some p.seq then s.linesRetired p.req (same.flatMap (fun x => x.lns.map (fun l => l.idx))) a else s)
  | .homeRead _ => p.lns.foldl (fun z l => match (s.map.home a).parity, s.map.package s.t l.addr with
    | some q, some x => z.sendRequest q (internalReq s.t 28 .read x)
    | _, _ => (z.homeLost l.no).retiredHit a p.req.op) s
  | .seamNew no =>
    let ws := s.seam.writes.filter (fun w => w.no == no && p.lns.any (fun l => l.addr == w.line))
    let s1 := { s with seam := { s.seam with writes := s.seam.writes.filter (fun w => !ws.contains w) } }
    let s2 := ws.foldl (fun z w => match w.kind, w.o with
      | .parity u, _ => z.ring (.seamAck u.home u.line u.no true)
      | .stand, .req => z.lineWritten w.req w.idx 1 true
      | _, _ => z) s1
    match (s.map.home a).parity with
    | some q => if ws.any (fun w => w.kind == .data) then s2.sendRequest q (p.onward a (ws.map (fun w => w.new))) else s2
    | none => s2
  | .standRead no =>
    let xs := s.seam.recons.filter (fun x => x.no == no && p.lns.any (fun l => l.addr == x.line))
    let s1 := { s with seam := { s.seam with recons := s.seam.recons.filter (fun x => !xs.contains x) } }
    xs.foldl (fun z x => match x.o with
      | .homeRead n => z.homeLost n
      | .req => z.answerLine x.req x.idx .poison false 0
      | .homeWrite _ => z | .pickleWalk => z | .pickleFix => z | .pickleBack => z | .seamOld _ => z | .seamNew _ => z | .seamPoison _ => z
      | .standRead _ => z | .rebuild => z | .rebuildW => z | .poison => z | .row => z) s1
  | .homeWrite _ => (match (s.map.home a).parity with
    | some q => s.sendRequest q { internalReq s.t 28 .writePosted a with data := p.lns.map (fun l => l.d) }
    | none => s.retiredHit a p.req.op)
  | .pickleWalk => s | .pickleFix => s | .pickleBack => s | .seamOld _ => s | .seamPoison _ => s | .rebuild => s | .rebuildW => s
  | .poison => s | .row => s

/-- The queued parts that a test names leave their queues and are answered or passed on (R168); clocks, drains and idle timers follow. Work on a row of
the Seam part starts again without them. -/
def State.retireParts (s0 : State) (f : Part → Bool) : State :=
  let s := s0.abortJob
  (s.dropParts f).each (s.sched.parts.filter f) (fun a p => a.retirePart (s.sched.parts.filter f) p)

/-- An open recovery that holds a unit now removed closes (R308). -/
def State.closeFor (s : State) (f : Recov → Bool) : State :=
  match s.repair.recov with
  | some r => if f r then s.closeRecovery .retired else s
  | none => s

/-- The rows of a bank that leaves service leave an open recovery that replaces others with them (R307, R312). -/
def State.dropBankRows (s : State) (c b : Nat) : State :=
  { s with repair := { s.repair with recov := s.repair.recov.map (fun (r : Recov) => if r.u.pc = c then { r with rows := r.rows.filter (fun x => x.1 ≠ b) } else r) } }

/-- A unit of the package has left service: its Seam rows are to be rebuilt (R315). -/
def State.unguarded (s : State) : State := if s.map.seam = 0 then s else { s with seam := { s.seam with unprotected := false } }

/-- Rung 3 (R312): the bank leaves service. -/
def State.retireBank (s : State) (c b : Nat) : State :=
  let q := s.pc c
  if q.retired ∨ q.rbanks.contains b then s
  else
    let s1 := (s.setPc c { q with rbanks := insNat q.rbanks b }).log1 0x0E08 [w16 c, w16 b]
    let s2 := ((s1.addMap 5 c b 0).ring (.retired s.t 0 c b)).unguarded
    (((s2.closeFor (fun r => r.rung == 2 && r.u.pc == c && r.rows.all (fun x => x.1 == b))).dropBankRows c b).retireParts (fun p => p.pc == c && p.bank == b)).countGone s false

/-- A retired pseudo-channel enters self-refresh if its command path answers (R317). -/
def State.srPc (s : State) (c : Nat) : State := if (s.pc c).answers then s.emit (.stack c s.clk.now .srEnter) else s

/-- Rung 4 (R312, R317): the pseudo-channel leaves service. -/
def State.retirePc (s : State) (c : Nat) (f : FClass) : State :=
  let q := s.pc c
  if q.retired then s
  else
    let s1 := ((s.srPc c).setPc c { q with retired := true, train := 3, debts := [], forced := [], refab := false, refpb := 0, recov := false }).log1 0x0E09 [w16 c, Config.causeCode f]
    let s2 := ((s1.addMap 6 c 0 0).ring (.retired s.t 1 c 0)).unguarded
    let s3 := (s2.closeFor (fun r => if r.rung = 1 then r.u.pc / 4 == c / 4 else r.u.pc == c)).retireParts (fun p => p.pc == c)
    let s3 := s3.countGone s false
    if (groupPcs (c / 4)).all (fun x => (s3.pc x).retired) then
      { s3 with pd := { s3.pd with status := setBit s3.pd.status (13 + c / 4) false } }
    else s3

/-- SEAM_LOST gains a stack (R199, R201): event 0x0902, and the lines that no surviving set can produce. With n = 2 the surviving tile begins to recall
the lines homed there (R234). -/
def State.loseStack (s : State) (u : Nat) : State :=
  if bit s.seam.lost u && !s.seam.taking.contains u then s
  else
    let mine := s.n = 2 ∨ s.map.seam = 0
    let ha := if s.n = 2 ∧ u ≠ s.t ∧ s.map.seam ≠ 0 then { s.ha with lostRecall := some u, lostPos := 0 } else s.ha
    let rb := if mine then s.seam.rebuild else insNat s.seam.rebuild u
    let taking := s.seam.taking.filter (fun x => x ≠ u)
    let s1 := { s with ha := ha, seam := { s.seam with lost := setBit s.seam.lost u true, rebuild := rb, taking := taking,
                                                       unprotected := s.seam.unprotected && decide mine } }
    (s1.log1 0x0902 []).countGone s true

/-- Rung 5 (R312): the stack is declared lost. -/
def State.retireStack (s : State) (f : FClass) : State :=
  if s.repair.stackRetired then s
  else
    let s1 := (({ s with repair := { s.repair with stackRetired := true } }).log1 0x0E0A [Config.causeCode f]).selfRefresh
    let s2 := ((s1.addMap 7 0 0 0).ring (.retired s.t 2 0 0)).closeFor (fun _ => true)
    (s2.loseStack s.t).retireParts (fun _ => true)

end Sys2Proof.Machine
end

