-- ==== Sys2Proof/Machine/RepairOps.lean ====
section
/-!
DEFINITION. Recoveries (R307-R311), the arcs of the ring (R325-R327), requests outstanding at a home that is lost or across a split
(R236, R320), fostering (R319, R322) and the actions of the rungs (R308).
-/
namespace Sys2Proof.Machine
open Sys2Proof

/-! ### Recoveries -/

/-- The pseudo-channels a recovery holds (R307). -/
def recovPcs (rung : Nat) (u : RUnit) : List Nat := if rung = 1 then groupPcs (u.pc / 4) else [u.pc]

/-- The other pseudo-channel of a channel (R310: PC44 and PC45 form channel 22). -/
def channelPcs (c : Nat) : List Nat := [c / 2 * 2, c / 2 * 2 + 1]

/-- A lane spared at rung 1 (R310): a repair lane of its channel is used, event 0x0E06, and the repair map says so. -/
def State.spareLane (s : State) (c lane : Nat) : State :=
  let left := (s.pc c).spLeft
  if left = 0 then s
  else
    let s1 := (channelPcs c).foldl (fun z x => z.setPc x { z.pc x with spUsed := (z.pc x).spUsed + 1, spLeft := (z.pc x).spLeft - 1 }) s
    let s2 := { s1 with repair := { s1.repair with
      map := s1.repair.map.filter (fun e => !(e.kind == 2 && e.tile == s1.t && e.pc == c && e.bankLane == lane)),
      recov := s1.repair.recov.map (fun (r : Recov) => { r with spared := r.spared ++ [(c, lane)] }) } }
    (s2.addMap 1 c lane 0).log1 0x0E06 [w16 c, w16 lane, w16 (left - 1)]

/-- The lanes that rung 1 repairs: those of its faults and the group's marked ones (R306, R310). -/
def State.lanesToSpare (s : State) (w : FaultW) : List (Nat × Nat) :=
  (w.lanes ++ (groupPcs (w.u.pc / 4)).flatMap (fun c => (markedLanes ((s.pc c).marksDue.getD (s.pc c).marks)).map (fun l => (c, l)))).eraseDups.filter
    (fun x => !(s.pc x.1).retired)

/-- Four columns of a row under repair to be read, or those of them that are held to be written (R311): an access of the recovery, which passes no queue. The
accesses are Pickle's port's (DESIGN CHOICE, log entry 72: the spec names no port for them). -/
def State.rowJoin (s : State) (c : Nat) (x : Nat × Nat) (write : Bool) (g : Nat) : State :=
  let held := match s.repair.recov with
    | some r => r.held
    | none => []
  let at_ := fun (i : Nat) => s.map.unplace ⟨c, x.1, x.2, 4 * g + i⟩
  let lns := ((List.range 4).filter (fun i => !write || (SMap.look held (at_ i)).isSome)).map (fun i =>
    ({ col := 4 * g + i, addr := at_ i, idx := i, d := (SMap.look held (at_ i)).getD ⟨0, false⟩ } : PLn))
  let p : Part := { seq := s.sched.seq + 1, origin := .row, req := internalReq s.t 29 (if write then .writePosted else .read) (at_ 0), queue := 1024, pc := c,
                    bank := x.1, row := x.2, lns := lns, write := write, cls := .bh, calm := .bh, promoted := none, age := 0, k := 2, start := s.sched.vB,
                    finish := s.sched.vB, joined := s.clk.now, rel := some (s.sched.seq + 1), pSince := none }
  if lns.isEmpty then s else ({ s with sched := { s.sched with seq := s.sched.seq + 1, parts := s.sched.parts ++ [p] } }).wakePc c

/-- The lines of the rows under repair read into the repair buffer, written to the replacement rows, or read back (R311). -/
def State.rowsJoin (s : State) (r : Recov) (write : Bool) : State :=
  r.rows.foldl (fun z x => (List.range 4).foldl (fun y g => y.rowJoin r.u.pc x write g) z) s

/-- The frames of a rung 2 recovery at the tick (R311): in frame 4 the lines held are written, poison included, in frame 5 they are read back. -/
def State.rowTick (s : State) : State :=
  match s.repair.recov with
  | some r => if r.rung = 2 ∧ s.frame = r.opened.toNat + 4 then s.rowsJoin r true
    else if r.rung = 2 ∧ s.frame = r.opened.toNat + 5 then s.rowsJoin r false
    else s
  | none => s

/-- The rows of a fault for which a repair row is left in their bank group, in the order of detection (R305). -/
def State.fitRows (s : State) (w : FaultW) : List (Nat × Nat) :=
  let live := w.rows.filter (fun x => !(s.pc w.u.pc).rbanks.contains x.1)
  (live.zipIdx.filter (fun e => decide ((live.take e.2).countP (fun y => y.1 / 4 == e.1.1 / 4) < s.rowSpares w.u.pc e.1.1))).map (fun e => e.1)

/-- The rows of a waiting fault whose bank group has no repair row left any more: each goes to rung 3, event 0x0E01 (R305). -/
def State.spentRows (s : State) (w : FaultW) : State :=
  (w.rows.filter (fun x => !(s.pc w.u.pc).rbanks.contains x.1 && !(s.fitRows w).contains x)).foldl
    (fun z x => let u : RUnit := ⟨w.u.pc, x.1, x.2, 0⟩
                (z.rungUp u 2 3).bankFault u) s

/-- A recovery opens on the first of the waiting faults whose unit is in service and, at rung 2, has a repair row left (R305, R307); the lanes of a lane fault are
steered (R310), the lines of its rows read (R311). What waits on waits behind it (R309). -/
def State.openOn (s : State) : List FaultW → State
  | [] => { s with repair := { s.repair with waiting := [] } }
  | w :: rest =>
    if s.repair.stackRetired || (recovPcs w.rung w.u).all (fun c => (s.pc c).retired) then s.openOn rest
    else if w.rung = 2 ∧ s.fitRows w = [] then (s.spentRows w).openOn rest
    else
      let rows := if w.rung = 2 then s.fitRows w else []
      let u : RUnit := if w.rung = 2 then ⟨w.u.pc, (nth rows 0 (0, 0)).1, (nth rows 0 (0, 0)).2, 0⟩ else w.u
      let r : Recov := { rung := w.rung, u := u, cls := w.cls, found := w.found, opened := s.anvil.frameNo, behind := w.behind, lanes := w.lanes, rows := rows }
      let s0 := if w.rung = 2 then s.spentRows w else s
      let s1 := { s0 with repair := { s0.repair with recov := some r, waiting := rest.map (fun (x : FaultW) => { x with behind := true }) } }
      let s2 := (recovPcs w.rung u).foldl (fun z c => if (z.pc c).retired then z else z.setPc c { z.pc c with recov := true }) s1
      let s3 := s2.log1 0x0E03 [w16 w.rung, Config.unitCode u]
      if w.rung = 1 then (s.lanesToSpare w).foldl (fun z x => z.spareLane x.1 x.2) s3 else s3.rowsJoin r false

/-- A recovery opens at a tick at which none is open (R307). -/
def State.openRecovery (s : State) : State :=
  if s.repair.recov.isSome || s.repair.fenced.isSome || s.quench.on then s else s.openOn s.repair.waiting

/-- A lane's mark cleared (R310). -/
def clearMark (w : Word) (lane : Nat) : Word :=
  match (markedLanes w).filter (fun l => l ≠ lane) with
  | [] => 0
  | [a] => w16 (0x4000 + a)
  | a :: b :: _ => w16 (0xC000 + 64 * b + a)

/-- The units of a recovery return to the slot words with their idle timers anew (R167), the spared lanes' marks are cleared, and event 0x0E04 is logged (R307, R310). -/
def State.endRecovery (s : State) (r : Recov) (res : RecResult) : State :=
  let s1 := ({ s with repair := { s.repair with recov := none } }).dropRowParts
  let s2 := (recovPcs r.rung r.u).foldl (fun z c => z.setPc c { z.pc c with recov := false, idleFrom := max (z.pc c).idleFrom z.clk.now }) s1
  let s3 := r.spared.foldl (fun z x => z.setPc x.1 { z.pc x.1 with marks := clearMark (z.pc x.1).marks x.2 }) s2
  ((s3.count 0x7821 1).measureBound r).log1 0x0E04 [w16 r.rung, Config.unitCode r.u, sat16 (s.frame - r.opened.toNat), Config.resultCode res]

/-! ### Arcs of the ring -/

/-- Broken links (R324). -/
def State.brokenLinks (s : State) : List Nat := (List.range s.n).filter (fun k => bit s.repair.links k)

/-- Tiles reached upwards from a tile. -/
def State.walkUp (s : State) : Nat → Nat → List Nat
  | 0, _ => []
  | fuel + 1, u => if bit s.repair.links u then [] else (u + 1) % s.n :: s.walkUp fuel ((u + 1) % s.n)

/-- Tiles reached downwards from a tile. -/
def State.walkDown (s : State) : Nat → Nat → List Nat
  | 0, _ => []
  | fuel + 1, u =>
    let d := (u + s.n - 1) % s.n
    if bit s.repair.links d then [] else d :: s.walkDown fuel d

/-- The arc of a tile as its links show it (R325). -/
def State.arcOf (s : State) (u : Nat) : BitVec 8 := maskOf (u :: (s.walkUp (s.n - 1) u ++ s.walkDown (s.n - 1) u))

/-- A tile is cut off alone without the anchor duties (R325). -/
def State.lone (s : State) (u : Nat) : Bool := decide (1 < s.n) && s.arcOf u == maskOf [u] && u != s.repair.anchor

/-- A tile's last heartbeat (R83, R393), this tile's own while it is in service. -/
def State.lastHb (s : State) (u : Nat) : Option TileSt :=
  if u = s.t then (if s.boot.st = 2 then some s.tileSt else none)
  else (match SMap.look s.anvil.hb u with | some h => if h.got then some h.st else none | none => none)

/-- A tile reports that it serves: a recovery in progress keeps it from no step (R83, R322). -/
def State.servingTile (s : State) (u : Nat) : Bool := s.lastHb u == some .serving || s.lastHb u == some .recovering

/-- The leader of this tile's arc (R326): the anchor, or the first serving tile of the arc in the succession. -/
def State.arcLeader (s : State) : Option Nat :=
  let arc := s.arcOf s.t
  if bit arc s.repair.anchor then some s.repair.anchor else s.succession.find? (fun u => bit arc u && s.servingTile u)

/-- What this tile does once its notices show two breaks (R325, R326): a lone tile fences itself at the next tick; a split is declared at
the next tick for the tick two later. -/
def State.linksKnown (s : State) : State :=
  if s.brokenLinks.length < 2 ∨ s.repair.split.isSome ∨ s.repair.splitAt.isSome then s
  else if s.lone s.t then s.tileFault .lone
  else if (List.range s.n).any (fun u => s.lone u) && s.brokenLinks.length == 2 then s
  else
    let d := BitVec.ofNat 64 (s.frame + 3)
    let s1 := { s with repair := { s.repair with splitAt := some d } }
    if s.arcLeader = some s.t then s1.dueAct (.split d) else s1

/-- The links between this tile and another show a break on each arc (R326). -/
def State.cutFrom (s : State) (u : Nat) : Bool := !bit (s.arcOf s.t) u

/-! ### Requests outstanding at a home -/

/-- The outcome of a request whose home is lost or across a split (R236, R320). -/
inductive Lost | gone | across
  deriving DecidableEq, Repr

/-- The address of a line of an onward request. -/
def Onward.lineAddr (o : Onward) (k : Nat) : Nat := o.addr + 64 * k

/-- A read of the Seam part is sent again to its stand-in, keeping its class and age (R320). -/
def State.resend (s : State) (p : Port) (o : Onward) : State :=
  let home := s.serves o.addr o.lines
  let s1 := s.setOnward p { o with home := home }
  let s2 := if o.share then (s1.addShare o.home (-1)).addShare home 1 else s1
  s2.sendRequest home (o.toHome s.t p [])

/-- The tile that fosters u: the next one after it in ring order that is serving and can be reached (R83, R322, R326). -/
def State.fosterer (s : State) (u : Nat) : Option Nat :=
  (s.after u).find? (fun w => bit s.repair.view w && s.servingTile w && !s.across w)

/-- A Seam line with a write outstanding at a lost home is reported to the tile that fosters it, which has it written as poison (R320; log entry 70). -/
def State.reportWrite (s : State) (u line : Nat) : State :=
  match s.fosterer u with
  | some w => if w = s.t then s.poisonReport line else s.sendRequest w { internalReq s.t 28 .writePosted line with data := [⟨0, true⟩] }
  | none => s

/-- One onward request ended, or sent again (R202, R236, R320): a read's missing lines, a status, a coherence answer, or the record of a
posted write (R109), detected at this tile. A read of which no beat was delivered fails as a whole (R92). A line of the Seam part with a write outstanding at a lost home is reported to the fostering tile. -/
def State.endAt (s : State) (p : Port) (o : Onward) (l : Lost) : State :=
  let st : Status := if l = .gone then .poison else .partition
  let seam := s.map.inSeam o.addr
  if !o.sent ∧ o.pieces.isEmpty then s
  else
    let ks := if o.pieces.isEmpty then List.range o.lines else o.pieces.flatMap (fun x => (List.range x.2.2).map (fun k => x.2.1 + k))
    let s1 := if l = .gone ∧ seam ∧ isWrite o.op then ks.foldl (fun a k => a.reportWrite o.home (o.lineAddr k)) s else s
    if o.op = .read ∨ (l = .gone ∧ seam ∧ isRead o.op) then
      (if o.lines ≤ o.beats.length then s1
       else if l = .gone ∧ seam then s1.resend p o
       else if l = .across ∧ o.reserved = o.lines ∧ !o.dropped then
         (match o.cent with
          | some k => s1.endCipherRead p o k .partition
          | none => if o.beats.isEmpty then s1.failOnward p o .partition .none 0
            else s1.response { port := p, txid := o.txid, cresp := .none, lines := (List.range o.lines).map (fun k => noData k st) })
       else s1.response { port := p, txid := o.txid, cresp := .none, lines := (List.range o.lines).map (fun k => noData k st) })
    else if o.op = .writePosted then
      (ks.foldl (fun a k => a.postedFail p o k (if l = .gone then 3 else 7) s.t) s1).pieceEnd p { o with pieces := [] }
    else if !o.pieces.isEmpty then s1.pieceEnd p { o with pieces := [], st := if o.st = .ok then st else o.st }
    else
      let c : Cresp := if !isCoherent o.op then .none else if l = .across then .partition else if o.op = .wrBack then .ack else .poison
      s1.response { port := p, txid := o.txid, cresp := c, lines := [noData 0 (if o.op = .wrBack ∧ l = .gone then .ok else st)] }

/-- Every onward request to homes that a test names. -/
def State.endOutstanding (s : State) (f : Nat → Bool) (l : Lost) : State :=
  (List.finRange 32).foldl (fun z (p : Port) => ((s.port p).onward.filter (fun o => f o.home)).foldl (fun y o => y.endAt p o l) z) s

/-! ### Fostering -/

/-- The anchor duties lie with tile u (R24): this tile's ticks, where it takes them, become the reference from which TICK_OFFSET is measured (R77). -/
def State.setAnchor (s : State) (u : Nat) : State :=
  { s with repair := { s.repair with anchor := u },
           anvil := if u = s.t then { s.anvil with tickOff := 0, offBad := false } else s.anvil }

/-- The anchor duties pass to the next healthy tile of the succession (R24, R319). -/
def State.passAnchor (s : State) : State :=
  match s.succession.find? (fun u => !s.across u && (if u = s.t then s.tileSt != .fenced
      else (match SMap.look s.anvil.hb u with | some h => h.st != .fenced | none => false))) with
  | some u => s.setAnchor u
  | none => s

/-- A Seam write whose update was sent to a lost tile and never acknowledged poisons its line, with cause 2 (R320); one whose update has not been sent is
written alone, like those that come later (R199). -/
def State.dropUpdates (s : State) (u : Nat) : State :=
  (s.seam.writes.filter (fun w => !w.acked && s.parityTile w.line == u)).foldl (fun z w =>
    if w.old.isSome then (z.setSeam { w with acked := true, failed := true }).endSeam { w with acked := true, failed := true } 2
    else z.setSeam { w with acked := true }) s

/-- The fostering tick F of tile u (R319-R322): u leaves the package view, its stack is declared lost and requests outstanding at it
end; its stand-ins serve and rebuild from tick F + 1. The fostering tile also sends the notices and logs event 0x0E0C. -/
def State.foster (s : State) (u : Nat) : State :=
  if !bit s.repair.view u ∨ u = s.t then s
  else
    let mine := s.fosterer u = some s.t
    let s0 := if mine then s.fault .tile ⟨u, 0, 0, 0⟩ else s
    let s1 := { s0 with repair := { s0.repair with view := setBit s0.repair.view u false, fostered := setBit s0.repair.fostered u true,
                                                   others := s0.repair.others ++ [(u, 2, 0, 0)] },
                        seam := { s0.seam with standFrom := s0.anvil.frameNo + 1 },
                        anvil := { s0.anvil with hb := SMap.del s0.anvil.hb u } }
    let s2 := if s1.repair.anchor = u then s1.passAnchor else s1
    let s3 := if mine then
        let a := { s2 with repair := { s2.repair with fosters := setBit s2.repair.fosters u true } }
        let b := ((a.ring (.fence u)).log1 0x0E0C [w16 u, w16 a.t, w16 a.repair.anchor]).ring (.retired u 2 0 0)
        (List.range 6).foldl (fun z k => z.ring (.deadAgent (6 * u + k) .fenced)) b
      else s2
    ((s3.loseStack u).dropUpdates u).endOutstanding (fun h => h == u) .gone

/-! ### The rungs' actions -/

/-- One action that was due at the tick (R308, R312, R318, R319, R326); the tile's own restart follows the tick (R334). -/
def State.runAct (s : State) (a : RungAct) : State :=
  match a with
  | .bank c b => s.retireBank c b
  | .pc c f => s.retirePc c f
  | .stack f => s.retireStack f
  | .fence c => s.fenceTile c
  | .foster u => s.foster u
  | .restart u => if u = s.t then s else s.ring (.restart u)
  | .split d => s.ring (.split d)

/-- The fences due at a tick at which Anvil's outputs are suppressed (R82, R308, R318). -/
def State.fenceDue (s : State) : State :=
  s.repair.due.foldl (fun z a => match a with
    | .fence c => z.fenceTile c
    | .bank _ _ | .pc _ _ | .stack _ | .foster _ | .restart _ | .split _ => z) s

/-- Every action due at the tick, in order of detection (R308). -/
def State.runDue (s : State) : State :=
  s.repair.due.foldl (fun z a => z.runAct a) { s with repair := { s.repair with due := [] } }

/-- Lanes marked at the tick (R185, R306): event 0x0E05 and an entry of the repair map for each. -/
def State.markLanes (s : State) : State :=
  let one := fun (z : State) (c : Nat) =>
    match (z.pc c).marksDue with
    | none => z
    | some w =>
      let new := (markedLanes w).filter (fun l => !(markedLanes (z.pc c).marks).contains l)
      new.foldl (fun y l => (y.log1 0x0E05 [w16 c, w16 l]).addMap 2 c l 0) (z.setPc c { z.pc c with marks := w, marksDue := none })
  (s.pcs.map (fun x => x.1)).foldl one s

end Sys2Proof.Machine
end

