-- ==== Sys2Proof/Machine/ApplyOps.lean ====
section
/-!
DEFINITION. What the writable objects hold and what a value does when it is taken: reserved bits (R375), ranges and the events of values
refused (R102, R103, R111, R134, R137, R143, R148, R149, R176, R205, R207, R239, R265, R299, R301, R302, R333, R362, R389), PORT_CTRL
(R95, R103-R106, R112), PD_ENABLE (R29-R31), and what else follows a new value.
-/
namespace Sys2Proof.Machine
open Sys2Proof

/-! ### Reserved bits -/

/-- The bits of a writable word that are not reserved (R375); staged words of the access group and the frame table keep theirs, which their
commit checks (R68, R124). -/
def keptBits (i x : Nat) : Word :=
  if i = 0x1201 ∧ x = 2 then 0x3FFF
  else if i = 0x1401 then (if x = 3 then 0xFFFE else 0xC000)
  else if i = 0x2005 then (if x = 3 then 0x0FFF else if x = 4 then 0 else 0xFFFF)
  else if 0x3000 ≤ i ∧ i ≤ 0x301F ∧ x = 1 then 0xE0F0
  else if 0x3600 ≤ i ∧ i ≤ 0x39FF ∧ 0x40 ≤ x ∧ x ≤ 0x43 then 0xC3FF
  else if 0x3600 ≤ i ∧ i ≤ 0x361F ∧ x = 0x50 then 0x03FF
  else if i = 0x4800 ∧ x = 2 then 0x8000
  else if i = 0x7801 ∧ x = 2 then 0x0FFF
  else 0xFFFF

/-! ### Ranges -/

/-- A word lies in a range. -/
def within (v : Word) (lo hi : Nat) : Bool := decide (lo ≤ v.toNat) && decide (v.toNat ≤ hi)

/-- The size of a port's watched FIFO (R87, R102): the write buffer of ports 0 to 3, else the response FIFO. -/
def fifoSize (p : Nat) : Nat := if p < 4 then 32 else 64

/-- The event of a value outside its object's range, none where the object takes it. 1 stands for a value ignored without an event, as are writes to the
control words of P28 and P29 (R87). -/
def State.badValue (s : State) (i x v : Nat) : Option Nat :=
  let w := w16 v
  let no := fun (ok : Bool) (code : Nat) => if ok then none else some code
  if i = 0x1100 ∧ x = 4 then no (within w 1 7) 0x010C
  else if i = 0x1100 ∧ x = 7 then no (within w 1 2) 0x010C
  else if i = 0x1110 ∧ x = 1 then no (within w 1 3) 0x010C
  else if i = 0x1110 ∧ x = 3 then no (decide (v ≤ 1048320)) 0x010C
  else if i = 0x1500 then (if x = 2 then no (within w 6 1024) 0x0F06 else none)
  else if i = 0x2100 ∧ x = 7 then no (within w 2 8) 1
  else if 0x3000 ≤ i ∧ i ≤ 0x301F then
    (if i = 0x301C ∨ i = 0x301D then some 1
     else if x = 3 then no (decide (1 ≤ fld w 15 8) && decide (fld w 15 8 ≤ 64) && decide (1 ≤ fld w 7 0) && decide (fld w 7 0 ≤ 32)) 0x0405
     else if x = 4 then no (decide (fld w 15 8 ≤ fifoSize (i - 0x3000)) && decide (fld w 7 0 < fld w 15 8)) 0x0405
     else none)
  else if i = 0x3412 ∨ i = 0x3413 then no (within w 1 64) 0x0603
  else if i = 0x3414 ∨ i = 0x3415 then no (within w 1 1024) 0x0603
  else if 0x3600 ≤ i ∧ i ≤ 0x39FF then
    (if x = 2 then no (within w 4 4095) 0x0602
     else if x = 3 then no (within w 1 255) 0x0602
     else if x = 4 then no (within w 0 1) 0x0602
     else if 0x40 ≤ x ∧ x ≤ 0x43 then no (!(bit w 14 && decide (1020 < fld w 9 0))) 0x0602
     else if x = 0x70 then no (v != 0) 0x0602
     else none)
  else if i = 0x4000 then
    (if x = 1 then no (within w 0 1) 0x0706
     else if x ≤ 4 then no (within w 1 255) 0x0706
     else if x = 5 then no (decide (2 ≤ fld w 15 8) && decide (fld w 15 8 ≤ 56) && decide (fld w 7 0 < fld w 15 8)) 0x0706
     else no (decide (v ≤ 1024)) 0x0706)
  else if i = 0x4011 ∧ x = 10 then some 1
  else if i = 0x4800 then (if x = 1 then no (within w 1 720) 0x0807 else if x = 5 then no (v != 0) 0x0807 else none)
  else if i = 0x4900 then no (within w 16 1024) 0x0908
  else if i = 0x5000 then
    (if x = 1 then no (w &&& 0x3FFF == 0) 0x0A0C
     else if x = 2 then no (within w 2 255) 0x0A0C
     else if x = 3 then no (within w 1 255) 0x0A0C
     else no (v != 0) 0x0A0C)
  else if i = 0x6400 then (if x = 2 then no (within w 1 255) 0x0B0A else no (decide (64 ≤ v)) 0x0B0A)
  else if i = 0x7000 then
    (if x = 1 then no (within w 0 4) 0x0C0B
     else if x = 4 then no (within w 100 60000) 0x0C0B
     else if x = 5 then no (within w 16 320) 0x0C0B
     else if x = 6 then no (within w 1 64) 0x0C0B
     else if x = 7 then no (within w 10 10000) 0x0C0B
     else no (within w 4 64) 0x0C0B)
  else if 0x7100 ≤ i ∧ i ≤ 0x7142 then
    let r := kindRange (if i < 0x7140 then (i - 0x7100) / 16 else 4 + (i - 0x7140))
    no (decide (r.1 ≤ i16 w) && decide (i16 w ≤ r.2)) 0x0C0B
  else if i = 0x7200 then no (within w 5 200) 0x0D0A
  else if i = 0x7800 then (if x = 7 then no (within w 1 32) 0x0E17 else no (within w 1 16) 0x0E17)
  else if i = 0x9000 ∧ x = 7 then no (decide (v < s.log.entries.length)) 0x0F06
  else none

/-- The event of a refused value, with the object and the value (log entry 11); a port's carries its port first (R407). -/
def State.refuseValue (s : State) (code i x v : Nat) : State :=
  if code = 1 then s
  else if code = 0x0405 then s.log1 code [w16 (i - 0x3000), w16 i, w16 x, w16 v]
  else s.log1 code ([w16 i, w16 x] ++ four v)

/-! ### Ports -/

/-- The port's enable takes effect (R95, R105, R106): its initialisation word is sent while the tile is in service and aligned; during a
flush that has not come to its end the word at that end is no longer withheld. -/
def State.enablePort (s : State) (p : Port) : State :=
  let q := s.port p
  let s1 := if q.flush.isSome then s.setPort p { q with flushOff := false } else s
  if q.flush.isSome && q.live then s1
  else if s1.portsUp && s1.boot.st == 2 && s1.anvil.aligned then s1.initPort p
  else s1

/-- Every enabled port sends its initialisation word (R95, R339 step 11, R323 step 3). -/
def State.initPorts (s : State) : State :=
  (List.finRange 32).foldl (fun (z : State) (p : Port) => if z.enabled p && !internalPort p then z.enablePort p else z) s

/-- A PORT_CTRL write (R103-R106, R112): XOFF_PIN keeps its value where 8 to 14 is written, with event 0x0405; FLUSH is not kept. DESIGN CHOICE: 0 written to an
ENABLE that reads 0 is no disable: it flushes nothing and logs no event (log entry 72). -/
def State.portCtrl (s : State) (p : Port) (v : Word) : State :=
  let i := 0x3000 + p.val
  let old := s.reg i 1
  let badPin := decide (8 ≤ fld v 7 4) && decide (fld v 7 4 ≤ 14)
  let pin := if badPin then old &&& 0x00F0 else v &&& 0x00F0
  let s1 := if badPin then s.log1 0x0405 [w16 p, w16 i, 1, v] else s
  let s2 := s1.setReg i 1 ((v &&& 0xA000) ||| pin)
  let s3 := if bit v 14 then s2.flushPort p 1 else s2
  if bit old 15 && !bit v 15 then s3.flushPort p 4
  else if !bit old 15 && bit v 15 then s3.enablePort p
  else s3

/-! ### Power domains -/

/-- The domains a domain depends on (R29). -/
def pdDeps (k : Nat) : List Nat :=
  if k = 0 then [] else if k = 1 then [0] else if k = 2 then [1] else if k = 3 then [2] else if k = 4 then [3]
  else if k = 5 then [4] else if k = 6 ∨ k = 7 then [4, 12] else if k = 8 ∨ k = 9 then [3] else if k = 10 then [4]
  else if k = 11 then [10, 29] else if k = 12 then [2] else if k < 29 then [12] else [2]

/-- An applied access-table entry, valid and with a flag. -/
def State.entryWith (s : State) (flag : Nat) : Bool :=
  s.dict.applied.any (fun e => decide (wkey 0x3200 0 ≤ e.1) && decide (e.1 < wkey 0x3400 0) && e.1 % 256 == 7 && bit e.2 15 && bit e.2 flag)

/-- The condition under which a domain may be off, with PD_ENABLE at `v` (R29); a fenced tile requires PD0 and PD1 alone (R318). -/
def State.mayOff (s : State) (v : BitVec 32) (k : Nat) : Bool :=
  if k < 2 then false
  else if s.repair.fenced.isSome then true
  else if k = 2 ∨ k = 3 then s.boot.st == 4
  else if k = 4 then !bit v 3
  else if k = 5 then !(s.entryWith 13) && !(bit (s.reg 0x3402 1) 15 && bit (s.reg 0x3402 1) 13)
  else if k = 6 then (List.range 32).all (fun c => (s.pc c).retired)
  else if k = 7 then (List.range 32).all (fun c => (s.pc (32 + c)).retired)
  else if k = 8 then bit v 9 || !(s.entryWith 14)
  else if k = 9 then bit v 8 || !(s.entryWith 14)
  else if k = 10 then !bit v 6 && !bit v 7
  else if k = 11 then s.map.units == 0
  else if k = 12 then (List.range 16).all (fun g => !bit v (13 + g))
  else if k < 29 then (groupPcs (k - 13)).all (fun c => (s.pc c).retired)
  else s.n == 1

/-- PD_ENABLE as it stands: the write that awaits the tick, else the applied value (R31). -/
def State.pdWant (s : State) : BitVec 32 := s.pd.due.getD (BitVec.ofNat 32 (s.regs 0x1201 1 2))

/-- A PD_ENABLE value would break R31. -/
def State.pdBad (s : State) (v : BitVec 32) : Bool :=
  (List.range 30).any (fun k => (bit v k && (pdDeps k).any (fun d => !bit v d)) || (!bit v k && bit s.pdWant k && !s.mayOff v k))

/-- A PD_ENABLE write (R30, R31): bits 0 and 1 read 1; the write awaits the tick as a whole, or is ignored with event 0x0201. -/
def State.pdWrite (s : State) (v : BitVec 32) : State :=
  let w := (v &&& 0x3FFFFFFF) ||| 3
  if s.pdBad w then s.log1 0x0201 [] else { s with pd := { s.pd with due := some w } }

/-- Key slots empty where both cipher halves are off (R260). -/
def State.slotsByPower (s : State) : State := if !s.dom 8 && !s.dom 9 then s.emptySlots else s

/-- The PD_ENABLE write of the frame takes effect at the tick (R31): a domain switched on is usable once DOMAIN_POWERED says so. PHY
groups stay off while the tile is quenched (R32). -/
def State.pdApply (s : State) : State :=
  match s.pd.due with
  | none => s
  | some v =>
    let want : BitVec 30 := v.setWidth 30
    let off : BitVec 30 := ~~~ want
    let s1 := (s.setReg 0x1201 1 (wordAt v.toNat 0)).setReg 0x1201 2 (wordAt v.toNat 1)
    let on := want &&& ~~~ s.pd.status &&& (if s.quench.on then ~~~ (BitVec.ofNat 30 (0xFFFF * 2 ^ 13)) else ~~~ (0 : BitVec 30))
    ({ s1 with pd := { status := s.pd.status &&& ~~~ off, due := none, rising := (s.pd.rising ||| on) &&& ~~~ off } }).slotsByPower

/-! ### Snapshot of a path's latch -/

/-- The path whose PATH_CTRL word is written loses its latch (R378). -/
def State.dropLatch (s : State) (x : Nat) : State :=
  if x = 1 then { s with win := { s.win with latch := none } } else if x = 2 then { s with bus := { s.bus with latch := none } } else s

/-! ### What a new value does -/

/-- The master of a budget word. -/
def masterOf (i base x : Nat) : Nat := (i - base) * 128 + (x - 1)

/-- What follows an applied value (R78, R102, R134, R137, R143, R165, R171, R190, R378). -/
def State.took (s : State) (i x : Nat) : State :=
  if i = 0x1401 then s.dropLatch x
  else if h : 0x3000 ≤ i ∧ i ≤ 0x301F ∧ x = 4 then s.watch ⟨i - 0x3000, by omega⟩
  else if i = 0x3412 ∨ i = 0x3413 then { s with budget := { s.budget with rewind := insNat s.budget.rewind (masterOf i 0x3412 x) } }
  else if 0x3600 ≤ i ∧ i ≤ 0x39FF ∧ x ≤ 3 then s.setQ (i - 0x3600) { s.q (i - 0x3600) with due := true }
  else if 0x3600 ≤ i ∧ i ≤ 0x39FF ∧ 0x40 ≤ x ∧ x ≤ 0x43 then
    { s with log := { s.log with seen := SMap.del s.log.seen (limKey 0x0601 (4 * (i - 0x3600) + (x - 0x40))) } }
  else if i = 0x4000 ∧ x = 5 then allPcs.foldl (fun z c => z.drainCheck c) s
  else if i = 0x7000 ∧ x = 1 then { s with boot := { s.boot with gradeSel := s.reg 0x7000 1 } }
  else if i = 0x4011 then { s with phy := { s.phy with ovrDue := insNat s.phy.ovrDue x } }
  else if i = 0x4800 ∧ x = 1 then { s with seam := { s.seam with intervalDue := true } }
  else if i = 0x4800 ∧ x = 2 then 
    (if bit (s.reg 0x4800 2) 15 then s
     else ({ s with pcs := s.pcs.mapVals (fun _ q => { q with pkDebt := 0 }) }).dropParts (fun p => p.origin == Origin.pickleWalk))
  else s

/-- A value taken for an object of k words (R376, R383), then what follows. -/
def State.takeValue (s : State) (i x k v : Nat) : State :=
  ((List.range k).foldl (fun z j => (z.dropStaged i (x + j)).setReg i (x + j) (wordAt v j)) s).took i x

end Sys2Proof.Machine
end

