-- ==== Sys2Proof/Machine/CommitOps.lean ====
section
/-!
DEFINITION. The commit strobe (R78-R81): arming, the checks of the object groups (R27, R56, R68, R124), the digest and the vote, and the
application with what it brings about (R57, R70, R126, R138, R171).
-/
namespace Sys2Proof.Machine
open Sys2Proof

/-! ### Checks of the groups -/

/-- The nibbles of a succession list (R26, R28): up to its first 0xF, or eight. -/
def sucList (v : Nat) : List Nat := ((List.range 8).map (fun k => v / 16 ^ k % 16)).takeWhile (fun x => x ≠ 15)

/-- The first nibble of a list that fails, with its reason (R27): 1 no tile of the package, 2 a tile named twice. -/
def sucBad (n : Nat) : List Nat → List Nat → Nat → Option (Nat × Nat)
  | _, [], _ => none
  | seen, x :: r, k => if n ≤ x then some (1, k) else if seen.contains x then some (2, k) else sucBad n (x :: seen) r (k + 1)

/-- The SUCCESSION check (R27): reason and nibble position; an empty list is reason 3 at 0xFFFF. -/
def sucFail (n v : Nat) : Option (Nat × Nat) := if (sucList v).isEmpty then some (3, 0xFFFF) else sucBad n [] (sucList v) 0

/-- A group has a staged word. -/
def State.hasStaged (s : State) (f : Nat → Nat → Bool) : Bool := s.dict.staged.any (fun e => f (e.1 / 256) (e.1 % 256))

/-- The objects of each group (R27, R56, R68, R124). -/
def isSucc (i _x : Nat) : Bool := i == 0x1003
/-- See `isSucc`. -/
def isMap (i _x : Nat) : Bool := i == 0x2000

/-- The entries and words of the access group that differ from their defaults, applied or staged, in ascending order. -/
def State.aclKeys (s : State) : List Nat :=
  let l := (s.dict.staged.map (fun e => e.1) ++ s.dict.applied.map (fun e => e.1)).filter (fun k => isAclKey (k / 256) (k % 256))
  l.foldl insNat []

/-- The first failing object of the access group (R124): index, subindex and its staged value. -/
def State.aclFail (s : State) : Option (Nat × Nat × List Word) :=
  let one := fun (k : Nat) =>
    let i := k / 256
    let x := k % 256
    let r := fun y => s.stagedReg i y
    if i < 0x3400 then
      (if bit (r 7) 15 ∧ s.stagedRegs i 3 2 < s.stagedRegs i 1 2 then some (i, 1, [r 1, r 2])
       else if fld (r 7) 9 0 ≠ 0 ∨ (bit (r 7) 15 ∧ bit (r 7) 14 ∧ bit (r 7) 13) then some (i, 7, [r 7])
       else if fld (r 8) 15 12 ≠ 0 then some (i, 8, [r 8])
       else none)
    else if i = 0x3402 then (if fld (r x) 12 0 ≠ 0 then some (i, x, [r x]) else none)
    else if fld (r x) 12 4 ≠ 0 then some (i, x, [r x])
    else none
  s.aclKeys.findSome? one

/-- The checks of every staged group that the commit would apply (R80): which passed, with the event of each refusal. Those of the map and of the frame table need
the figures of a stack. -/
def State.runChecks (s : State) (pkg : Bool) (stack : Bool := true) : State × Groups :=
  let a := if pkg ∧ s.hasStaged isSucc then
      (match sucFail s.n (s.stagedRegs 0x1003 1 2) with
       | some (r, k) => (s.log1 0x0F21 (two (s.stagedRegs 0x1003 1 2) ++ [w16 r, w16 k]), false)
       | none => (s, true)) else (s, true)
  let b := if pkg ∧ stack ∧ a.1.hasStaged isMap then
      (match a.1.mapFail with
       | some (i, x, v) => (a.1.log1 0x0F22 [w16 i, w16 x, v], false)
       | none => (a.1, true)) else (a.1, true)
  let c := if pkg ∧ b.1.hasStaged isAclKey then
      (match b.1.aclFail with
       | some (i, x, v) => (b.1.log1 0x0F23 ([w16 i, w16 x] ++ v), false)
       | none => (b.1, true)) else (b.1, true)
  let d := if stack ∧ c.1.hasStaged isFrameGroup then
      (match c.1.tableFail (c.1.table true) with
       | some (code, args) => (c.1.log1 code args, false)
       | none => (c.1, true)) else (c.1, true)
  (d.1, { succ := a.2, map := b.2, acl := c.2, frame := d.2 })

/-- The number of groups refused. -/
def Groups.count (g : Groups) : Nat := b2n (!g.succ) + b2n (!g.map) + b2n (!g.acl) + b2n (!g.frame)

/-- A staged word is applied by a commit: its group passed, and a tile commit leaves the package-wide objects staged (R79, R80). -/
def Groups.takes (g : Groups) (pkg : Bool) (i x : Nat) : Bool :=
  (pkg || !isPkgWide i x) && (!isSucc i x || g.succ) && (!isMap i x || g.map) && (!isAclKey i x || g.acl) && (!isFrameGroup i x || g.frame)

/-! ### Digest -/

/-- The package-wide words that differ from their defaults, staged where a staged value is held (R80). -/
def State.pkgWords (s : State) (staged : Bool) : List (Nat × Word) :=
  let app := s.dict.applied.filter (fun e => isPkgWide (e.1 / 256) (e.1 % 256))
  if staged then
    (s.dict.staged.filter (fun e => isPkgWide (e.1 / 256) (e.1 % 256))).foldl
      (fun m e => SMap.put (wordDefault s.ident.n (e.1 / 256) (e.1 % 256)) m e.1 e.2) app
  else app

/-- ACL_DIGEST [3403:09-0A] (R123). -/
def State.aclDigest (s : State) : Nat :=
  let entries := (List.range 512).flatMap (fun e => (List.range 8).flatMap (fun k => wordBytes (s.reg (0x3200 + e) (k + 1))))
  let masters := (List.range 256).flatMap (fun m => wordBytes (s.masterWord (BitVec.ofNat 8 m)))
  (crc32c (entries ++ masters ++ wordBytes (s.reg 0x3402 1))).toNat

/-- The digest of the package-wide objects (R80, R329; log entry 8), with the ACL_DIGEST of the tile's own replica (R125). -/
def State.digest (s : State) (staged : Bool) : BitVec 32 :=
  Config.stageDigest (s.pkgWords staged ++ (two s.aclDigest).zipIdx.map (fun e => (wkey 0x3403 (9 + e.2), e.1)))

/-! ### Arming -/

/-- A commit armed (R78, R80): refused with result 3 and event 0x0311 for one of three reasons; a package commit sends PREPARE.
DESIGN CHOICE: a tile that is prepared for a package commit may arm a tile commit, since R80 refuses only at an armed one (log entry 72). -/
def State.arm (s : State) (kind : Nat) : State :=
  let at_ := s.regs 0x1500 3 4
  let f := if at_ = 0 then s.frame + (s.reg 0x1500 2).toNat else at_
  let why := if f < s.frame + 6 then 1 else if s.frame + 2 ^ 20 < f then 2 else if s.commit.armed ≠ 0 then 3 else 0
  if why ≠ 0 then
    ({ s with commit := { s.commit with result := 3 } }).log1 0x0311 ([w16 kind, w16 why] ++ two f)
  else
    let F := BitVec.ofNat 64 f
    let s1 := { s with commit := { s.commit with armed := kind, f := F, decided := false } }
    if kind = 2 then
      { s1 with commit := { s1.commit with votes := [] } }.ring (.prepare F (s.anvil.gen + 1) (s.digest true))
    else s1

/-- PREPARE (R80 step 3): the staged set freezes, its groups are checked, and the vote goes to the anchor with this tile's digest. -/
def State.prepare (s : State) (f : BitVec 64) (gen dig : BitVec 32) : State :=
  if s.commit.prepared then s
  else
    let c := s.runChecks true
    let s1 := c.1
    let mine := s1.digest true
    let s2 := { s1 with commit := { s1.commit with
      prepared := true, pf := f, gen := gen, digest := dig, go := none, groups := c.2, refused := c.2.count, anchor := s1.repair.anchor,
      decided := false, votes := if s1.isAnchor then SMap.set s1.commit.votes s1.t mine else s1.commit.votes } }
    if s2.isAnchor then s2 else s2.ring (.vote s2.t mine)

/-- The commit ends without applying (R80, R81): event 0x0310, the staged set stays. -/
def State.abortCommit (s : State) (missing differing : BitVec 8) : State :=
  let F := s.commit.pf.toNat
  ({ s with commit := { s.commit with armed := if s.commit.armed = 2 then 0 else s.commit.armed, prepared := false, go := none, result := 2,
                                      holdSince := none, decided := true } }).log1 0x0310
    (two F ++ [missing.setWidth 16, differing.setWidth 16])

/-- The anchor decides at tick F − 2 (R80 step 4): GO if every tile of the view has voted with its digest, else ABORT. -/
def State.decideCommit (s : State) : State :=
  let c := s.commit
  if !c.prepared || c.armed != 2 || c.decided || !s.isAnchor || decide (s.frame + 2 < c.pf.toNat) then s
  else
    let missing := maskOf (s.viewTiles.filter (fun u => (SMap.look c.votes u).isNone))
    let differ := maskOf (s.viewTiles.filter (fun u => match SMap.look c.votes u with | some d => d != c.digest | none => false))
    if missing = 0 ∧ differ = 0 then
      ({ s with commit := { c with decided := true, go := some s.anvil.frameNo } }).ring (.go c.pf)
    else (s.ring (.abort missing differ)).abortCommit missing differ

/-! ### PLAN and ASSAY at the tick -/

/-- A PLAN or ASSAY word in slot 0 decides whether its step runs and stops its group for the frame (R62); the idle timers of a group whose step has ended
start anew (R167). -/
def State.planDecide (s : State) : State :=
  let w := s.anvil.slotWord
  let g := groupOf w s.anvil.roundNo.toNat
  let run := !s.quench.on && s.repair.fenced.isNone &&
    (match maintOf w with
     | .plan => s.planDue g
     | .assay => s.assayDue g
     | .none => false | .refpb => false | .refab => false | .pickle => false | .seam => false | .pdchk => false | .spare => false)
  let s1 := { s with anvil := { s.anvil with stopped := none },
                     pcs := s.pcs.mapVals (fun _ q => { q with stopped := false, idleFrom := if q.stopped then max q.idleFrom s.clk.now else q.idleFrom }) }
  if run then
    let s2 := (groupPcs g).foldl (fun z c => if (z.pc c).retired then z else z.setPc c { z.pc c with stopped := true }) s1
    { s2 with anvil := { s2.anvil with stopped := some (g, maintOf w == .plan) } }
  else s1

/-! ### Application -/

/-- Overrides that await the commit, one after another (R171). -/
def State.takeOverrides (s : State) : State :=
  let one := fun (z : State) (x : Nat) =>
    let v := z.reg 0x4011 x
    let ovr := SMap.put 0 z.phy.ovr x v
    let low := v ≠ 0 ∧ v.toNat < z.declared x
    if low ∨ ((z.table false).check4 (z.timWith ovr)).isSome then
      (z.setReg 0x4011 x (z.phy.ovr.getD x 0)).log1 0x0704 [w16 x, v]
    else { z with phy := { z.phy with ovr := ovr } }
  let s1 := s.phy.ovrDue.foldl one s
  { s1 with phy := { s1.phy with ovrDue := [] } }

/-- The refresh capacity and need of the applied table; check 8 (R68, R69). -/
def State.check8 (s : State) : State :=
  if s.refreshCap < s.refreshNow then s.log1 0x0304 [sat16 s.refreshCap, sat16 s.refreshNow] else s

/-- A newly applied frame table starts at descriptor 0 with ROUND_NO 0 (R70); the frame that its tick opens runs under it. -/
def State.startTable (s : State) : State :=
  let s1 := { s with anvil := { s.anvil with descr := 0, roundNo := 0, slotWord := if s.anvil.slot = 0 then s.reg 0x2200 1 else s.anvil.slotWord } }
  let s2 := if s1.anvil.slot = 0 ∧ s1.cyc = 0 then s1.planDecide else s1
  s2.check8

/-- The applied valid entries, in ascending order. -/
def State.validEntries (s : State) : List Nat :=
  (s.dict.applied.filter (fun e => decide (wkey 0x3200 0 ≤ e.1) && decide (e.1 < wkey 0x3400 0) && e.1 % 256 == 7 && bit e.2 15)).map
    (fun e => e.1 / 256 - 0x3200)

/-- The tenants that entries name, and one that none does. -/
def State.tenantsNamed (s : State) (es : List Nat) : List (BitVec 12) := es.map (fun e => (s.reg (0x3200 + e) 8).setWidth 12)

/-- A tenant that no list names. -/
def freshTenant (l : List (BitVec 12)) : BitVec 12 :=
  BitVec.ofNat 12 (((List.range 4096).find? (fun k => !l.contains (BitVec.ofNat 12 k))).getD 0)

/-- A master lost COH_OK (R126). -/
def State.cohMasterLost (old new : State) (m : Nat) : Bool :=
  bit (old.masterWord (BitVec.ofNat 8 m)) 13 && !bit (new.masterWord (BitVec.ofNat 8 m)) 13

/-- A cached line was granted to a master that has lost COH_OK, and its agent still holds it (R126). -/
def State.masterLine (s : State) (f : Nat → Bool) (line : Nat) : Bool :=
  match s.entry line with
  | some e => (agentsOf e.present).any (fun a => match SMap.look s.ha.given (givenKey a line) with
    | some g => f g.1
    | none => false)
  | none => false

/-- Cached lines recalled after a commit changed the access group (R126): those for which some tenant lost coherence, and those of a master that lost
COH_OK. -/
def State.recallAfter (new old : State) : State :=
  let eo := old.validEntries
  let en := new.validEntries
  let named := old.tenantsNamed eo ++ new.tenantsNamed en
  let tenants := (freshTenant named :: named).eraseDups
  let lost := fun (line : Nat) => tenants.any (fun t => old.cohFor eo (line / 4096) t && !new.cohFor en (line / 4096) t)
  new.recallLines ((new.ha.filter.map (fun e => e.1)).filter (fun l => new.masterLine (old.cohMasterLost new) l || lost l))

/-- A map change or the image's commit initialises the store (R57). -/
def State.initStore (s : State) : State :=
  let s1 := s.forgetCopies.zeroStore
  { s1 with store := { s1.store with initing := true } }

/-- Tiles that rejoin the view at a package commit in which they vote (R323, R393): this tile if it waits to, which is prepared for it, and at the anchor those
whose vote it has; elsewhere those whose heartbeats arrive. From then on they take their Seam lines back, of which the stand-ins recall every copy (log entry 71);
a stack retired under rung 5 stays lost. -/
def State.rejoinView (s : State) (votes : SMap (BitVec 32)) : State :=
  let back := (List.range s.n).filter (fun u => !bit s.repair.view u &&
    (if u = s.t then s.repair.rejoin
     else (match SMap.look s.anvil.hb u with | some h => h.got && h.st != .fenced | none => false) && (!s.isAnchor || (SMap.look votes u).isSome)))
  let stood := back.filter (fun u => u != s.t && s.map.seam != 0 && bit s.seam.lost u && !bit s.repair.dropped u)
  let s1 := { s with repair := { s.repair with view := s.repair.view ||| maskOf back, fostered := s.repair.fostered &&& ~~~ (maskOf back),
                                               rejoin := s.repair.rejoin && !(back.contains s.t),
                                               others := s.repair.others.filter (fun e => !(e.2.1 == 2 && back.contains e.1 && !bit s.repair.dropped e.1)) } }
  if stood.isEmpty then s1
  else
    let s2 := { s1 with seam := { s1.seam with resyncing := true, taking := stood.foldl insNat s1.seam.taking } }
    s2.recallLines ((s2.ha.filter.map (fun e => e.1)).filter (fun l => stood.contains (s2.map.home l).tile))

/-- The object groups that passed are applied and CONFIG_GEN rises (R80 step 6). -/
def State.applyStaged (s : State) (pkg : Bool) (g : Groups) : State :=
  let mapNew := pkg && g.map && s.mapChanges
  let ks := s.dict.staged.filter (fun e => g.takes pkg (e.1 / 256) (e.1 % 256))
  let frameNew := ks.any (fun e => isFrameGroup (e.1 / 256) (e.1 % 256))
  let aclNew := ks.any (fun e => isAclKey (e.1 / 256) (e.1 % 256))
  let worst := s.pWorst
  let s1 := ks.foldl (fun z e => z.takeValue (e.1 / 256) (e.1 % 256) 1 e.2.toNat) s
  let s2 := { s1 with anvil := { s1.anvil with gen := s1.anvil.gen + 1 } }
  let s3 := if pkg then s2.rejoinView s2.commit.votes else s2
  let s4 := { s3 with budget := { s3.budget with share := 8192 / max (s3.viewTiles.length) 1 } }
  let s5 := if frameNew then s4.startTable else s4
  let s6 := (s5.takeOverrides).checkPWorst worst
  let s7 := if mapNew then s6.initStore else if aclNew then s6.recallAfter s else s6
  if s.repair.rejoin && !s7.repair.rejoin then s7.initPorts else s7

/-- The applied commit's records (R78, R406). -/
def State.commitDone (s : State) (f : BitVec 64) (refused : Nat) (late : Bool) : State :=
  let s1 := { s with commit := { s.commit with result := if late then 4 else 1, refused := refused } }
  if late then s1.log1 0x0312 (two f.toNat ++ two s1.frame)
  else s1.log1 0x0313 (two s1.anvil.gen.toNat ++ two f.toNat ++ [w16 refused])

/-- A prepared package commit that has its GO is applied (R80, R81): at tick F, or at the tick after a GO that came later. -/
def State.applyPackage (s : State) : State :=
  let c := s.commit
  let s1 := { s with commit := { c with prepared := false, armed := if c.armed = 2 then 0 else c.armed, go := none, holdSince := none } }
  (s1.applyStaged true c.groups).commitDone c.pf c.refused (decide (c.pf.toNat < s.frame))

/-- An armed tile commit is applied at its tick (R79, R80). -/
def State.applyTile (s : State) : State :=
  let c := s.commit
  let k := ({ s with commit := { c with armed := 0 } }).runChecks false
  (k.1.applyStaged false k.2).commitDone c.f k.2.count false

/-- What the tick brings to a commit (R81): a prepared tile without GO at tick F holds its requests, unless the anchor was lost. -/
def State.commitTick (s : State) : State :=
  let c := s.commit
  if !c.prepared || c.go.isSome || decide (s.frame < c.pf.toNat) then s
  else if c.anchor ≠ s.repair.anchor then s.abortCommit 0 0
  else if c.holdSince.isNone then { s with commit := { c with holdSince := some s.anvil.frameNo } }
  else s

end Sys2Proof.Machine
end

