-- ==== Sys2Proof/Machine/ParityOps.lean ====
section
/-!
DEFINITION. Parity of the writable words (R386, R387) and of the access table's replica (R127): what a failing word brings about, and the
background sweep.
-/
namespace Sys2Proof.Machine
open Sys2Proof

/-- Writable classes: their words carry parity (R386). -/
def Acc.writable : Acc → Bool
  | .rw => true | .guarded => true | .staged => true
  | .ro => false | .wo => false

/-- Every row of the dictionary. -/
def regRows : List RegRow := regRows1 ++ regRows2 ++ regRows3 ++ regRows4 ++ regRows5

/-- The words of a row whose keys lie below that of [i:x]. -/
def RegRow.below (r : RegRow) (i x : Nat) : Nat :=
  let full := min i (r.i1 + 1) - r.i0
  let part := if r.i0 ≤ i ∧ i ≤ r.i1 then min (x - r.s0) (r.s1 + 1 - r.s0) else 0
  full * (r.s1 + 1 - r.s0) + part

/-- A row whose words carry parity (R386), as applied words or as staged ones: those that act at once hold no staged value (R383). -/
def RegRow.parity (r : RegRow) (staged : Bool) : Bool := r.acc.writable && !(staged && actsAtOnce r.i0 r.s0)

/-- The place of a word among all the applied, or all the staged, in ascending index and subindex order (R386). -/
def wordRank (staged : Bool) (i x : Nat) : Nat := (regRows.filter (fun r => r.parity staged)).foldl (fun a r => a + r.below i x) 0

/-- The number of writable words. -/
def writableWords : Nat := wordRank false 0x10000 0

/-- PARITY_WORDS (R386): applied and staged words of one sweep (log entry 27). -/
def parityWords : Nat := writableWords + wordRank true 0x10000 0

/-- The next serving tile in ring order whose CONFIG_GEN equals this tile's (R127, R387). -/
def State.copySource (s : State) : Option Nat :=
  (s.after s.t).find? (fun u => bit s.repair.view u && s.servingTile u && !s.across u &&
    (match SMap.look s.anvil.hb u with | some h => h.gen == s.anvil.gen.setWidth 16 | none => false))

/-- The outcomes of R387. -/
inductive ParityEnd | replica | dropped | restored | copied | defaulted | fenced
  deriving DecidableEq, Repr

/-- The number of an outcome that `Config.parityOutcome` is applied to (log entry 9). -/
def ParityEnd.no : ParityEnd → Nat
  | .replica => 0 | .dropped => 1 | .restored => 2 | .copied => 3 | .defaulted => 4 | .fenced => 5

/-- The outcome of a word that fails parity (R127, R387). -/
def State.parityEnd (s : State) (i x : Nat) (staged : Bool) : ParityEnd :=
  if staged then .dropped
  else if isAclKey i x then (if s.copySource.isSome then .replica else .fenced)
  else if SMap.look s.dict.staged (wkey i x) = some (s.reg i x) ∧ !s.dict.badStaged.contains (wkey i x) then .restored
  else if isPkgWide i x then (if s.copySource.isSome then .copied else .fenced)
  else .defaulted

/-- A word fails parity (R386, R387): counted, recorded and logged, with its outcome. -/
def State.parityFail (s : State) (i x : Nat) (staged : Bool) : State :=
  let k := wkey i x
  let o := s.parityEnd i x staged
  let v := if staged then s.stagedReg i x else s.reg i x
  let d := s.dict
  let d1 := { d with parityStatus := d.parityStatus ||| 1, parityFaults := satAdd16 d.parityFaults 1, parityLast := i * 256 + x, sweepBad := true,
                     badApplied := if staged then d.badApplied else d.badApplied.filter (fun y => y ≠ k),
                     badStaged := if staged then d.badStaged.filter (fun y => y ≠ k) else d.badStaged }
  let s1 := ({ s with dict := d1 }).log1 0x0F10 [w16 i, w16 x, v, Config.parityOutcome o.no]
  let wait := fun (z : State) => { z with dict := { z.dict with restoring := insNat z.dict.restoring k } }
  match o with
  | .dropped => s1.dropStaged i x
  | .restored => { s1 with dict := { s1.dict with parityDue := s1.dict.parityDue ++ [(k, (SMap.look s1.dict.staged k).getD v)] } }
  | .defaulted => { s1 with dict := { s1.dict with parityDue := s1.dict.parityDue ++ [(k, wordDefault s1.ident.n i x)] } }
  | .replica => (wait s1).log1 0x0506 [w16 i, w16 x]
  | .copied => wait s1
  | .fenced =>
    if isAclKey i x then ((wait s1).log1 0x0506 [w16 i, w16 x]).tileFault .replica else s1.tileFault .config

/-- A word restored or defaulted (R387), with what follows a new value of its object: PD_ENABLE takes effect as a whole at this tick (R31), PORT_CTRL
by its own rules (R112). -/
def State.restoreWord (s : State) (i x : Nat) (v : Word) : State :=
  if i = 0x1201 then
    let w := if x = 1 then v.toNat + 65536 * (wordAt s.pdWant.toNat 1).toNat else (wordAt s.pdWant.toNat 0).toNat + 65536 * v.toNat
    { s.setReg i x v with pd := { s.pd with due := some (BitVec.ofNat 32 w) } }
  else if h : 0x3000 ≤ i ∧ i ≤ 0x301F ∧ x = 1 then s.portCtrl ⟨i - 0x3000, by omega⟩ v
  else (s.setReg i x v).took i x

/-- Words restored or defaulted at the tick (R387). -/
def State.parityTick (s : State) : State :=
  s.dict.parityDue.foldl (fun z e => z.restoreWord (e.1 / 256) (e.1 % 256) e.2) { s with dict := { s.dict with parityDue := [] } }

/-- The sweep of a frame (R386): the next 64 words, applied ones before staged ones. A complete sweep without a failure clears PARITY_STATUS
bit 0 (R387). -/
def State.paritySweep (s : State) : State :=
  let lo := s.dict.sweepAt
  let hit := fun (staged : Bool) (k : Nat) =>
    let r := (if staged then writableWords else 0) + wordRank staged (k / 256) (k % 256)
    decide (lo ≤ r) && decide (r < lo + 64)
  let found := fun (staged : Bool) (l : List Nat) => (l.filter (hit staged)).foldl insNat []
  let s1 := (found false s.dict.badApplied).foldl (fun z k => z.parityFail (k / 256) (k % 256) false) s
  let s2 := (found true s.dict.badStaged).foldl (fun z k => z.parityFail (k / 256) (k % 256) true) s1
  if lo + 64 < parityWords then { s2 with dict := { s2.dict with sweepAt := lo + 64 } }
  else
    { s2 with dict := { s2.dict with sweepAt := 0, sweepBad := false,
                                     parityStatus := if s2.dict.sweepBad then s2.dict.parityStatus else s2.dict.parityStatus &&& 0xFFFE } }

end Sys2Proof.Machine
end

