-- ==== Sys2Proof/Machine/SeamCmd.lean ====
section
/-!
DEFINITION. The commands of Pickle and Seam (R189, R190, R194-R204) that are no register writes.
-/
namespace Sys2Proof.Machine
open Sys2Proof

/-- PICKLE_INTERVAL for the values in force (R190). -/
def State.pickleInterval (s : State) : Nat :=
  let lines := s.phy.cap / 4096
  if lines = 0 then 0
  else (s.reg 0x4800 1).toNat * 3600 * 4 * 36000000000 / (lines * 1024 * cycleTime s.phy.grade)

/-- PICKLE_DEBT_STEP (R190): a pseudo-channel takes the next step of its debt once it has come; it counts nothing while the walk of the
pass is done or the walk is disabled. The next group of the walk then waits for its read (R152). -/
def execPickleDebtStep (pc : Pc) (s : State) : Host.Outcome State Fault Refusal :=
  .next (
    let q := s.pc pc
    if s.seam.interval = 0 ∨ (s.frame - s.seam.stepBase.toNat) / s.seam.interval ≤ q.pkStep then s
    else
      let held := q.pkDone || q.retired || !s.seam.passOn || !bit (s.reg 0x4800 2) 15
      (s.setPc pc { q with pkStep := q.pkStep + 1, pkDebt := if held then 0 else min (q.pkDebt + 1) 255 }).walkFeed pc)

/-- Pseudo-channels that take part in a pass (R189). -/
def State.walking (s : State) : List Nat := allPcs.filter (fun c => !(s.pc c).retired)

/-- PICKLE_PASS_END (R189, R193): the last pseudo-channel in service has finished its walk. -/
def execPicklePassEnd (s : State) : Host.Outcome State Fault Refusal :=
  .next (
    if !s.dom 10 || !s.seam.passOn || !s.walking.all (fun c => (s.pc c).pkDone) then s
    else
      let n := sat32 (s.seam.passCount + 1)
      ({ s with seam := { s.seam with passOn := false, passCount := n },
                pcs := s.pcs.mapVals (fun _ q => { q with laneCnt := [], rowBad := [] }) }).log1 0x0805 (two n))

/-- SEAM_UPDATE (R195 steps 4 and 5, R196, R197): the parity tile takes the update of one line from the tile `home`, and with n = 2 the mirror tile its
copy; `whole` is the new line, sent where Δ is unknown. -/
def execSeamUpdate (home : TileNo) (u : SeamUpd) (whole : Option Line) (s : State) : Host.Outcome State Fault Refusal :=
  .next (s.takeUpdate { u with home := home, whole := whole })

/-- SEAM_ACK (R195 step 6) of the write with a number; number 0 stands for a line that the resynchronisation copied, or whose parity was
computed anew as its home took it back (R204, R323). -/
def execSeamAck (r : SeamRef) (ok : Bool) (s : State) : Host.Outcome State Fault Refusal :=
  .next (match s.seamBy r.no r.line with
    | some w =>
      let w1 := { w with acked := true, failed := w.failed || !ok }
      (s.setSeam w1).endSeam w1 2
    | none => if r.no = 0 ∧ s.seam.job.any (fun j => j.resync) then s.jobLine r.line else s)

/-- SEAM_RECONSTRUCT_DONE (R197-R200): the members of a line's row have come. -/
def execSeamReconstructDone (line : Nat) (members : List Member) (parity : Member) (s : State) : Host.Outcome State Fault Refusal :=
  .next ((s.reconstruct line members parity).seamPump (s.map.place line).pc)

/-! ### Rows at work -/

/-- A rebuild of this package's Seam rows is under way (R200, R315): a stack is lost, or a unit retired, and REBUILD_DONE has not
come since. -/
def State.rebuilding (s : State) : Bool :=
  !s.seam.unprotected && (!s.seam.rebuild.isEmpty || (s.map.seam != 0 && decide (2 < s.n) &&
    (s.repair.others.any (fun e => e.2.1 != 2) || s.pcs.any (fun e => e.2.retired || !e.2.rbanks.isEmpty))))

/-- The row that is being rebuilt is read once its lines are recalled and nothing else is under way on them (R200, R234). -/
def State.rebuildFeed (s : State) : State :=
  match s.seam.job with
  | none => s
  | some j =>
    let row := s.rowAddr j.row
    let on := fun (l : Nat) => decide (row ≤ l) && decide (l < row + 4096)
    let here := fun (line : Nat) => s.rebuildingLine line
    if j.resync || j.fed || !s.engineUp || s.ha.work.any (fun w => here w.1) || s.ha.txns.any (fun x => here x.line) ||
        s.seam.writes.any (fun w => on w.line) || s.seam.recons.any (fun x => on x.line) ||
        s.sched.parts.any (fun p => p.lns.any (fun l => on l.addr)) || s.sched.flight.any (fun f => on f.ln.addr) then s
    else s.feedJob j

/-- The next row that this tile rebuilds, in ascending order, from the tick at which the stand-ins serve (R200, R312, R321): its lines are recalled first (R234). -/
def State.rebuildStep (s : State) : State :=
  if s.seam.job.isSome || !s.engineUp || !s.rebuilding || decide (s.anvil.frameNo < s.seam.standFrom) || (if s.seam.taking.contains s.t then List.range s.rows else s.awaited).any (fun j => s.ownRow j) then s
  else match (List.range s.rows).find? (fun j => s.standsFor j) with
    | none => s
    | some j =>
      let m := s.rowLeft j
      let ls := ((List.range 64).filter (fun k => m.testBit k)).filterMap (fun k =>
        let l := s.rowAddr j + 64 * k
        match s.lostMember l with
        | some u => s.map.package u l
        | none => none)
      let who := ((List.range s.n).map (fun u => (u, s.rowMask j (fun l => m.testBit (s.lineBit l) && s.lostMember l == some u)))).filter (fun e => e.2 != 0)
      let s1 := { s with seam := { s.seam with job := some ⟨j, false, false, m, 0, who⟩ },
                         ha := { s.ha with work := s.ha.work ++ ls.map (fun l => (l, TxKind.lostHome)) } }
      (s1.startWork (s1.ha.work.length + 1)).rebuildFeed

/-- REBUILD_ROW_SWITCH (R200): every line of tile u in the row at work is written; the row switches for u, whose lines in it are single accesses here
from now on, and what waited for them goes on. The next row is taken up once every tile's lines in this one are done. -/
def execRebuildRowSwitch (row : Nat) (u : TileNo) (s : State) : Host.Outcome State Fault Refusal :=
  .next (match s.seam.job with
    | none => s
    | some j =>
      let mine := s.rowMask row (fun l => s.jobFor j l == some u.val && j.todo.testBit (s.lineBit l))
      if j.resync ∨ j.row ≠ row ∨ !j.fed ∨ mine = 0 ∨ j.done &&& mine ≠ mine then s
      else
        let left := j.todo - mine
        let s1 := { s with seam := { s.seam with switched := s.seam.switched ++ [(row, u.val, mine)],
                                                 job := if left = 0 then none else some { j with todo := left } } }
        ((s1.releaseUpdates).releaseHeld).rebuildStep)

/-- REBUILD_DONE (R200): every row has switched; SEAM_STATE reads 3, event 0x0903. -/
def execRebuildDone (s : State) : Host.Outcome State Fault Refusal :=
  .next (
    if !s.rebuilding || (s.seam.job.any (fun j => !j.resync)) || (List.range s.rows).any (fun j => s.standsFor j) then s
    else ({ s with seam := { s.seam with unprotected := true, rebuild := [] } }).log1 0x0903 [])

/-- Every row is resynchronised and taken back (R204, R323): the stacks of tiles that rejoined count as lost no longer. -/
def State.stacksBack (s : State) : State :=
  let lost := s.seam.lost &&& ~~~ (maskOf s.seam.taking)
  let others := s.repair.others.any (fun e => e.2.1 != 2) || s.pcs.any (fun e => e.2.retired || !e.2.rbanks.isEmpty)
  { s with seam := { s.seam with resync := [], resyncAll := false, resyncing := false, listed := [], listedAll := false, rowsDone := [], lost := lost,
                                 rebuild := s.seam.rebuild.filter (fun u => !s.seam.taking.contains u), taking := [], backRows := [],
                                 unprotected := s.seam.unprotected && (lost != 0 || others) } }

/-- RESYNC_DONE (R204, R323): `rows` are done at other tiles, as they report; once none is left to do SEAM_STATE returns and event 0x0906 is logged. -/
def execResyncDone (rows : List Nat) (s : State) : Host.Outcome State Fault Refusal :=
  .next (
    if !s.seam.resyncing then s
    else
      let s1 := rows.foldl (fun z j => if z.ownRow j then z else (z.rowReady j).rowBack j) s
      if !s1.awaited.isEmpty || (!s1.seam.taking.isEmpty && (List.range s1.rows).any (fun j => !s1.seam.backRows.contains j)) then s1
      else (s1.stacksBack).log1 0x0906 [])

/-- The keys of the requests at hand at this home. -/
def State.liveKeys (s : State) : List Nat :=
  s.sched.parts.map (fun p => reqKey p.req) ++ s.sched.flight.map (fun f => reqKey f.req) ++ s.seam.writes.map (fun w => reqKey w.req) ++
    s.seam.recons.map (fun x => reqKey x.req) ++ s.ha.plain.map (fun x => reqKey x.2) ++ s.ha.plainWait.map (fun x => reqKey x.2) ++
    s.ha.held.map reqKey ++ s.ha.txns.filterMap (fun x => x.req.map reqKey) ++ s.ha.txns.filterMap (fun x => x.next.map (fun y => reqKey y.2))

/-- The home's and the Seam engine's work of a tick: REBUILD_LIMIT counts anew, the recall of a lost home and the rows at work go on (R200, R204, R234);
tags of requests that are done are forgotten. -/
def State.seamTick (s : State) : State :=
  let keys := s.liveKeys
  let s1 := { s with seam := { s.seam with wrote := 0 }, sched := { s.sched with tags := s.sched.tags.filter (fun e => keys.contains e.1) } }
  (((((s1.pruneGiven).recallLost).releaseHeld).resyncStep).rebuildFeed).rebuildStep

end Sys2Proof.Machine
end

