-- ==== Sys2Proof/Machine/FrameOps.lean ====
section
/-!
DEFINITION. What the frame tick and the slot start do (R58-R77, R83): the descriptor, the shapers, ages and fall-back, the Pickle walk, heartbeats,
and the refreshes of the guard and of the slot words.
-/
namespace Sys2Proof.Machine
open Sys2Proof

/-! ### The tick -/

/-- FRAME_NO, the descriptor and ROUND_NO at a tick (R59, R67). -/
def State.advance (s : State) : State :=
  let a := s.anvil
  let wrap := decide ((s.reg 0x2100 1).toNat ≤ a.descr + 1)
  let d := if wrap then 0 else a.descr + 1
  { s with anvil := { a with frameNo := a.frameNo + 1, slot := 0, descr := d, roundNo := if wrap then a.roundNo + 1 else a.roundNo,
                             slotWord := s.reg (0x2200 + d) 1 } }

/-- A queue at the tick (R140, R141, R143): pending values, the clamp to the new bounds, then the refill. -/
def State.shapeQ (s : State) (k : Nat) (q : QSt) : QSt :=
  let i := 0x3600 + k
  let q1 := if q.due then { q with rate := s.reg i 1, burst := s.reg i 2, weight := s.reg i 3, due := false } else q
  let b : Int := 16 * (q1.burst.toNat : Int)
  let lvl := if q1.rate = 0xFFFF then b else min (clampI (-b) b q1.level + (q1.rate.toNat : Int)) b
  { q1 with level := lvl }

/-- Every queue refilled (R141). -/
def State.refill (s : State) : State := { s with queues := s.queues.mapVals s.shapeQ }

/-- Queues whose latency words stand or change: those kept in the state, with parts, or with a LAT_MODE word (R147). -/
def State.latQueues (s : State) : List Nat :=
  let kept : List Nat := s.queues.map (fun x => x.1)
  let busy : List Nat := (s.sched.parts.map (fun p => p.queue)).filter (fun q => decide (q < 1024))
  let modes : List Nat := (s.dict.applied.filter (fun e =>
    decide (0x3600 ≤ e.1 / 256) && decide (e.1 / 256 < 0x3A00) && e.1 % 256 == 4)).map (fun e => e.1 / 256 - 0x3600)
  (kept ++ busy ++ modes).eraseDups

/-- LAT_MODE and SAMPLE_PERIOD as they apply at the tick: words whose mode or period changed restart from the current values (R147). DESIGN CHOICE: a new period
restarts the words of the queues that sample, LAT_MODE 0, alone (log entry 72). -/
def State.latTick (s : State) : State :=
  let period := s.reg 0x3600 0x70
  let new := period != s.sched.samplePeriod
  let one := fun (z : State) (q : Nat) =>
    let st := z.q q
    let m := z.reg (0x3600 + q) 4
    if m ≠ st.latMode ∨ (new ∧ m = 0) then
      z.setQ q { st with latMode := m, latDepth := z.depth q, latDelay := min (z.headDelay q / 16) 0xFFFF }
    else z
  let s1 := s.latQueues.foldl one s
  { s1 with sched := { s1.sched with samplePeriod := period } }

/-- Ages at the tick (R153): every unissued request, but for those their bucket holds. -/
def State.ageTick (s : State) : State :=
  let parts := s.sched.parts.map (fun (p : Part) => if p.rel.isNone && !s.bucketOk p then p else { p with age := older p.age })
  ({ s with sched := { s.sched with parts := parts } }).mapReqs HReq.older (fun (o : Onward) => { o with age := older o.age }) (fun w => !s.seamHeld w)

/-- Masters whose WINDOW was written begin a new window at the tick (R134). -/
def State.rewindTick (s : State) : State :=
  let b := s.budget
  { s with budget := { b with used := b.used.filter (fun e => !b.rewind.contains e.1), overMap := b.overMap.filter (fun m => !b.rewind.contains m),
                              rewind := [] } }

/-- Coefficient values that were due come into force (R278). -/
def State.coeffTick (s : State) : State :=
  { s with hk := { s.hk with force := s.hk.forceDue.foldl (fun m e => SMap.set m e.1 e.2) s.hk.force, forceDue := [] } }

/-- The cause bits of R166 as they stand on a pseudo-channel; a tile's own lost stack has it serve no reconstruction. -/
def State.causeOf (s : State) (c : Nat) : Nat :=
  let q := s.pc c
  bitsWord [!(markedLanes q.marks).isEmpty, !q.rbanks.isEmpty, q.recov, !s.seam.unprotected && s.seam.rebuild.any (fun u => u != s.t)]

/-- A pseudo-channel enters or leaves the fall-back path at the tick (R165, R166, R168). -/
def State.fallTick (s : State) (c : Nat) (cause : Nat) : State :=
  let q := s.pc c
  if q.retired then s
  else
    let fall := if cause ≠ 0 then 2 else if s.reg 0x4000 1 = 1 then 1 else 0
    let turn := (q.fall = 0) ≠ (fall = 0)
    let s1 := (s.setPc c { q with fall := fall, cause := cause, drain := q.drain && !decide turn }).drainCheck c
    if q.fall = 0 ∧ fall ≠ 0 ∨ fall = 2 ∧ cause ≠ q.cause then s1.log1 0x0701 [w16 c, w16 cause]
    else if q.fall ≠ 0 ∧ fall = 0 then s1.log1 0x0702 [w16 c, w16 q.cause]
    else s1

/-- The Pickle walk at the tick: a recomputed interval applies (R190), and a pass begins where none runs (R189). -/
def State.pickleTick (s : State) : State :=
  let s1 := if s.seam.intervalDue then
      { s with seam := { s.seam with intervalDue := false, interval := s.pickleInterval, stepBase := s.anvil.frameNo },
               pcs := s.pcs.mapVals (fun _ q => { q with pkStep := 0 }) }
    else s
  if s1.boot.st = 2 ∧ s1.phy.cap ≠ 0 ∧ s1.dom 10 ∧ !s1.seam.passOn then
    { s1 with seam := { s1.seam with passOn := true }, pcs := s1.pcs.mapVals (fun _ q => { q with pkDone := false, pkPos := 0 }),
              ctr := s1.ctr.put 0 (wkey 0x4800 8) 0 }
  else s1

/-- The copy of the anchor's package-wide group is complete (R329): every word that the anchor does not name stands at its default; event 0x0E11, and the digest is
checked again. A tile whose digest still differs is fenced. -/
def State.copyTick (s : State) : State :=
  match s.repair.copying with
  | none => s
  | some k =>
    if s.anvil.frameNo < k.until_ then s
    else
      let s0 := { s with repair := { s.repair with copying := none } }
      let here := (s.dict.applied.filter (fun e => isPkgWide (e.1 / 256) (e.1 % 256) && !k.group.any (fun x => x.1 == e.1))).map
        (fun e => (e.1, wordDefault s.n (e.1 / 256) (e.1 % 256)))
      let s1 := (here ++ k.group.filter (fun e => isPkgWide (e.1 / 256) (e.1 % 256))).foldl (fun z e => z.takeValue (e.1 / 256) (e.1 % 256) 1 e.2.toNat) s0
      let differs := k.torn || s1.digest false != k.digest
      let s2 := s1.log1 0x0E11 [w16 s1.t, Config.resultCode (if differs then .failed else .passed)]
      if differs then s2.tileFault .heal else ({ s2 with anvil := { s2.anvil with gen := k.gen } }).recallAfter s

/-- Heartbeats counted at the tick (R83): a frame without one from a watched tile, and an anchor's offset that was not measured (R77). -/
def State.heartbeatTick (s : State) : State :=
  let a := s.anvil
  let hb := a.hb.mapVals (fun u h => if bit a.hbNow u then { h with missed := 0 } else { h with missed := h.missed + 1 })
  { s with anvil := { a with hb := hb, hbSeen := a.hbNow, hbNow := 0, offBad := a.offBad && bit a.hbNow s.repair.anchor } }

/-- The heartbeat of this tile (R83), sent once it has joined the ring. -/
def State.sendHeartbeat (s : State) : State :=
  if s.n ≤ 1 ∨ !s.dom 29 then s
  else s.ring (.heartbeat s.t (s.frame % 65536) (s.anvil.gen.toNat % 65536) s.repair.anchor s.tileSt)

/-- The repair map's clear is kept for the next start; the frame's maintenance that was not carried out is dropped (R72). -/
def State.dropSlots (s : State) : State := { s with pcs := s.pcs.mapVals (fun _ q => { q with refab := false, refpb := 0, opp := 0 }) }

/-- Traffic takes up links that carry flits again (R324). -/
def State.routeTick (s : State) : State := { s with repair := { s.repair with cut := s.repair.links } }

/-- The work of a tick while the two Anvil copies agree, in order: domains and words, the shapers, ages, fall-back, Pickle, parity, then repair, the
commit and the maintenance of slot 0. -/
def State.tickWork (s : State) : State :=
  let causes := allPcs.map (fun c => (c, s.causeOf c))
  let s1 := (((s.parityTick).pdApply).dropSlots).routeTick
  let s2 := { s1 with anvil := { s1.anvil with guard := s1.reg 0x2100 7 } }
  let s2 := (s2.hotTick).dlyTick
  let s3 := if s2.store.selfRef || s2.quench.on then s2 else s2.takeInterval
  let s4 := ((((s3.refill).correctV).latTick).ageTick).rewindTick
  let s5 := causes.foldl (fun z e => z.fallTick e.1 e.2) s4.coeffTick
  let s6 := ((((s5.pickleTick).markLanes).runDue).openRecovery).rowTick
  let s7 := (s6.commitTick).copyTick
  (((((s7.planDecide).paritySweep).seamTick).healFrame).heartbeatTick).sendHeartbeat

/-- The frame tick (R58). With the outputs of Anvil suppressed (R82) only the time and the frame number move, and the fence that is
due takes effect. -/
def State.tick (s : State) : State :=
  if !s.dom 2 then s
  else
    let s1 := (s.toCycle (frameEnd s.clk.now)).advance
    if s1.anvil.lockstepOk then s1.tickWork else s1.fenceDue

/-! ### Slots -/

/-- Banks whose debt calls for a forced refresh at a slot's start (R73). -/
def State.forcedBanks (s : State) (q : PcSt) : List Nat :=
  (q.debts.filter (fun e => decide ((s.anvil.guard.toNat : Int) - 1 ≤ e.2))).map (fun e => e.1)

/-- Forced refreshes of a pseudo-channel fall due at a slot's start; one in power-down is woken (R73, R74). -/
def State.forceAt (s : State) (c : Nat) : State :=
  if !s.refreshes c then s
  else
    let l := s.forcedBanks (s.pc c)
    if l.isEmpty then s else ((s.wakePc c).setPc c { (s.wakePc c).pc c with forced := l.foldl insNat (s.pc c).forced })

/-- A part would join the pseudo-channel in this cycle (R146, R168). -/
def State.joinsNow (s : State) (c : Nat) : Bool := s.sched.parts.any (fun p => p.pc == c && p.rel.isNone && s.bucketOk p)

/-- A PICKLE opportunity is due on a pseudo-channel (R190). -/
def State.pickleDue (s : State) (c : Nat) : Bool :=
  decide (0 < (s.pc c).pkDebt) || s.seam.fixQueue.any (fun l => (s.map.place l).pc == c) ||
    s.sched.parts.any (fun p => p.pc == c && p.origin == .pickleBack)

/-- The idle timer of a pseudo-channel has reached PD_IDLE × 64 cycles (R167), and no part joins it in this cycle (R168). -/
def State.idleEnough (s : State) (c : Nat) : Bool :=
  let k := (s.reg 0x4000 6).toNat
  let q := s.pc c
  k != 0 && q.down.isNone && (s.pcParts c).isEmpty && !(s.sched.flight.any (fun f => f.pc == c)) && q.forced.isEmpty &&
    !s.joinsNow c && decide (q.idleFrom + 64 * k ≤ s.clk.now)

/-- Power-down entry, which takes tPD (R167). -/
def State.powerDown (s : State) (c : Nat) : State :=
  if s.idleEnough c then (s.setPc c { s.pc c with down := some (s.clk.now + s.tim 17) }).emit (.stack c s.clk.now .pdEnter) else s

/-- The slot word's maintenance on one targeted pseudo-channel (R61, R66): a recovery or a step that runs lets only refreshes through. -/
def State.maintain (s : State) (c : Nat) (m : Maint1) (perSlot : Nat) : State :=
  if !s.refreshes c then s
  else
    let free := !s.pcStopped c
    match m with
    | .refpb => let z := s.wakePc c
                z.setPc c { z.pc c with refpb := perSlot, refpbFrom := 0, refpbDone := [] }
    | .refab => let z := s.wakePc c
                z.setPc c { z.pc c with refab := true }
    | .pickle => if free && s.pickleDue c then (let z := s.wakePc c; z.setPc c { z.pc c with opp := 5 }) else s
    | .seam => if free then s.setPc c { s.pc c with opp := 6 } else s
    | .pdchk => if free then s.powerDown c else s
    | .none => s | .plan => s | .assay => s | .spare => s

/-- The next slot starts (R58, R61, R73). -/
def State.slotStart (s : State) : State :=
  let k := s.anvil.slot
  if !s.dom 2 || !s.anvil.lockstepOk || decide (16 ≤ k) then s
  else
    let s1 := s.toCycle (s.clk.now - s.cyc + 64 * k)
    let w := s1.reg (0x2200 + s1.anvil.descr) (k + 1)
    let s2 := { s1 with anvil := { s1.anvil with slot := k + 1, slotWord := w },
                        pcs := s1.pcs.mapVals (fun _ q => { q with opp := 0 }) }
    let s3 := if bit w 0 then s2.emit (.trace s2.anvil.frameNo k) else s2
    let s4 := allPcs.foldl State.forceAt s3
    let s5 := match s4.anvil.stopped with
      | some (g, _) => if k = 0 then (groupPcs g).foldl State.wakePc s4 else s4
      | none => s4
    let per := (s5.reg 0x2100 5).toNat
    (allPcs.filter (fun c => targets w s5.anvil.roundNo.toNat (c / 4))).foldl (fun z c => z.maintain c (maintOf w) per) s5

/-! ### Refreshes -/

/-- The next accrual of a bank (R71, R75): its schedule's first instant, or the first one at least an interval after its last accrual.
DESIGN CHOICE: b × tREFI / B is rounded down to whole cycles, of a tREFI in whole cycles (log entry 72). -/
def State.nextAccrual (s : State) (c b : Nat) : Nat :=
  let i := s.tim 11
  let base := s.anvil.refRef + b * i / s.banks
  match SMap.look (s.pc c).lastAcc b with
  | none => base
  | some l => base + ceilDiv (l + i - base) i * i

/-- A bank's debt rises by 1 once its instant has come (R71); at the guard's limit its pseudo-channel leaves power-down (R74). -/
def State.accrue (s : State) (c b : Nat) : State :=
  let due := s.nextAccrual c b
  if !s.refreshes c || decide (s.banks ≤ b) || s.tim 11 == 0 || decide (s.clk.now < due) then s
  else
    let q := s.pc c
    let d := q.debt b + 1
    let s1 := s.setPc c { q with debts := q.debts.put 0 b d, lastAcc := q.lastAcc.set b due }
    if (s.anvil.guard.toNat : Int) - 1 ≤ d then s1.wakePc c else s1

/-- A per-bank refresh issued at a cycle (R73, R158): its debt falls by 1. -/
def State.refreshBank (s : State) (c b t : Nat) (forced : Bool) : State :=
  let q := s.pc c
  let done := t + s.tim 12
  (s.setPc c { q with debts := q.debts.put 0 b (q.debt b - 1), rowFree := t + s.tim 5, bankReady := q.bankReady.set b done,
                      idleFrom := max q.idleFrom done, forced := q.forced.filter (fun x => x ≠ b) }).emit (.stack c t (.refPb b forced))

/-- A forced refresh of a pseudo-channel at the current cycle (R73), counted and logged. -/
def State.forcedRefresh (s : State) (c : Nat) : State :=
  match s.forcedNext c with
  | none => s
  | some b =>
    let s1 := (s.refreshBank c b s.clk.now true).count 0x2104 1
    let s2 := { s1 with anvil := { s1.anvil with forcedAt := some s.frame } }
    s2.logLim 0x0305 0 8192 1 (fun held => two (sat32 (held + 1)))

/-- The next per-bank refresh of a REFPB slot (R72, R162): tRRD after the one before it, to the first bank of the order that is idle at its cycle; a
cycle at which none is goes by without one. A forced refresh that can go at that cycle goes first (R63, R73). -/
def State.perBank (s : State) (c : Nat) : State :=
  let q := s.pc c
  let t := s.refpbTime c
  if !s.refreshes c || q.refpb == 0 || q.refab || (s.forcedAt c t).isSome then s
  else
    let s1 := match s.refpbAt c t q.refpbDone with
      | none => s
      | some b => let z := s.refreshBank c b t false
                  z.setPc c { z.pc c with refpbDone := insNat q.refpbDone b }
    s1.setPc c { s1.pc c with refpb := q.refpb - 1, refpbFrom := t + s.tim 5 }

/-- The all-bank refresh of a REFAB slot (R72): issued once every bank is idle, or skipped for the frame; a forced refresh that can still go in the frame
goes first (R63, R73). -/
def State.allBank (s : State) (c : Nat) : State :=
  let q := s.pc c
  if !s.refreshes c || !q.refab || s.forcedAhead c then s
  else
    let t := q.bankReady.foldl (fun a e => max a e.2) (max s.clk.now q.rowFree)
    let done := t + s.tim 13
    if frameEnd s.clk.now < done then s.setPc c { q with refab := false }
    else
      let debts := (List.range s.banks).foldl (fun m b => if s.pullin < q.debt b then SMap.put 0 m b (q.debt b - 1) else m) q.debts
      (s.setPc c { q with refab := false, debts := debts, forced := q.forced.filter (fun b => decide (s.pullin + 1 < q.debt b)), rowFree := t + s.tim 5, idleFrom := max q.idleFrom done,
                          bankReady := (List.range s.banks).map (fun b => (b, done)) }).emit (.stack c t .refAb)

end Sys2Proof.Machine
end

