-- ==== Sys2Proof/Machine/Heat.lean ====
section
/-!
DEFINITION. The commands of housekeeping, Assay, Planish, Anneal and Quench (R267-R297).
-/
namespace Sys2Proof.Machine
open Sys2Proof

/-! ### Housekeeping -/

/-- The PHY groups that a channel of the PHY or the stack is read through (R271): a quadrant's, or all. -/
def channelGroups (ch : Nat) : List Nat :=
  if 8 ≤ ch ∧ ch ≤ 11 then (List.range 4).map (fun k => 4 * (ch - 8) + k)
  else if 23 ≤ ch ∧ ch ≤ 26 then (List.range 4).map (fun k => 4 * (ch - 23) + k)
  else if ch = 22 ∨ (27 ≤ ch ∧ ch ≤ 29) then List.range 16
  else []

/-- The source of a channel is powered and out of reset (R272): the PHY and stack channels are not while the tile is quenched, in Blank mode or fenced,
their groups are off, or the stack is held in reset; the multipliers stand in PD12 (log entry 65). -/
def State.sourceOn (s : State) (ch : Nat) : Bool :=
  if ch = 15 ∨ ch = 16 then s.dom 12
  else
    let gs := channelGroups ch
    gs.isEmpty || (!s.quench.on && s.repair.fenced.isNone && gs.any (fun g => s.dom (13 + g)) &&
      (s.pins.stackResetN || (decide (22 ≤ ch) && decide (ch ≤ 26))))

/-- What the converter gives for a channel (R271): a multiplier's channel reads 0x7FFF while it is unlocked. -/
def State.sampled (s : State) (ch : Nat) (v : Option Word) : Option Word :=
  if (ch = 15 ∧ !s.phy.pll0) ∨ (ch = 16 ∧ !s.phy.pll1) then some 0x7FFF else v

/-- A sample of a channel is kept, with its MISSING bit (R272). -/
def State.keepSample (s : State) (ch : Nat) (v : Option Word) (powered : Bool) : State :=
  let h := s.hk
  let m := v.isNone || !powered
  { s with hk := { h with samples := h.samples.put 0x8000 ch (if m then 0x8000 else v.getD 0x8000), missing := setBit h.missing ch m,
                          nowMiss := setBit h.nowMiss ch m, nowOff := setBit h.nowOff ch !powered } }

/-- A sample judged against its limits (R272): event 0x0D03 on each crossing outward. -/
def State.judgeSample (s : State) (ch : Nat) : State :=
  let out := (s.present ch).isSome && s.beyond ch (s.sample ch)
  let s1 := { s with hk := { s.hk with outLim := setBit s.hk.outLim ch out, nowOut := setBit s.hk.nowOut ch out } }
  if out && !bit s.hk.outLim ch then s1.logRound 0x0D03 ch [w16 ch, s.sample ch] else s1

/-- A stack readout makes the tile hot at once: 85 °C or more, or missing (R273, R291). -/
def State.judgeStack (s : State) (ch : Nat) : State :=
  if ch < 8 ∨ 11 < ch then s
  else match s.present ch with
    | none => s.setHot 2
    | some x => if 1360 ≤ x then s.setHot (if s.hk.hot = 2 then 2 else 1) else s

/-- HK_SAMPLE (R270-R273): the round's next channel, at its offset of 2^18 ns; `powered`: nothing outside this tile keeps its source off. -/
def execHkSample (v : Option Word) (powered : Bool) (s : State) : Host.Outcome State Fault Refusal :=
  .next (
    let ch := s.hk.chan
    if 32 ≤ ch then s
    else
      let s1 := s.toTime (2 ^ 23 * s.hk.rounds + 2 ^ 18 * ch)
      let s2 := { s1 with hk := { s1.hk with chan := ch + 1 } }
      ((s2.keepSample ch (s2.sampled ch v) (powered && s2.sourceOn ch)).judgeSample ch).judgeStack ch)

/-- The witness at a round's end (R268). A round whose sample is missing is neither beyond its limit nor within it. -/
def State.witnessCheck (s : State) : State :=
  let h := s.hk
  match s.present 12 with
  | none => { s with hk := { h with witOut := 0, witIn := 0, witLevel := false } }
  | some x =>
    if s.witnessBeyond x then
      let s1 := { s with hk := { h with witOut := min (h.witOut + 1) 2, witIn := 0, witLevel := true } }
      let s2 := if h.witOut = 0 then s1.log1 0x0D01 [ofI16 x] else s1
      if h.witOut ≥ 1 ∧ !h.refFault then
        (({ s2 with hk := { s2.hk with refFault := true } }).log1 0x0D02 [ofI16 x]).fault .reference ⟨0, 0, 0, 0⟩
      else s2
    else { s with hk := { h with witOut := 0, witIn := min (h.witIn + 1) 2, witLevel := false, refFault := h.refFault && decide (h.witIn < 1) } }

/-- Channel faults at a round's end (R273). -/
def State.channelFaults (s : State) : State :=
  let h := s.hk
  let cnt := h.nowMiss &&& ~~~ h.nowOff
  let step := fun (z : State) (ch : Nat) =>
    let bad := bit cnt ch && bit h.prevMiss ch
    let z1 := if bad && !bit h.chFault ch then
        ({ z with hk := { z.hk with chFault := setBit z.hk.chFault ch true } }).log1 0x0D04 [w16 ch, 0x8000]
      else if !bit h.nowMiss ch then { z with hk := { z.hk with chFault := setBit z.hk.chFault ch false } }
      else z
    if supplyCh ch then
      let out2 := bit h.nowOut ch && bit h.prevOut ch
      let z2 := if out2 && !bit h.supplyRep ch then z1.log1 0x0D04 [w16 ch, z1.sample ch] else z1
      { z2 with hk := { z2.hk with supplyRep := setBit z2.hk.supplyRep ch out2 } }
    else z1
  let s1 := (List.range 32).foldl step s
  { s1 with hk := { s1.hk with prevMiss := cnt, prevOut := h.nowOut, nowMiss := 0, nowOut := 0, nowOff := 0 } }

/-- The tile becomes normal after a round with all four readouts present and below 82 °C (R291). -/
def State.coolCheck (s : State) : State :=
  let cool := [8, 9, 10, 11].all (fun ch => match s.present ch with | some x => decide (x < 1312) | none => false)
  if cool && s.hk.hot != 0 then s.setHot 0
  else if s.hk.hot = 2 ∧ [8, 9, 10, 11].all (fun ch => (s.present ch).isSome) then { s with hk := { s.hk with hot := 1 } }
  else s

/-- The weight of TJ in 1/16 (R332). -/
def lifeWeight (tj : Option Int) : Nat :=
  match tj with
  | none => 120
  | some x => if x ≤ 1040 then 5 else if x ≤ 1360 then 16 else if x ≤ 1520 then 30 else if x ≤ 1680 then 54 else 120

/-- LIFE_EQ in seconds: `life` counts 1/16 ns (R332). -/
def State.lifeEq (s : State) : Nat := s.repair.life / 16000000000
/-- LIFE_PERMILLE (R332). -/
def State.permille (s : State) : Nat := min (s.lifeEq / 788940) 0xFFFF

/-- LIFE_EQ at a round's end, with its thresholds (R332). -/
def State.ageLife (s : State) : State :=
  let s1 := { s with repair := { s.repair with life := s.repair.life + 2 ^ 23 * lifeWeight s.tj } }
  let p := s1.permille
  let s2 := if 900 ≤ p ∧ !s.repair.life900 then ({ s1 with repair := { s1.repair with life900 := true } }).log1 0x0E16 [w16 p] else s1
  if 1000 ≤ p ∧ !s.repair.life1000 then ({ s2 with repair := { s2.repair with life1000 := true } }).log1 0x0E16 [w16 p] else s2

/-- The CRC-32C of a chain record: its samples, then its MISSING bits (R274; log entry 7). -/
def chainCrc (samples : List Word) (missing : BitVec 32) : BitVec 32 :=
  crc32c ((samples ++ two missing.toNat).flatMap wordBytes)

/-- A record sent along the chain (R274): up where a tile stands above, down where one stands below. -/
def State.chainSend (s : State) (up : Bool) (u : Nat) (samples : List Word) (missing : BitVec 32) : State :=
  if (if up then s.t + 1 < s.n else 0 < s.t) then s.ring (.chainRecord up u samples missing (chainCrc samples missing)) else s

/-- The hub's own record of a round enters the package view and goes out both ways (R274). -/
def State.chainStart (s : State) : State :=
  let own := (List.range 32).map s.sample
  let view := own.zipIdx.foldl (fun m x => SMap.put 0x8000 m (s.t * 32 + x.2) x.1) s.hk.chain
  (({ s with hk := { s.hk with chain := view, chainGot := setBit (0 : BitVec 8) s.t true, chainNew := false } }).chainSend true
    s.t own s.hk.missing).chainSend false s.t own s.hk.missing

/-- HK_ROUND_END (R268, R270, R273, R274, R278, R280, R291, R332): once all 32 channels are sampled. -/
def execHkRoundEnd (m : HkMeas) (s : State) : Host.Outcome State Fault Refusal :=
  .next (
    if s.hk.chan < 32 then s
    else
      let r := s.hk.rounds + 1
      let s1 := s.toTime (2 ^ 23 * r)
      let s2 := ((s1.witnessCheck).channelFaults).coolCheck
      let s3 := (s2.recompute false []).measureTile m false
      let s4 := (s3.ageLife).chainStart
      { s4 with hk := { s4.hk with rounds := r, chan := 0, untrimmed := !m.refclk } })

/-- CHAIN_RECORD_RECEIVE (R274, R275): a record of another tile reaches this tile in time; with a good CRC it enters the view and is passed on away
from that tile. -/
def execChainRecordReceive (u : TileNo) (samples : List Word) (tail : ChainTail) (s : State) : Host.Outcome State Fault Refusal :=
  .next (
    if s.n ≤ u.val ∨ u.val = s.t ∨ bit s.hk.chainGot u.val ∨ tail.crc ≠ chainCrc samples tail.missing then s
    else
      let view := (List.range 32).foldl (fun m k => SMap.put 0x8000 m (u.val * 32 + k) (nth samples k 0x8000)) s.hk.chain
      ({ s with hk := { s.hk with chain := view, chainGot := setBit s.hk.chainGot u.val true,
                                  chainMissing := setBit s.hk.chainMissing u.val false,
                                  chainFault := setBit s.hk.chainFault u.val false } }).chainSend (decide (u.val < s.t)) u.val samples tail.missing)

/-- Every record of the round has come or is missing (R275). -/
def State.chainDone (s : State) : Bool := (List.range s.n).all (fun u => bit s.hk.chainGot u)

/-- CHAIN_RECORD_TIMEOUT (R275): 1 ms after the round's end the record of tile u has not come. The anchor logs the faults once every
record of the round is decided. -/
def execChainRecordTimeout (u : TileNo) (s : State) : Host.Outcome State Fault Refusal :=
  .next (
    if s.n ≤ u.val ∨ u.val = s.t ∨ bit s.hk.chainGot u.val then s
    else
      let s1 := s.toTime (2 ^ 23 * s.hk.rounds + 1000000)
      let view := (List.range 32).foldl (fun (m : SMap Word) k => SMap.del m (u.val * 32 + k)) s1.hk.chain
      let again := bit s1.hk.chainMissing u.val
      let new := again && !bit s1.hk.chainFault u.val
      let s2 := { s1 with hk := { s1.hk with chain := view, chainGot := setBit s1.hk.chainGot u.val true,
                                             chainMissing := setBit s1.hk.chainMissing u.val true,
                                             chainFault := setBit s1.hk.chainFault u.val again,
                                             chainNew := s1.hk.chainNew || new } }
      if s2.chainDone && s2.hk.chainNew then
        let s3 := { s2 with hk := { s2.hk with chainNew := false } }
        if s3.isAnchor then s3.log1 0x0D05 [s3.hk.chainFault.setWidth 16] else s3
      else s2)

/-! ### Assay, Planish, Anneal -/

/-- The in-service Anneal of a group is at its Assay (R289 step 4). -/
def State.annealAssay (s : State) (g : Nat) : Bool :=
  match s.repair.recov with
  | some r => r.rung == 1 && r.u.pc / 4 == g && !r.assayed && decide (r.opened.toNat + 16 ≤ s.frame) && decide (s.frame < r.opened.toNat + 20)
  | none => false

/-- ASSAY_STEP_DONE (R279, R282, R283, R289): the measurements of the step that runs on the group; while a Quench restart is in progress those of its
Assay, as at start (R296). -/
def execAssayStepDone (g : Fin 16) (m : AssayMeas) (s : State) : Host.Outcome State Fault Refusal :=
  .next (
    if s.quench.on then
      (if s.quench.restart then
        ({ s with hk := { s.hk with assayAt := SMap.set s.hk.assayAt g.val s.ns },
                  quench := { s.quench with assayed := insNat s.quench.assayed g.val } }).measureGroup g.val m
      else s)
    else if s.anvil.stopped = some (g.val, false) then
      let s1 := { s with anvil := { s.anvil with stopped := none }, hk := { s.hk with assayAt := SMap.set s.hk.assayAt g.val s.ns } }
      (s1.count 0x7001 1).measureGroup g.val m
    else if s.annealAssay g.val then
      let s1 := { s with repair := { s.repair with recov := s.repair.recov.map (fun (r : Recov) => { r with assayed := true }) },
                         hk := { s.hk with assayAt := SMap.set s.hk.assayAt g.val s.ns } }
      s1.measureGroup g.val m
    else s)

/-- PLANISH_STEP_DONE (R285-R287): the eyes of a pseudo-channel whose Planish was due at the tick; a lane's centres move by at most
2 taps, and one that lies further away keeps it due. The new settings apply from the tick that ends the step. -/
def execPlanishStepDone (pc : Pc) (lanes : List LaneEye) (s : State) : Host.Outcome State Fault Refusal :=
  .next (
    if s.quench.on || s.anvil.stopped != some (pc.val / 4, true) || !s.planDueAt pc s.tickNs || (s.pc pc).recov then s
    else
      let far := fun (e : LaneEye) => decide (2 < e.off) || decide (e.off < -2) || decide (2 < e.writeOff) || decide (e.writeOff < -2)
      let s1 := s.setPc pc { s.pc pc with planAt := s.ns, offCentre := lanes.any far, dlyDue := planMoves lanes }
      lanes.foldl (fun z e => z.narrowEye pc e) ((s1.count 0x7001 5).setEyes pc lanes))

/-- PLL_LOCK_LOSS (R280): event 0x0C09 and a clock fault of the tile. -/
def execPllLockLoss (k : Fin 2) (s : State) : Host.Outcome State Fault Refusal :=
  .next (
    let s1 := { s with phy := if k = 0 then { s.phy with pll0 := false } else { s.phy with pll1 := false } }
    (s1.log1 0x0C09 [w16 k]).tileFault .clock)

/-- ANNEAL_DONE (R289, R310): the verification of the group's in-service Anneal; `fails` names the pseudo-channels that it cannot train,
`eyes` what its lane check found. -/
def execAnnealDone (g : Fin 16) (fails : BitVec 4) (eyes : List (Pc × LaneEye)) (s : State) : Host.Outcome State Fault Refusal :=
  .next (
    match s.repair.recov with
    | none => s
    | some r =>
      if r.rung ≠ 1 ∨ r.u.pc / 4 ≠ g.val ∨ r.annealed ∨ s.frame < r.opened.toNat + 24 then s
      else
        let s1 := { s with repair := { s.repair with recov := some { r with annealed := true, fails := fails } } }
        let s1 := (groupPcs g.val).foldl (fun z c => z.setPc c { z.pc c with rdDly := [], wrDly := [], dlyDue := [], offCentre := false }) s1
        let s2 := (s1.count 0x7001 9).laneCheck (eyes.map (fun x => (x.1.val, x.2)))
        s2.log1 0x0C0A [w16 g, Config.resultCode (if fails = 0 then .passed else .failed)])

/-! ### Quench -/

/-- A trip recorded (R269, R293): its cause, its count, and the cooling count begun anew. -/
def State.tripped (s : State) (byTj : Bool) (counts : Bool) : State :=
  let q := s.quench
  { s with quench := { q with on := true, byTj := q.byTj && !counts || byTj, byStack := q.byStack && !counts || !byTj, coolFrom := none, since := if q.on then q.since else s.anvil.frameNo,
                              restart := false, count := if counts then sat32 (q.count + 1) else q.count },
           pins := { s.pins with quenchLow := true } }

/-- PHY channel groups in PD13 to PD28. -/
def phyDomains : BitVec 30 := BitVec.ofNat 30 (0xFFFF * 2 ^ 13)

/-- Steps 1 to 5 of R294: steps abandoned, self-refresh, PHY groups off, key slots empty and open cipher requests settled (R261); an open
recovery starts again after the restart (R297). -/
def State.quenchStop (s : State) : State :=
  let w := match s.repair.recov with
    | some r => ({ rung := r.rung, u := r.u, cls := r.cls, found := r.found, behind := r.behind, lanes := r.lanes, at_ := 0, again := true, rows := r.rows } : FaultW) ::
        s.repair.waiting
    | none => s.repair.waiting
  let s1 := { s with anvil := { s.anvil with stopped := none }, repair := { s.repair with recov := none, waiting := w },
                     pcs := s.pcs.mapVals (fun _ q => { q with stopped := false, recov := false, opp := 0, dlyDue := [] }) }
  let s2 := ((s1.dropRowParts).selfRefresh.failAllStreams).emptySlots
  { s2 with pd := { s2.pd with status := s2.pd.status &&& ~~~ phyDomains, rising := s2.pd.rising &&& ~~~ phyDomains } }

/-- QUENCH_TRIP (R269, R293, R294, R297): by die sensor `sensor`, or by the stack's indication where none is named. In Blank mode only
ZG_QUENCH_N is driven; a trip while quenched restarts the cooling count, and one before a start has begun has no effect (R398). -/
def execQuenchTrip (sensor : Option (Fin 8)) (reading : Word) (s : State) : Host.Outcome State Fault Refusal :=
  .next (
    let first := !s.quench.on || s.quench.restart
    let s1 := s.tripped sensor.isSome first
    if s.boot.st = 0 then s
    else if s.boot.st = 4 ∨ !first then s1
    else
      let no := match sensor with
        | some k => w16 k.val
        | none => Config.noSensor
      (s1.quenchStop).log1 0x0D08 [Config.quenchCode sensor.isSome, no, reading])

/-- COOLING_COUNT_START (R296): every die sensor is below 100 °C under both references and the indication is deasserted. -/
def execCoolingCountStart (s : State) : Host.Outcome State Fault Refusal :=
  .next (if s.quench.on ∧ !s.quench.restart then { s with quench := { s.quench with coolFrom := some s.ns } } else s)

/-- PHY groups with a pseudo-channel in service. -/
def State.phyUsed (s : State) : BitVec 30 :=
  (List.range 16).foldl (fun a g => if (groupPcs g).all (fun c => (s.pc c).retired) then a else setBit a (13 + g) true) 0

/-- QUENCH_RESTART (R296 step 1): the cooling second has passed. A tile in Blank mode, or whose start waits, only releases ZG_QUENCH_N (R297). -/
def execQuenchRestart (s : State) : Host.Outcome State Fault Refusal :=
  .next (
    match s.quench.coolFrom with
    | none => s
    | some c =>
      if !s.quench.on || s.quench.restart then s
      else
        let s1 := s.toTime (c + 1000000000)
        if s.boot.st = 4 ∨ s.boot.st = 1 then
          { s1 with quench := { s1.quench with on := false, byTj := false, byStack := false, coolFrom := none },
                    pins := { s1.pins with quenchLow := false } }
        else { s1 with quench := { s1.quench with restart := true, assayed := [], coolFrom := none, restartAt := s1.ns }, pd := { s1.pd with rising := s1.pd.rising ||| s1.phyUsed } })

/-- The pseudo-channels of a list as four words, bit c for pseudo-channel c. -/
def pcMask (l : List Nat) : List Word := four (l.eraseDups.foldl (fun a c => a + 2 ^ c) 0)

/-- QUENCH_RESTART_DONE (R74, R76, R284, R288, R296, R297): Assay as at a start, but for the groups whose step has run; the stack leaves self-refresh
unless a fence, a shutdown or its retirement keeps it there; Anneal's lane check; ticks are aligned; pseudo-channels that Anneal could not train are
handed to repair. The bound of a recovery that starts again runs from here (R297), and the time in Quench counts for no fault that waits (R309). -/
def execQuenchRestartDone (e : RestartEnv) (s : State) : Host.Outcome State Fault Refusal :=
  .next (
    if !s.quench.restart || s.boot.st != 2 then s
    else
      let s1 := { s with quench := { s.quench with on := false, byTj := false, byStack := false, restart := false },
                         pins := { s.pins with quenchLow := false },
                         pd := { s.pd with status := s.pd.status ||| s.phyUsed, rising := s.pd.rising &&& ~~~ phyDomains },
                         pcs := s.pcs.mapVals (fun _ q => { q with rdDly := [], wrDly := [], offCentre := false }) }
      let s1 := (s1.startAssay e.assay e.tile s.quench.assayed).takeMarker e.mark
      let s1 := { s1 with repair := { s1.repair with waiting := s1.repair.waiting.map (fun (w : FaultW) =>
        if w.again then { w with found := s1.anvil.frameNo, again := false }
        else { w with found := w.found + (s1.anvil.frameNo - (if w.found < s.quench.since then s.quench.since else w.found)) }) } }
      let s2 := if s1.repair.fenced.isSome || s1.phase == 4 || s1.repair.stackRetired then s1 else (s1.leaveSelfRefresh).takeInterval
      let s2 := s2.laneCheck (e.eyes.map (fun x => (x.1.val, x.2)))
      let bad := e.fails.filter (fun c => !(s2.pc c).retired)
      let s2 := if s2.repair.stackRetired || (e.ident.getD (s.phy.ids, s.phy.rowBits) == (s.phy.ids, s.phy.rowBits)) then s2 else s2.stackFault ⟨0, 0, 0, 0⟩ .stack
      (bad.foldl (fun (z : State) c => z.pcFault ⟨c.val, 0, 0, 0⟩ .calibration) s2).log1 0x0D09 (pcMask (bad.map (fun c => c.val))))

end Sys2Proof.Machine
end

