-- ==== Sys2Proof/Machine/NorOps.lean ====
section
/-!
DEFINITION. The Hallmark store (R346-R356): its bytes, image copies and their records, the ledger's bodies and tallies.
-/
namespace Sys2Proof.Machine
open Sys2Proof

/-! ### Bytes of the store -/

/-- A byte of the store; an erased byte, unlisted, reads 0xFF (R350; log entry 5). -/
def State.norByte (s : State) (a : Nat) : Byte := SMap.getD s.nor a 0xFF
/-- Bytes of the store from an address on. -/
def State.norBytes (s : State) (a k : Nat) : List Byte := (List.range k).map (fun j => s.norByte (a + j))
/-- A value of k bytes in the store, lowest first. -/
def State.norNat (s : State) (a k : Nat) : Nat := ofBytes (s.norBytes a k)

/-- Bytes put into the store, its list kept canonical. -/
def putNor (m : List Host.Cell) : Nat → List Byte → List Host.Cell
  | _, [] => m
  | a, b :: r => putNor (SMap.put 0xFF m a b) (a + 1) r

/-- Bytes of the store programmed. -/
def State.program (s : State) (a : Nat) (bs : List Byte) : State := { s with nor := putNor s.nor a bs }
/-- A span of the store erased (R350). -/
def State.erase (s : State) (a k : Nat) : State := { s with nor := s.nor.filter (fun c => !(decide (a ≤ c.1) && decide (c.1 < a + k))) }
/-- A span reads erased. -/
def State.blank (s : State) (a k : Nat) : Bool := s.nor.all (fun c => !(decide (a ≤ c.1) && decide (c.1 < a + k)))

/-- Image copy A (0) or B (1) (R347). -/
def imageAt (c : Nat) : Nat := if c = 0 then 0x100000 else 0x300000
/-- Ledger body A (0) or B (1) (R347). -/
def bodyAt (c : Nat) : Nat := if c = 0 then 0x500000 else 0x510000
/-- Tally area A (0) or B (1) (R347). -/
def tallyArea (c : Nat) : Nat := bodyAt c + 0x8000

/-- MAGIC of an image copy, "ZHX8" (R348). -/
def magicImage : Nat := 0x3858485A
/-- MAGIC of a ledger body, "ZHLG" (R352). -/
def magicLedger : Nat := 0x474C485A
/-- MAGIC of a tally, "ZHTY" (R353). -/
def magicTally : Nat := 0x5954485A

/-- The 28 bytes of a header that its CRC covers (R348). -/
def headBytes (magic seq len : Nat) : List Byte := bytesOf 4 magic ++ bytesOf 2 1 ++ bytesOf 2 0 ++ bytesOf 4 seq ++ bytesOf 4 len ++ bytesOf 12 0

/-- The CRC of the copy at an address, computed over its header and body (R348). -/
def State.copyCrc (s : State) (a : Nat) : Nat := (crc32c (s.norBytes a 28 ++ s.norBytes (a + 256) (s.norNat (a + 12) 4))).toNat

/-- Why a copy is rejected: 1 magic, 2 format, 3 length, 4 CRC; 0 for none (R348, R349, R364). -/
def State.copyCause (s : State) (a magic limit : Nat) (crc : Bool) : Nat :=
  if s.norNat a 4 ≠ magic then 1
  else if s.norNat (a + 4) 2 ≠ 1 then 2
  else if limit < s.norNat (a + 12) 4 then 3
  else if crc && s.copyCrc a ≠ s.norNat (a + 28) 4 then 4
  else 0

/-- SEQ of the copy at an address (R348). -/
def State.copySeq (s : State) (a : Nat) : BitVec 32 := BitVec.ofNat 32 (s.norNat (a + 8) 4)

/-- Copies A and B in the order they are tried: newest first, A first where they are equal (R349). -/
def State.copyOrder (s : State) (at_ : Nat → Nat) : List Nat := if serNewer (s.copySeq (at_ 0)) (s.copySeq (at_ 1)) then [1, 0] else [0, 1]

/-! ### Image records -/

/-- The records of a body; none where one runs past its end (R348). -/
def parseRecords : Nat → List Word → Option (List ImgRec)
  | _, [] => some []
  | 0, _ :: _ => none
  | _ + 1, [_] => none
  | fuel + 1, i :: h :: r =>
    let k := fld h 7 0
    if k = 0 ∨ r.length < k then none
    else (parseRecords fuel (r.drop k)).map (fun l => ⟨i.toNat, fld h 15 8, r.take k⟩ :: l)

/-- A record that an image may not hold (R348). -/
def ImgRec.refused (x : ImgRec) : Bool :=
  (List.range x.ws.length).any (fun j =>
    let y := x.sub + j
    decide (255 < y) || (decide (0x1500 ≤ x.idx) && decide (x.idx < 0x1600)) || (x.idx == 0x1100 && y == 7) || (x.idx == 0x1110 && y == 1) ||
      x.idx == 0x1111 || (x.idx == 0x7801 && y == 1) || (decide (0x6000 ≤ x.idx) && decide (x.idx < 0x6400)) ||
      (match regRow x.idx y with
       | none => true
       | some r => !r.acc.writable))

/-- The records of the image copy at an address, none where the copy is refused (R348). -/
def State.imageRecords (s : State) (a : Nat) : Option (List ImgRec) :=
  let len := s.norNat (a + 12) 4
  if len % 2 = 1 then none
  else match parseRecords (len / 2) (wordsOfBytes (s.norBytes (a + 256) len)) with
    | none => none
    | some l => if l.any ImgRec.refused then none else some l

/-- The image copy selected (R349) with the copies rejected before it and their causes; a copy that fails on magic, format or length is not tried. -/
def State.selectImage (s : State) : List (Nat × Nat) × Option Nat :=
  let bad := [0, 1].filterMap (fun c =>
    let k := s.copyCause (imageAt c) magicImage 1048320 false
    if k = 0 then none else some (c, k))
  let ok := (s.copyOrder imageAt).filter (fun c => s.copyCause (imageAt c) magicImage 1048320 false == 0)
  let failing := ok.takeWhile (fun c => s.copyCause (imageAt c) magicImage 1048320 true != 0)
  (bad ++ failing.map (fun c => (c, 4)), ok.find? (fun c => s.copyCause (imageAt c) magicImage 1048320 true == 0))

/-! ### The ledger -/

/-- The bytes of a map entry (R352). -/
def MapEnt.bytes (e : MapEnt) : List Byte :=
  [BitVec.ofNat 8 (e.kind * 16 + e.tile), BitVec.ofNat 8 e.pc, BitVec.ofNat 8 e.bankLane, 0] ++ bytesOf 2 e.d ++ [0, 0]

/-- The entry at an address (R352). -/
def State.mapEntAt (s : State) (a : Nat) : MapEnt :=
  let b := fun k => (s.norByte (a + k)).toNat
  ⟨b 0 / 16, b 0 % 16, b 1, b 2, b 4 + 256 * b 5⟩

/-- A ledger body is valid (R352). -/
def State.bodyOk (s : State) (c : Nat) : Bool := s.copyCause (bodyAt c) magicLedger 32512 true == 0

/-- The newest valid ledger body (R354). -/
def State.selectBody (s : State) : Option Nat := (s.copyOrder bodyAt).find? s.bodyOk

/-- The entries of a body (R352). -/
def State.bodyEntries (s : State) (c : Nat) : List MapEnt :=
  (List.range (s.norNat (bodyAt c + 12) 4 / 8)).map (fun k => s.mapEntAt (bodyAt c + 256 + 8 * k))

/-- The address of a tally page (R347, R353). -/
def tallyPage (c p : Nat) : Nat := tallyArea c + 256 * p

/-- A tally page holds a valid record (R353). -/
def State.tallyOk (s : State) (c p : Nat) : Bool :=
  let a := tallyPage c p
  s.norNat a 4 == magicTally && (crc32c (s.norBytes a 124)).toNat == s.norNat (a + 124) 4

/-- TSEQ of a tally page. -/
def State.tallySeqAt (s : State) (c p : Nat) : BitVec 32 := BitVec.ofNat 32 (s.norNat (tallyPage c p + 4) 4)

/-- The page of a copy's newest tally (R354). -/
def State.newestIn (s : State) (c : Nat) : Option Nat :=
  firstMin (fun a b => serNewer (s.tallySeqAt c b) (s.tallySeqAt c a)) ((List.range 128).filter (s.tallyOk c))

/-- The copy and page of the newest tally across both copies (R354). -/
def State.newestTally (s : State) : Option (Nat × Nat) :=
  match s.newestIn 0, s.newestIn 1 with
  | some p, some q => if serNewer (s.tallySeqAt 0 p) (s.tallySeqAt 1 q) then some (1, q) else some (0, p)
  | some p, none => some (0, p)
  | none, some q => some (1, q)
  | none, none => none

/-- A field of a tally record: k bytes at an offset; 0 where no tally is valid (R354). -/
def State.tallyField (s : State) (off k : Nat) : Nat :=
  match s.newestTally with
  | some (c, p) => s.norNat (tallyPage c p + off) k
  | none => 0

/-- LIFE_SECONDS (R361). -/
def State.lifeSeconds (s : State) : Nat := sat32 (s.boot.seconds.toNat + s.ns / 1000000000)

/-- READY_END of a copy as it stands in the part (R356). -/
def State.readyEnd (s : State) (c : Nat) : Nat := if c = 0 then s.boot.readyA else s.boot.readyB
/-- READY_END of a copy changed. -/
def State.setReady (s : State) (c v : Nat) : State :=
  { s with boot := if c = 0 then { s.boot with readyA := v } else { s.boot with readyB := v } }

/-- The first page of a copy, from a page on, that a tally may take: one that reads erased, or the one at READY_END, whose sector is erased first (R350, R356).
DESIGN CHOICE: a page below READY_END that does not read erased, which R350 lets no program touch, is passed over (log entry 73). -/
def State.pageFrom (s : State) (c p : Nat) : Nat :=
  (((List.range 128).map (fun k => (p + k) % 128)).find? (fun q => s.readyEnd c % 128 == q || s.blank (tallyPage c q) 256)).getD (s.readyEnd c % 128)

/-- The next page of a copy (R356). -/
def State.nextPage (s : State) (c : Nat) : Nat :=
  s.pageFrom c (match s.newestIn c with
    | some q => (q + 1) % 128
    | none => 0)

/-- A copy keeps at least 16 ready pages ahead: the sector at its READY_END is erased (R356). -/
def State.keepReady (s : State) (c : Nat) : State :=
  let e := s.readyEnd c % 128
  if (e + 128 - s.nextPage c) % 128 < 16 then (s.erase (tallyArea c + e / 16 * 4096) 4096).setReady c ((e / 16 * 16 + 16) % 128) else s

/-- The copy that the next tally goes to: the one that does not hold the newest (R356). -/
def State.tallyCopy (s : State) : Nat := match s.newestTally with
  | some (c, _) => 1 - c
  | none => 0

/-- The copy's next page made ready: its sector is erased first where it lies beyond READY_END (R356). -/
def State.readyPage (s : State) (c : Nat) : State :=
  let p := s.nextPage c
  if s.readyEnd c % 128 = p then (s.erase (tallyArea c + p / 16 * 4096) 4096).setReady c ((p / 16 * 16 + 16) % 128) else s

/-- FAILED of each tile in the next tally (R343, R353): the newest tally's, changed for the tiles named. -/
def State.failedList (s : State) (f : Nat → Nat → Nat) : Nat :=
  (List.range 8).foldl (fun a k => a + (if k = s.t then s.boot.failed else f k (s.tallyField 20 4 / 16 ^ k % 16)) * 16 ^ k) 0

/-- LIFE_EQ of each tile in the next tally (R353, R355): this tile's own, what the others have sent, and the newest tally's for one that has sent none (log
entry 31). -/
def State.lifeList (s : State) : List Byte :=
  (List.range 8).flatMap (fun k => bytesOf 8 (if k = s.t then s.lifeEq else (SMap.look s.repair.lives k).getD (s.tallyField (60 + 8 * k) 8)))

/-- A tile that does not write the tally sends its LIFE_EQ for it (R355). -/
def State.sendLife (s : State) : State := if s.n ≤ 1 ∨ !s.dom 29 then s else s.ring (.lifeEq s.lifeEq)

/-- The bytes of a tally record (R353). -/
def State.tallyBytes (s : State) (kind failed readyEnd : Nat) : List Byte :=
  let body := bytesOf 4 magicTally ++ bytesOf 4 (s.boot.tallySeq + 1).toNat ++ bytesOf 4 0 ++ bytesOf 4 s.lifeSeconds ++ bytesOf 4 s.boot.cycles.toNat ++
    bytesOf 4 failed ++ bytesOf 1 kind ++ bytesOf 1 0 ++ bytesOf 2 readyEnd ++ bytesOf 32 0 ++ s.lifeList
  body ++ bytesOf 4 (crc32c body).toNat

/-- A tally written (R355, R356): its record programmed, TSEQ raised, and 16 ready pages kept ahead in each copy. -/
def State.writeTally (s : State) (kind : Nat) (f : Nat → Nat → Nat) : State :=
  let c := s.tallyCopy
  let s1 := s.readyPage c
  let s2 := s1.program (tallyPage c (s1.nextPage c)) (s.tallyBytes kind (s.failedList f) (s1.readyEnd c))
  let s3 := { s2 with boot := { s2.boot with tallySeq := s2.boot.tallySeq + 1, tallyAt := s2.ns, tallyDue := false } }
  (s3.keepReady 0).keepReady 1

/-- The repair map written to the body that is older or invalid (R330, R350, R352): event 0x0E15. -/
def State.writeMap (s : State) : State :=
  let c := match s.selectBody with
    | some x => 1 - x
    | none => 0
  let body := s.repair.map.flatMap MapEnt.bytes
  let seq := s.boot.ledSeq + 1
  let head := headBytes magicLedger seq.toNat body.length
  let s1 := (s.erase (bodyAt c) 0x8000).program (bodyAt c) (head ++ bytesOf 4 (crc32c (head ++ body)).toNat)
  let s2 := s1.program (bodyAt c + 256) body
  let b := s2.boot
  ({ s2 with boot := { b with ledSeq := seq, bodyA := b.bodyA || c == 0, bodyB := b.bodyB || c == 1 },
             repair := { s2.repair with mapDue := false } }).log1 0x0E15 (two seq.toNat)

end Sys2Proof.Machine
end

