-- ==== Sys2Proof/Machine/WriteOps.lean ====
section
/-!
DEFINITION. Writes to the dictionary as both access paths and the image share them (R366, R371, R374-R376, R379, R380, R383, R384): an access cut into
its objects, the unlock latch and lock, the assembly of multi-word objects, staging, and values refused.
-/
namespace Sys2Proof.Machine
open Sys2Proof

/-! ### An access and its objects -/

/-- The part of an access that falls on one object: its row, index, lowest subindex, words, and the place of the first of them in the object. -/
structure WPart where
  row : RegRow
  i : Nat
  base : Nat
  off : Nat
  ws : List Word
  deriving DecidableEq, Repr

/-- The objects of an access in ascending subindex order; unimplemented locations are ignored (R375). -/
def partsOf (i : Nat) : Nat → Nat → List Word → List WPart
  | 0, _, _ => []
  | _ + 1, _, [] => []
  | fuel + 1, x, w :: r =>
    match regRow i x with
    | none => partsOf i fuel (x + 1) r
    | some row =>
      let b := row.base x
      let k := min (b + row.w - x) (r.length + 1)
      ⟨row, i, b, x - b, (w :: r).take k⟩ :: partsOf i fuel (x + k) ((w :: r).drop k)

/-- The value of a part alone, as events carry it. -/
def WPart.value (p : WPart) : Nat := ofWords p.ws

/-! ### The unlock latch and the lock -/

/-- Less than 1 s of powered time has passed since a moment (R379, R380). -/
def State.withinSec (s : State) (t : Option Nat) : Bool := match t with
  | some x => decide (s.ns < x + 1000000000)
  | none => false

/-- The path's latch is armed (R379). -/
def State.armed (s : State) (h : Path) : Bool := s.withinSec (s.path h).armedAt
/-- The path is locked (R380). -/
def State.locked (s : State) (h : Path) : Bool := s.withinSec (s.path h).lockedAt
/-- A guarded write on the path is let through (R379, R380). -/
def State.guardOk (s : State) (h : Path) : Bool := s.armed h && !s.locked h

/-- A guarded write consumes the latch, or is refused, counted and logged once (R374, R379, R380). -/
def State.guardUse (s : State) (h : Path) : State :=
  if s.guardOk h then s.setPath h { s.path h with armedAt := none }
  else ({ s with maint := { s.maint with guardRefused := satAdd16 s.maint.guardRefused 1 } }).log1 0x0F02 []

/-- A value written to UNLOCK (R379, R380), with its STATUS. -/
def State.unlock (s : State) (h : Path) (v : Word) : State × Nat :=
  if s.locked h then (s, 5)
  else if v = 0xA5C3 then (s.setPath h { s.path h with armedAt := some s.ns }, 0)
  else
    let q := s.path h
    let ts := q.keyTimes.filter (fun t => decide (s.ns < t + 1000000000)) ++ [s.ns]
    let s1 := ({ s with maint := { s.maint with invalidKeys := satAdd16 s.maint.invalidKeys 1 } }).log1 0x0F05 []
    if 3 ≤ ts.length then ((s1.setPath h { q with armedAt := none, keyTimes := [], lockedAt := some s.ns }).log1 0x0F04 [], 0)
    else (s1.setPath h { q with armedAt := none, keyTimes := ts }, 0)

/-! ### One object of an access -/

/-- The assembly a source of writes uses: a path's own (R376); the image's records use that of the bus, which no one else does in a start. -/
def State.asmOf (s : State) (src : Option Path) : Option (Nat × SMap Word) := (s.path (src.getD .bus)).asm
/-- That assembly changed. -/
def State.setAsm (s : State) (src : Option Path) (a : Option (Nat × SMap Word)) : State :=
  let h := src.getD .bus
  s.setPath h { s.path h with asm := a }

/-- A write is held as a staged value (R374, R383). -/
def State.toStage (s : State) (p : WPart) : Bool := p.row.acc == .staged || (s.phase != 1 && !actsAtOnce p.i p.base)

/-- The words assembled for an object, the new ones over those that stood (R376). -/
def State.assembled (s : State) (src : Option Path) (p : WPart) : SMap Word :=
  let old := match s.asmOf src with
    | some (k, m) => if k = wkey p.i p.base then m else []
    | none => []
  p.ws.zipIdx.foldl (fun m e => SMap.set m (p.off + e.2) e.1) old

/-- The value that takes effect when the highest word is written (R376): words not assembled take their current value; reserved bits are
ignored (R375). -/
def State.fullValue (s : State) (p : WPart) (m : SMap Word) : Nat :=
  ofWords ((List.range p.row.w).map (fun j =>
    let x := p.base + j
    let cur := if s.toStage p then s.stagedReg p.i x else s.reg p.i x
    (m.getD j cur) &&& keptBits p.i x))

/-- A value that an object has accepted takes its place: held as staged, with a copy to every tile at the anchor where the object is package-wide
(R384), or applied (R383); PD_ENABLE and PORT_CTRL by their own rules. -/
def State.putValue (s : State) (src : Option Path) (p : WPart) (v : Nat) : State :=
  if s.toStage p then
    let s1 := (List.range p.row.w).foldl (fun z j => z.setStaged p.i (p.base + j) (wordAt v j)) s
    if isPkgWide p.i p.base && src.isSome then s1.ring (.stagedCopy (wkey p.i p.base) (wordsOf p.row.w v)) else s1
  else if p.i = 0x1201 then s.pdWrite (BitVec.ofNat 32 v)
  else if h : 0x3000 ≤ p.i ∧ p.i ≤ 0x301F ∧ p.base = 1 then s.portCtrl ⟨p.i - 0x3000, by omega⟩ (w16 v)
  else s.takeValue p.i p.base p.row.w v

/-- The STATUS of a PD_ENABLE value (R31, R371). -/
def State.pdStatus (s : State) (p : WPart) (v : Nat) : Nat :=
  if p.i = 0x1201 && s.pdBad ((BitVec.ofNat 32 v &&& 0x3FFFFFFF) ||| 3) then 6 else 0

/-- A writable object written (R375, R376, R383, R384, R81): package-wide objects at the anchor alone, frozen ones not at all, values outside the
range ignored. `cmd` answers for the objects that are commands. -/
def State.writeRw (s : State) (src : Option Path) (onward : Bool) (cmd : State → Nat → Nat → Nat → Option (State × Nat)) (p : WPart) : State × Nat :=
  if isPkgWide p.i p.base && src.isSome && (onward || !s.isAnchor) then (s.wrongTile p.i (p.base + p.off) p.value, 8)
  else if s.toStage p && s.commit.prepared then (s.log1 0x0314 [w16 p.i, w16 (p.base + p.off), nth p.ws 0 0], 7)
  else
    let m := s.assembled src p
    if p.off + p.ws.length < p.row.w then (s.setAsm src (some (wkey p.i p.base, m)), 0)
    else
      let s1 := s.setAsm src none
      let v := s1.fullValue p m
      match cmd s1 p.i p.base v with
      | some r => r
      | none =>
        match s1.badValue p.i p.base v with
        | some code => (s1.refuseValue code p.i p.base v, 6)
        | none => (s1.putValue src p v, s1.pdStatus p v)

/-- One object of an access (R374): `ok` is what the latch allowed. -/
def State.writePart (s : State) (src : Option Path) (onward ok : Bool) (cmd wo : State → Nat → Nat → Nat → Option (State × Nat)) (p : WPart) :
    State × Nat :=
  let s0 := match s.asmOf src with
    | some (k, _) => if k = wkey p.i p.base then s else s.setAsm src none
    | none => s
  match p.row.acc with
  | .ro => (s0, 4)
  | .wo =>
    if !s0.avail p.i then (s0.ignored p.i (p.base + p.off) p.value, 6)
    else (wo s0 p.i (p.base + p.off) p.value).getD (s0, 0)
  | .guarded => if ok then s0.writeRw src onward cmd p else (s0, 5)
  | .rw => s0.writeRw src onward cmd p
  | .staged => s0.writeRw src onward cmd p

/-- An access or WRITE request (R366, R371, R379): its guarded words use the latch once, its words act in ascending order, and STATUS is that of the
first refused. -/
def State.writeAccess (s : State) (src : Option Path) (onward : Bool) (cmd wo : State → Nat → Nat → Nat → Option (State × Nat)) (i x : Nat)
    (ws : List Word) : State × Nat :=
  let ps := partsOf i 256 x ws
  let g := ps.any (fun p => p.row.acc == .guarded)
  let ok := match src with
    | some h => s.guardOk h
    | none => true
  let s1 := match src with
    | some h => if g then s.guardUse h else s
    | none => s
  ps.foldl (fun a p =>
    let r := a.1.writePart src onward ok cmd wo p
    (r.1, if a.2 = 0 then r.2 else a.2)) (s1, 0)

end Sys2Proof.Machine
end

