-- ==== Sys2Proof/Machine/BootOps.lean ====
section
/-!
DEFINITION. Reset, start and shutdown (R338-R345, R357-R361, R398-R402): what each keeps, the steps of R339, a failed start, Blank mode, and the
steps of R358.
-/
namespace Sys2Proof.Machine
open Sys2Proof

/-! ### What a start begins from -/

/-- The tile with every object at its default (R339 step 2, R401). FRAME_NO is never reset while the package is powered (R59), nor are the limits of
the event log (R405). PD0 keeps its time, counts and samples (R338, R343); the event log (R388), the store
a map clear that awaits the start (R334) and the GRADE_SELECT last written (R298) stay, and so does the bus's address while PD1 stays on. -/
def State.coldTile (s : State) : State :=
  let z : State := {}
  { z with
    pending := s.pending, freeCount := s.freeCount, out := s.out, ident := s.ident, pins := s.pins, clk := s.clk, nor := s.nor,
    log := s.log, anvil := { z.anvil with frameNo := s.anvil.frameNo },
    maint := if s.dom 1 then { s.maint with invalidKeys := 0, guardRefused := 0, frameErrors := 0 } else {},
    hk := { s.hk with force := [], forceDue := [], meas := [], measT := [], refusals := [], assayAt := [], half := s.hk.hot != 0, halfDue := none },
    quench := { s.quench with restart := false },
    pd := { status := s.pd.status &&& 3 },
    repair := { z.repair with life := s.repair.life, life900 := s.repair.life900, life1000 := s.repair.life1000, clearDue := s.repair.clearDue },
    boot := { z.boot with
      st := s.boot.st, step := s.boot.step, failed := s.boot.failed, reason := s.boot.reason, failStep := s.boot.failStep, ms10 := s.boot.ms10,
      count := s.boot.count, cause := s.boot.cause, began := s.boot.began, failedAt := s.boot.failedAt, addedTally := s.boot.addedTally,
      copy := s.boot.copy, aOk := s.boot.aOk, bOk := s.boot.bOk, rej := s.boot.rej, imgSeq := s.boot.imgSeq, imgLen := s.boot.imgLen,
      usable := s.boot.usable, storeMiB := s.boot.storeMiB, clock := s.boot.clock, tallySeq := s.boot.tallySeq, ledSeq := s.boot.ledSeq,
      readyA := s.boot.readyA, readyB := s.boot.readyB, seconds := s.boot.seconds, cycles := s.boot.cycles, tallyAt := s.boot.tallyAt,
      shut := s.boot.shut, shutCause := s.boot.shutCause, shutAt := s.boot.shutAt, gradeSel := s.boot.gradeSel } }

/-! ### Writes of the store cut short -/

/-- An erase cut short leaves bytes of which any bit may have become 1 (R350; log entry 2). -/
def State.halfErase (s : State) (a k : Nat) : State :=
  let old := s.norBytes a k
  let bs := old.zipIdx.map (fun e => e.1 ||| (Config.freeWord (s.freeCount + e.2)).setWidth 8)
  { s.program a bs with freeCount := s.freeCount + k }

/-- A page program cut short or failed leaves bytes of which any bit due to become 0 may stand at 1 (R350; log entry 2). -/
def State.halfProgram (s : State) (a : Nat) (bs : List Byte) : State :=
  let part := bs.zipIdx.map (fun e => e.1 ||| (Config.freeWord (s.freeCount + e.2)).setWidth 8)
  { s.program a part with freeCount := s.freeCount + bs.length }

/-- The copy that HM_STATE names as its target: 0 A, 1 B. -/
def State.hmTarget (s : State) : Nat := s.boot.hmCopy - 1

/-- Work of the store under way is cut short: by a loss of power, a reset, or a suspend that is never resumed (R358). -/
def State.cutStore (s : State) : State :=
  let s1 := if s.boot.hmErasing then s.halfErase (imageAt s.hmTarget) 4096 else s
  let s2 := match s1.boot.prog with
    | some (a, bs) => s1.halfProgram a bs
    | none => s1
  { s2 with boot := { s2.boot with hmErasing := false, prog := none, hmOpen := false, hmReady := false, hmClosing := false, suspended := false } }

/-! ### Beginning -/

/-- A start begins (R338, R339): the phase is start, the stack is held in reset, and ZG_ALERT_N is released (R398). -/
def State.beginStart (s : State) (cause : Nat) : State :=
  let s1 := s.cutStore.coldTile
  let b := s1.boot
  { s1 with boot := { b with st := 1, step := if s1.pins.pwrfailN then 1 else 0, reason := 0, cause := cause, began := s1.ns, count := sat32 (b.count + 1),
                             shut := 0, shutCause := 0, tallyUp := false },
            pins := { s1.pins with alertLow := false, stackResetN := false } }

/-- A reset takes effect (R398, R401): every domain but PD0 switches off and the outputs take their reset states; powered time goes on. -/
def State.resetTile (s : State) : State :=
  let s1 := { s.cutStore with pd := { status := 1 } }
  let s2 := s1.coldTile
  { s2 with boot := { s2.boot with st := 0, step := 0 },
            quench := { count := s.quench.count },
            pins := { s2.pins with resetN := false, alertLow := false, quenchLow := false, stackResetN := false } }

/-! ### Failure -/

/-- The next value of a FAILED count (R343). -/
def failedUp (k : Nat) : Nat := min (k + 1) 15

/-- Failed starts of other tiles, each in a tally of its own (R343, R355); a tile that fails before its start tally has its count raised by it. -/
def State.othersFailed (s : State) (who : BitVec 8) (early : Bool) : State :=
  ((List.range s.n).filter (fun u => bit who u && u != s.t)).foldl
    (fun z u => z.writeTally 5 (fun k old => if early && k == u then failedUp old else old)) s

/-- The tiles of a start that go on when this one fails before step 5 ends: the first of them becomes the reader and records the failure (R340, R343). -/
def State.nextReads (s : State) (e : StartEnv) : Bool :=
  (List.range s.n).any (fun u => u != s.t && bit e.answering u && !bit e.failEarly u)

/-- The KIND 5 tallies at a reader whose start fails (R343, R355): its own, unless a reader that takes over writes it, and those of the tiles that fail beside it.
Any other tile sends its LIFE_EQ. `all` says that the reason fails the start of every tile. -/
def State.failTallies (s : State) (e : StartEnv) (step : Nat) (all up : Bool) : State :=
  if !s.isAnchor then s.sendLife
  else if !s.boot.usable || (!all && decide (step ≤ 5) && s.nextReads e) then s
  else
    let s1 := if 5 < step ∧ !up then s.othersFailed (e.answering &&& e.failEarly) true else s
    let s2 := s1.writeTally 5 (fun k old => if all && bit e.answering k && !up then failedUp old else old)
    if 5 < step then s2.othersFailed (e.answering &&& e.failLate &&& ~~~ e.failEarly) (!up) else s2

/-- A start fails (R342-R344): the count, the record, PD2 to PD29 off, the tallies at the reader, then a retry or Blank mode, in which the lowest-numbered tile
drives the store if every other is in Blank mode too. -/
def State.startFail (s : State) (e : StartEnv) (step reason : Nat) (all : Bool) : State :=
  let b := s.boot
  let f := if b.tallyUp then b.failed else failedUp b.failed
  let s1 := ({ s with boot := { b with failed := f, reason := reason, failStep := step, failedAt := s.ns, st := 3, tallyUp := false } }).log1 0x0103
    [w16 reason, w16 step]
  let s2 := s1.failTallies e step all b.tallyUp
  let s3 := { s2 with pd := { status := s2.pd.status &&& 3 }, pins := { s2.pins with stackResetN := false }, boot := { s2.boot with drives := false } }
  if f < (s3.reg 0x1100 4).toNat then s3
  else
    ({ s3 with boot := { s3.boot with st := 4, drives := s3.t == 0 && (List.range s3.n).all (fun u => u == s3.t || bit e.blankOthers u) },
               pins := { s3.pins with alertLow := true } }).log1 0x0104 [w16 reason, w16 f]

/-- A state within a start: on its way, or with the step and the reason of its failure. -/
inductive Going
  | on (s : State)
  | failed (s : State) (step reason : Nat)

/-- The next step of a start, where the last one did not fail. -/
def Going.andThen (g : Going) (f : State → Going) : Going := match g with
  | .on s => f s
  | .failed s k r => .failed s k r

/-- A step completed (R362 START_STEP). -/
def State.stepDone (s : State) (k : Nat) : State := { s with boot := { s.boot with step := k } }

/-! ### Steps 2 to 4 -/

/-- The reader of the store in this start (R340): the lowest-numbered tile that answers and does not fail before step 5 ends, where none serves
yet. -/
def State.isReader (s : State) (e : StartEnv) : Bool :=
  !e.othersServing && (List.range s.n).find? (fun u => (bit e.answering u && !bit e.failEarly u) || u == s.t) == some s.t

/-- Step 2: PD1 switches on; event 0x0101. -/
def State.start2 (s : State) (e : StartEnv) : Going :=
  let s1 := ({ s.coldTile with pd := { status := 3 } }).log1 0x0101 [w16 s.boot.cause, w16 s.boot.failed]
  if e.bandgapOk && e.witnessOk then .on (s1.stepDone 2) else .failed s1 2 4

/-- The tile that holds the anchor duties from step 3 on (R24, R340): the reader of the start, or the anchor that serves. -/
def State.startAnchor (s : State) (e : StartEnv) : Nat :=
  if e.othersServing then e.anchorTile.val
  else ((List.range s.n).find? (fun u => u == s.t || (bit e.answering u && !bit e.failEarly u))).getD s.t

/-- Step 3 (R59, R76, R85, R340): PD2 and PD29 switch on; the tile joins the ring, takes its ticks and the package view. The tile that holds the
anchor duties of the start keeps its own FRAME_NO, and every other takes it from the anchor. -/
def State.start3 (s : State) (e : StartEnv) : Going :=
  let s1 := { s with pd := { status := s.pd.status ||| BitVec.ofNat 30 (2 ^ 2 + 2 ^ 29) } }
  if !(e.lockstepOk && e.ringOk) then .failed s1 3 5
  else
    let view := maskOf ((List.range s1.n).filter (fun u => bit e.answering u || u == s1.t))
    let others := (List.range s1.n).filter (fun u => bit view u && u != s1.t)
    let hb := others.foldl (fun m u => SMap.set m u ({} : HbRec)) []
    let s2 := { s1 with
      anvil := { s1.anvil with aligned := true, lockstepOk := true, hb := hb,
                               frameNo := if !e.othersServing && others.all (fun u => decide (s1.t < u)) then s1.anvil.frameNo else e.anchorFrame },
      repair := { s1.repair with view := view, arc := 0xFF, anchor := s1.startAnchor e },
      budget := { s1.budget with share := 8192 / max (others.length + 1) 1 },
      boot := { s1.boot with drives := s1.isReader e } }
    .on (({ s2 with repair := { s2.repair with lives := e.lives.foldl (fun (m : SMap Nat) (x : Fin 8 × Nat) => SMap.set m x.1.val x.2) [] } }).stepDone 3)

/-- The map entries of other tiles as the retirements this tile knows (R313). -/
def othersRetired (t : Nat) (l : List MapEnt) : List (Nat × Nat × Nat × Nat) :=
  l.filterMap (fun x =>
    if x.tile = t then none else if x.kind = 5 then some (x.tile, 0, x.pc, x.bankLane) else if x.kind = 6 then some (x.tile, 1, x.pc, 0)
    else if x.kind = 7 then some (x.tile, 2, 0, 0) else none)

/-- The repair map and the lifetime counts that a start brings, the counts once a power cycle (R343, R361): `old` is the tile's FAILED_STARTS of the tally. What
LIFE_EQ had passed was logged before (R332). -/
def State.takeCounts (s : State) (map : List MapEnt) (old seconds cycles life : Nat) : State :=
  let b := s.boot
  let b1 := if b.addedTally then b
    else { b with addedTally := true, failed := min (b.failed + old) 15, seconds := BitVec.ofNat 32 seconds, cycles := BitVec.ofNat 32 (sat32 (cycles + 1)) }
  let r := { s.repair with map := map, others := othersRetired s.t map, life := if b.addedTally then s.repair.life else s.repair.life + 16000000000 * life,
                           life900 := s.repair.life900 || (!b.addedTally && decide (900 ≤ life / 788940)),
                           life1000 := s.repair.life1000 || (!b.addedTally && decide (1000 ≤ life / 788940)) }
  let s1 := { s with boot := b1, repair := r }
  if !b.addedTally && decide ((s1.reg 0x1100 4).toNat ≤ old) then s1.log1 0x0105 [2] else s1

/-- The ledger selected (R354): its map, its counts, and what LEDGER_STATE says. -/
def State.takeLedger (s : State) (reader : Bool) : State :=
  let body := s.selectBody
  let tal := s.newestTally
  let blankB := s.blank (bodyAt 0) 0x8000 && s.blank (bodyAt 1) 0x8000
  let blankT := s.blank (tallyArea 0) 0x8000 && s.blank (tallyArea 1) 0x8000
  let kind := s.tallyField 24 1
  let unclean := tal.isSome && kind != 4
  let s1 := if reader && body.isNone then s.log1 0x0108 [1, if blankB then 1 else 2] else s
  let s2 := if reader && tal.isNone then s1.log1 0x0108 [2, if blankT then 1 else 2] else s1
  let s3 := if reader && unclean then s2.log1 0x0205 [w16 kind] else s2
  let old := s.tallyField 20 4 / 16 ^ s.t % 16
  let ready := fun (c : Nat) => match s.newestIn c with
    | some p => s.norNat (tallyPage c p + 26) 2 % 128
    | none => 0
  let b := s3.boot
  let map := match body with
    | some c => s.bodyEntries c
    | none => []
  let b1 := { b with
    bodyA := s.bodyOk 0, bodyB := s.bodyOk 1, ledUnclean := unclean,
    ledBlank := (body.isNone && blankB) || (tal.isNone && blankT), ledCorrupt := (body.isNone && !blankB) || (tal.isNone && !blankT),
    ledSeq := match body with | some c => s.copySeq (bodyAt c) | none => 0,
    tallySeq := match tal with | some (c, p) => s.tallySeqAt c p | none => 0,
    readyA := ready 0, readyB := ready 1 }
  ({ s3 with boot := b1 }).takeCounts map old (s.tallyField 12 4) (s.tallyField 16 4) (s.tallyField (60 + 8 * s.t) 8)

/-- The reader sends every other tile of the start its map, FAILED_STARTS and lifetime counts (R339 step 4). -/
def State.sendLedgers (s : State) (e : StartEnv) : State :=
  ((List.range s.n).filter (fun u => bit e.answering u && u != s.t)).foldl
    (fun z u => z.ring (.ledger u s.repair.map (s.tallyField 20 4 / 16 ^ u % 16) [s.tallyField 12 4, s.tallyField 16 4, s.tallyField (60 + 8 * u) 8])) s

/-- Step 4 (R346, R354): the reader selects the ledger and sends each tile its part; any other tile takes what it is sent, or else what the same store holds. -/
def State.start4 (s : State) (e : StartEnv) : Going :=
  let reader := s.isReader e
  let item := e.sfdp.item
  let s1 := { s with boot := { s.boot with usable := item.isNone, clock := min e.sfdp.maxMHz 133, storeMiB := e.sfdp.mib } }
  let took := match (if reader then none else e.sent) with
    | some m => s1.takeCounts m.map m.failed m.seconds m.cycles m.life
    | none => if reader then (s1.takeLedger true).sendLedgers e else s1.takeLedger false
  match item with
  | some k => if e.othersServing then .on (took.stepDone 4) else .failed (if reader then s1.log1 0x0109 [Config.sfdpCode k] else s1) 4 3
  | none => .on (took.stepDone 4)

/-! ### Step 5 -/

/-- The speed grade of a start (R298): the highest that every stack declares and the GRADE_SELECT last written allows; 0 where none is. -/
def State.chooseGrade (s : State) (e : StartEnv) : Nat :=
  let sel := s.boot.gradeSel.toNat
  let common := if s.n = 1 then e.stack.grades else e.stack.grades &&& e.gradesOthers
  match e.gradeInForce with
  | some g => g
  | none => ([4, 3, 2, 1].find? (fun g => bit common g && (sel == 0 || decide (g ≤ sel)))).getD 0

/-- The stack as it declares itself, its grade and its capacity (R37, R40, R298). DESIGN CHOICE: stacks differ where their usable capacities do, and not
where only the declared s or r does (log entry 72). -/
def State.loadStack (s : State) (e : StartEnv) : State :=
  let d := e.stack
  let mine := usableCap d.ids d.rowBits
  let caps := mine :: (if s.n = 1 then [] else e.capsOthers.map (fun x => usableCap x.1 x.2))
  let c := minOf mine caps
  let rows := (List.range s.n).map (fun u => if u = s.t then d.rowBits else (nth e.capsOthers (if u < s.t then u else u - 1) (0, d.rowBits)).2)
  { s with phy := { s.phy with grade := s.chooseGrade e, declared := d.timing, ids := d.ids, rowBits := d.rowBits, rows := rows, cap := c,
                               clipped := decide (2 ^ 36 < d.ids * 2 ^ (20 + d.rowBits)), differ := caps.any (fun x => x != c) } }

/-- The stack can be used (R38, R169, R292, R298). -/
def State.stackUsable (s : State) (e : StartEnv) : Bool :=
  e.stack.answered && usableStack e.stack.ids e.stack.rowBits && decide (nsCycles s.phy.grade (s.declared 10) ≤ 2) && decide (2560 ≤ s.declared 11) &&
    s.phy.grade != 0 && bit e.stack.grades s.phy.grade

/-- A record of the image written (R339 step 5, R348). -/
def State.imageWrite (s : State) (r : ImgRec) : State :=
  (s.writeAccess none false (fun _ _ _ _ => none) (fun _ _ _ _ => none) r.idx r.sub r.ws).1

/-- The package commit of a start on the ring (R80, R339 step 5): the reader arms it and lets it go, and every other tile votes. -/
def State.startVotes (s : State) (e : StartEnv) : State :=
  if s.n ≤ 1 ∨ e.othersServing then s
  else if s.isReader e then (s.ring (.prepare s.anvil.frameNo (s.anvil.gen + 1) (s.digest true))).ring (.go s.anvil.frameNo)
  else s.ring (.vote s.t (s.digest true))

/-- The checks of the start commit (R80): a stack that is not usable fails its own step, and the checks that need its figures are not made. -/
def State.startChecks (s : State) (e : StartEnv) : State × Groups := (s.loadStack e).runChecks true ((s.loadStack e).stackUsable e)

/-- The start commit (R80, R339 step 5): none where a group is refused. P_WORST under the start's grade and timing is checked once (R174). -/
def State.startCommit (s : State) (e : StartEnv) : Option State :=
  let k := s.startChecks e
  if k.2.count ≠ 0 then none
  else
    let w := k.1.pWorst
    let z := ((k.1.startVotes e).applyStaged true k.2).commitDone k.1.anvil.frameNo 0 false
    some (if z.pWorst = w then z.checkPWorst 0 else z)

/-- Step 5 ends (R339): the records are written, the reader sends them on, and the start commit is applied. -/
def State.takeImage (s : State) (e : StartEnv) (l : List ImgRec) (reader : Bool) : Going :=
  let s1 := l.foldl (fun z r => z.imageWrite r) s
  let s2 := if reader then l.foldl (fun z r => z.ring (.imageRecord (wkey r.idx r.sub) r.ws)) s1 else s1
  let s3 := s2.setAsm none none
  match s3.startCommit e with
  | none => .failed (s3.startChecks e).1 5 2
  | some z => .on (z.stepDone 5)

/-- Step 5 of a tile that does not read the store (R339, R345): the image is what it is sent; none fails the start with reason 1, a refused record with
reason 2. -/
def State.sentImage (s : State) (e : StartEnv) (m : StoreSent) : Going :=
  match m.image with
  | none => .failed s 5 1
  | some i =>
    let s1 := { s with boot := { s.boot with copy := i.copy.val + 1, imgSeq := i.seq, imgLen := i.len, aOk := s.boot.aOk || i.copy.val == 0, bOk := s.boot.bOk || i.copy.val == 1 } }
    if i.records.any ImgRec.refused then .failed s1 5 2 else s1.takeImage e i.records false

/-- Step 5 from the store (R348, R349). -/
def State.readImage (s : State) (e : StartEnv) : Going :=
  let reader := s.isReader e
  let sel := s.selectImage
  let s1 := if reader then sel.1.foldl (fun z x => z.log1 0x0106 [w16 (x.1 + 1), w16 x.2]) s else s
  let ok := fun (c : Nat) => s.copyCause (imageAt c) magicImage 1048320 true == 0
  let rej := match sel.1.getLast? with
    | some x => x.2
    | none => 0
  let s2 := { s1 with boot := { s1.boot with aOk := ok 0, bOk := ok 1, rej := rej, copy := 0, imgSeq := 0, imgLen := 0 } }
  match sel.2 with
  | none => .failed s2 5 1
  | some c =>
    let seq := s.copySeq (imageAt c)
    let s3 := { s2 with boot := { s2.boot with copy := c + 1, imgSeq := seq, imgLen := s.norNat (imageAt c + 12) 4 } }
    let s4 := if reader then s3.log1 0x0107 (w16 (c + 1) :: two seq.toNat) else s3
    match s4.imageRecords (imageAt c) with
    | none => .failed ({ (if reader then s4.log1 0x0106 [w16 (c + 1), 5] else s4) with boot := { s4.boot with rej := 5 } }) 5 2
    | some l => s4.takeImage e l reader

/-- Step 5 (R339, R345, R348, R349). -/
def State.start5 (s : State) (e : StartEnv) : Going :=
  match (if s.isReader e then none else e.sent) with
  | some m => s.sentImage e m
  | none => s.readImage e

/-! ### Steps 6 to 8 -/

/-- The start tally (R343, R355): every starting tile's count is raised; those of tiles whose start has failed by now were raised before. -/
def State.startTally (s : State) (e : StartEnv) : State :=
  let b := s.boot
  let reads := s.isReader e && b.usable
  let s0 := if reads then s.othersFailed (e.answering &&& e.failEarly) true else s
  let s1 := { s0 with boot := { s0.boot with before := b.failed, failed := failedUp b.failed, tallyUp := true } }
  if reads then s1.writeTally 1 (fun k old => if bit e.answering k && !bit e.failEarly k then failedUp old else old) else if s.isReader e then s1 else s1.sendLife

/-- Step 6 (R29, R31, R284): the domains that PD_ENABLE requests; multipliers, Assay, the start tally. The PHY groups stay off while the tile is
quenched (R32). -/
def State.start6 (s : State) (e : StartEnv) : Going :=
  let want : BitVec 30 := (s.pdWant.setWidth 30) ||| 3
  let phy := if s.quench.on then phyDomains else 0
  let v := s.pdWant.toNat
  let s0 := (s.setReg 0x1201 1 (wordAt v 0)).setReg 0x1201 2 (wordAt v 1)
  let s1 := { s0 with pd := { status := (s.pd.status ||| want) &&& (want ||| 7) &&& ~~~ phy },
                      phy := { s0.phy with pll0 := e.pllOk, pll1 := e.pllOk } }
  if !e.pllOk then .failed s1 6 6
  else
    .on (((s1.startAssay e.assay e.tileAssay []).startTally e).stepDone 6)

/-- The entries of this tile in the repair map. -/
def State.ownMap (s : State) : List MapEnt := s.repair.map.filter (fun x => x.tile == s.t)

/-- The repair lanes and rows that the stack declares, before the map takes its share (R310, R311). -/
def State.freshPcs (s : State) (e : StartEnv) : State :=
  let rows : SMap Nat := if e.stack.rowSpares = 0 then [] else (List.range (s.banks / 4)).map (fun k => (k, e.stack.rowSpares))
  allPcs.foldl (fun z c => z.setPc c { z.pc c with spLeft := e.stack.laneSpares, rowSp := rows }) { s with pcs := [] }

/-- One entry of the map applied to the stack (R330). -/
def State.applyEntry (s : State) (x : MapEnt) : State :=
  let q := s.pc x.pc
  if x.kind = 1 then
    (channelPcs x.pc).foldl (fun z c => z.setPc c { z.pc c with spUsed := (z.pc c).spUsed + 1, spLeft := (z.pc c).spLeft - 1 }) s
  else if x.kind = 2 then
    let n := (markedLanes q.marks).length
    let w := if n = 0 then w16 (0x4000 + x.bankLane) else if n = 1 then q.marks ||| w16 (0x8000 + 64 * x.bankLane) else q.marks
    s.setPc x.pc { q with marks := w }
  else if x.kind = 3 ∨ x.kind = 4 then
    let sp := SMap.put 0 q.rowSp (x.bankLane / 4) (q.rowSp.getD (x.bankLane / 4) 0 - 1)
    s.setPc x.pc (if x.kind = 3 then { q with rowSp := sp, rowsSoft := min (q.rowsSoft + 1) 255 } else { q with rowSp := sp, rowsHard := min (q.rowsHard + 1) 255 })
  else if x.kind = 5 then s.setPc x.pc { q with rbanks := insNat q.rbanks x.bankLane }
  else if x.kind = 6 then s.setPc x.pc { q with retired := true, train := 3 }
  else if x.kind = 7 then { s with repair := { s.repair with stackRetired := true } }
  else s

/-- The repair map applied (R330), empty for this tile where REPAIR_CMD code 0xE cleared it (R334); PHY groups without a pseudo-channel in service
switch off. -/
def State.applyMap (s : State) (e : StartEnv) : State :=
  let s0 := if s.repair.clearDue then
      { s with repair := { s.repair with map := s.repair.map.filter (fun x => x.tile != s.t), clearDue := false, mapDue := true } } else s
  let s1 := s0.ownMap.foldl (fun z x => z.applyEntry x) (s0.freshPcs e)
  let lost := maskOf ((s1.repair.map.filter (fun x => x.kind == 7)).map (fun x => x.tile))
  let off : BitVec 30 := (List.range 16).foldl (fun a g => if (groupPcs g).all (fun c => (s1.pc c).retired) then setBit a (13 + g) true else a) 0
  { s1 with seam := { s1.seam with lost := lost }, pd := { s1.pd with status := s1.pd.status &&& ~~~ off } }

/-- Step 7 (R37-R40, R169, R292, R298, R330, R399): the stack leaves reset and is read; what the repair map keeps retired enters self-refresh (R317). -/
def State.start7 (s : State) (e : StartEnv) : Going :=
  let d := e.stack
  let s1 := { s with pins := { s.pins with stackResetN := true } }
  if !d.answered then .failed s1 7 7
  else if !usableStack d.ids d.rowBits then .failed (s1.log1 0x0C02 [w16 d.ids, w16 d.rowBits]) 7 7
  else if s1.phy.grade = 0 ∨ !bit d.grades s1.phy.grade then .failed (s1.log1 0x0C05 [w16 s1.phy.grade, (d.grades &&& 0x1E).setWidth 16]) 7 7
  else if 2 < nsCycles s1.phy.grade (s1.declared 10) then .failed (s1.log1 0x0703 []) 7 7
  else if s1.declared 11 < 2560 then .failed (s1.log1 0x0C04 [sat16 (s1.declared 11)]) 7 7
  else
    let s2 := if s1.phy.clipped then s1.log1 0x0C01 [w16 d.ids, w16 d.rowBits] else s1
    let above := maskOf ((if s2.phy.cap < usableCap d.ids d.rowBits then [s2.t] else []) ++
      (((List.range s2.n).filter (fun u => u != s2.t)).zip e.capsOthers).filterMap
        (fun x => if s2.phy.cap < usableCap x.2.1 x.2.2 then some x.1 else none))
    let s3 := if s2.phy.differ then s2.log1 0x0C03 [above.setWidth 16, w16 (s2.phy.cap / mib256)] else s2
    let s4 := s3.applyMap e
    let s5 := if s4.repair.stackRetired then s4.selfRefresh else (allPcs.filter (fun c => (s4.pc c).retired)).foldl (fun z c => z.srPc c) s4
    .on (s5.stepDone 7)

/-- A soft repair made hard (R331): event 0x0E13; a row's entry becomes that of a hard row. -/
def State.harden (s : State) (x : MapEnt) : State :=
  let q := s.pc x.pc
  let row := if x.kind = 3 then x.d % 2 ^ s.phy.rowBits else 0
  let s1 := if x.kind = 3 then
      let z := s.setPc x.pc { q with rowsSoft := q.rowsSoft - 1, rowsHard := min (q.rowsHard + 1) 255 }
      { z with repair := { z.repair with map := z.repair.map.map (fun y => if y = x then { y with kind := 4 } else y), mapDue := true } }
    else s
  s1.log1 0x0E13 [Config.formCode (x.kind == 1), Config.unitCode ⟨x.pc, if x.kind = 3 then x.bankLane else 0, row, if x.kind = 1 then x.bankLane else 0⟩]

/-- Step 8 (R331): up to 4 repairs, oldest first, of those the stack still holds in the soft form, the newest `hardDue` of the map. -/
def State.start8 (s : State) (e : StartEnv) : Going :=
  let soft := s.ownMap.filter (fun x => x.kind == 1 || x.kind == 3)
  let due := (soft.drop (soft.length - e.hardDue)).take 4
  .on ((due.foldl (fun z x => z.harden x) s).stepDone 8)

/-! ### Steps 9 to 11 -/

/-- A stack fault is due (R304, R305). -/
def State.stackDue (s : State) : Bool := s.repair.due.any (fun a => match a with
  | .stack _ => true
  | .bank _ _ => false | .pc _ _ => false | .fence _ => false | .foster _ => false | .restart _ => false | .split _ => false)

/-- Step 9 (R288): Anneal, with its lane check; what it cannot train is handed to repair. -/
def State.start9 (s : State) (e : StartEnv) : Going :=
  let one := fun (z : State) (c : Nat) =>
    if z.stackDue ∨ (z.pc c).retired then z
    else
      let y := z.pcFault ⟨c, 0, 0, 0⟩ .calibration
      if y.stackDue then y else y.runDue
  let s1 := (e.annealFails.filter (fun c => decide (c < 64))).foldl one s
  if s1.stackDue then .failed { s1 with repair := { s1.repair with due := [] } } 9 8
  else
    let s2 := { s1 with phy := { s1.phy with trained := true },
                        pcs := s1.pcs.mapVals (fun _ q => if q.retired then q else { q with train := 0, planAt := s1.ns }) }
    .on ((s2.laneCheck e.eyes).stepDone 9)

/-- Step 10 (R57, R255): the store is initialised, and every pair of a powered half is tested. -/
def State.start10 (s : State) (e : StartEnv) : Going :=
  let s1 := s.zeroStore
  let s2 := { s1 with store := { s1.store with ready := true, initing := false, selfRef := false }, cipher := { s1.cipher with fenced := 0, miss := [], noneLogged := false } }
  let bad := e.pairFails.filter (fun p => decide (p < 48) && (if p < 24 then s2.dom 8 else s2.dom 9))
  .on ((bad.foldl (fun z p => z.fencePair p (some 1)) s2).stepDone 10)

/-- A tile that starts while others serve rejoins as a fenced tile does (R323, R345): its ordinary part is poison, its Seam rows are to be taken back,
and it waits for the commit in which it votes. Tiles that do not answer are fostered. -/
def State.rejoinWait (s : State) : State :=
  let s1 := s.poisonBelow s.map.ord
  let away := s1.repair.view &&& ~~~ (maskOf [s1.t])
  let out := maskOf ((List.range s1.n).filter (fun u => !bit away u))
  { s1 with seam := { s1.seam with resyncing := s1.map.seam != 0, taking := if s1.map.seam = 0 ∨ s1.repair.stackRetired then [] else [s1.t], lost := s1.seam.lost ||| out },
            repair := { s1.repair with rejoin := true, view := away, fostered := s1.repair.fostered ||| out } }

/-- Step 11 (R24, R95, R278, R339-R341): service at the next tick, with the values that Assay left pending in force. The anchor duties pass to the first tile of the succession whose start succeeded. -/
def State.start11 (s : State) (e : StartEnv) : Going :=
  if 2500 < e.ms10 then .failed s 11 9
  else
    let s1 := s.toTime (s.boot.began + 100000 * e.ms10)
    let s2 := { s1 with
      clk := { s1.clk with now := ceilDiv s1.clk.now 1024 * 1024 },
      dict := s1.dict.setPhase 1,
      hk := s1.coeffTick.hk,
      boot := { s1.boot with st := 2, failed := 0, tallyUp := false, ms10 := min e.ms10 0xFFFF },
      seam := { s1.seam with intervalDue := false, interval := s1.pickleInterval, stepBase := s1.anvil.frameNo },
      pcs := s1.pcs.mapVals (fun _ q => { q with pkStep := 0 }) }
    let s2 := if e.othersServing then s2.rejoinWait else s2
    let s2 := if s2.isReader e && s2.boot.usable then s2.othersFailed (e.answering &&& e.failLate &&& ~~~ e.failEarly) false else s2
    let won := fun (u : Nat) => u == s2.t || !bit (e.failEarly ||| e.failLate) u
    let s3 := ({ s2 with repair := { s2.repair with anchor := if e.othersServing then e.anchorTile.val else (s2.succession.find? won).getD s2.t } }).leaveSelfRefresh
    let s4 := if s3.isAnchor && s3.boot.usable && !e.othersServing then s3.writeTally 2 (fun k old => if bit e.answering k && won k then 0 else old) else if s3.isAnchor then s3 else s3.sendLife
    let s5 := { s4 with boot := { s4.boot with drives := s4.isAnchor } }
    let s6 := s5.log1 0x0102 [w16 s5.boot.ms10]
    .on ((s6.initPorts).stepDone 11)

/-- A start from step 2 to its end (R339, R342). -/
def State.start (s : State) (e : StartEnv) : State :=
  let g := (((((((((s.start2 e).andThen (fun z => z.start3 e)).andThen (fun z => z.start4 e)).andThen (fun z => z.start5 e)).andThen
    (fun z => z.start6 e)).andThen (fun z => z.start7 e)).andThen (fun z => z.start8 e)).andThen (fun z => z.start9 e)).andThen
    (fun z => z.start10 e)).andThen (fun z => z.start11 e)
  match g with
  | .on z => z
  | .failed z k r => z.startFail e k r (decide (1 ≤ r) && decide (r ≤ 3))

/-! ### Shutdown -/

/-- The domains PD12 to PD28. -/
def phyAll : BitVec 30 := BitVec.ofNat 30 (0x1FFFF * 2 ^ 12)

/-- The shutdown tally owed by the anchor is given to the store in a ready page (R355, R356, R358 step 4), in another one where it is tried `again`. With no
page ready none is written. -/
def State.owedTally (s : State) (again : Bool) : State :=
  let c := s.tallyCopy
  let p := if again then s.pageFrom c ((s.nextPage c + 1) % 128) else s.nextPage c
  if !s.boot.tallyDue ∨ p = s.readyEnd c % 128 then s
  else
    let a := tallyPage c p
    ({ s with boot := { s.boot with prog := some (a, s.tallyBytes 4 (s.failedList (fun _ old => old)) (s.readyEnd c)) } }).emit (.store 1 a)

/-- Steps 1 to 4 of a shutdown (R357, R358): cause 1 ZG_PWRFAIL_N, 2 START_CMD. An erase under way is suspended and never resumed. -/
def State.shutdown (s : State) (cause : Nat) : State :=
  let b := s.boot
  let s0 := { s with dict := s.dict.setPhase 4,
                     boot := { b with st := 5, shut := 4, shutCause := cause, shutAt := s.ns, retried := false,
                                      failed := if b.tallyUp then b.before else b.failed, tallyUp := false } }
  let s1 := s0.log1 0x0202 [w16 cause]
  let s2 := (if s1.store.ready && s1.pins.stackResetN then s1.selfRefresh else s1).emptySlots
  let s3 := { s2 with pd := { s2.pd with status := s2.pd.status &&& ~~~ phyAll, rising := s2.pd.rising &&& ~~~ phyAll } }
  let s4 := if s3.isAnchor then s3 else s3.sendLife
  let erasing := s4.boot.hmErasing
  let s5 := { s4.cutStore with boot := { s4.cutStore.boot with suspended := erasing, tallyDue := s4.boot.tallyDue || (s4.isAnchor && s4.boot.usable && s4.repair.fenced.isNone) } }
  s5.owedTally false

/-- Step 5 of a shutdown (R358, R359, R398): event 0x0203; then what waited for it: a reset, with the start of
its release where that has come, or the start that a supply's return calls for. -/
def State.shutDone (s : State) : State :=
  let s1 := ({ s with boot := { s.boot with st := 6, shut := 5, prog := none, tallyDue := false },
                      pins := { s.pins with alertLow := false } }).log1 0x0203 [sat16 ((s.ns - s.boot.shutAt) / 100000)]
  if s1.boot.resetDue then
    let s2 := s1.resetTile
    if s1.pins.resetN then ({ s2 with pins := { s2.pins with resetN := true } }).beginStart 1 else s2
  else if s1.boot.shutCause = 3 then (s1.log1 0x0204 [4]).beginStart 4
  else s1

/-- The tally of a shutdown that succeeded (R355, R356). -/
def State.tallyDone (s : State) : State :=
  match s.boot.prog with
  | none => s
  | some (a, bs) => { s.program a bs with boot := { s.boot with prog := none, tallySeq := s.boot.tallySeq + 1, tallyAt := s.ns, tallyDue := false } }

end Sys2Proof.Machine
end

