-- ==== Sys2Proof/Machine/HmOps.lean ====
section
/-!
DEFINITION. Writing an image through the anchor or the Blank reader (R344, R350, R351), and START_CMD (R345, R357).
-/
namespace Sys2Proof.Machine
open Sys2Proof

/-- This tile writes images: the serving anchor, unless it is fenced, or the Blank tile that drives the store (R344, R351, R398). -/
def State.hmMay (s : State) : Bool := s.boot.usable && ((s.boot.st == 2 && s.isAnchor && s.repair.fenced.isNone) || (s.boot.st == 4 && s.boot.drives))

/-- A write or command that R351 ignores: event 0x010C. -/
def State.hmRefuse (s : State) (i x v : Nat) : State := s.log1 0x010C ([w16 i, w16 x] ++ four v)

/-- Validity of an image copy as this tile knows it (R362 IMAGE_STATE). -/
def State.setCopyOk (s : State) (c : Nat) (ok : Bool) : State :=
  { s with boot := if c = 0 then { s.boot with aOk := ok } else { s.boot with bOk := ok } }

/-- The copy that HM_CMD 1 opens: an invalid one if there is one, else the one not in use (R351): 0 A, 1 B. -/
def State.hmPick (s : State) : Nat := if !s.boot.aOk then 0 else if !s.boot.bOk then 1 else if s.boot.copy = 1 then 1 else 0

/-- A write of the image fails (R351): event 0x010B, and the copy stays invalid. -/
def State.hmFail (s : State) (a : Nat) : State :=
  ({ s with boot := { s.boot with hmErasing := false, prog := none, hmOpen := false, hmReady := false, hmClosing := false } }).log1 0x010B
    (Config.regionCode s.hmTarget :: two a)

/-- A page of the image is given to the store: only one that reads erased is programmed (R350); at any other the write fails (log entry 73). -/
def State.hmProgram (s : State) (a : Nat) (bs : List Byte) : State :=
  if s.blank a 256 then ({ s with boot := { s.boot with hmReady := false, prog := some (a, bs) } }).emit (.store 1 a) else s.hmFail a

/-- HM_CMD 1 (R351 step 1). -/
def State.hmOpenCmd (s : State) : State × Nat :=
  if !s.hmMay || s.boot.hmOpen || s.boot.hmErasing then (s.hmRefuse 0x1110 1 1, 6)
  else
    let c := s.hmPick
    let s1 := s.setCopyOk c false
    (({ s1 with boot := { s1.boot with hmOpen := true, hmReady := false, hmErasing := true, hmClosing := false, hmDone := false, hmCopy := c + 1,
                                       hmPages := 0, hmPage := [] } }).emit (.store 0 (imageAt c)), 0)

/-- A word of HM_PAGE (R351 step 2); that of subindex 0x80 programs the page, and the first page of a sector erases it before (R350). -/
def State.hmPageWord (s : State) (x v : Nat) : State × Nat :=
  let b := s.boot
  if !s.hmMay || !b.hmOpen || !b.hmReady || decide (4095 ≤ b.hmPages) then (s.hmRefuse 0x1111 x v, 6)
  else
    let page := SMap.put 0 b.hmPage (x - 1) (w16 v)
    if x < 0x80 then ({ s with boot := { b with hmPage := page } }, 0)
    else
      let a := imageAt s.hmTarget + 256 * (b.hmPages + 1)
      let bs := (List.range 128).flatMap (fun k => wordBytes (page.getD k 0))
      let s1 := if a % 4096 = 0 then (s.erase a 4096).emit (.store 0 a) else s
      (({ s1 with boot := { b with hmPage := [] } }).hmProgram a bs, 0)

/-- HM_CMD 2 (R351 step 3): the Hallmark is programmed last. -/
def State.hmCloseCmd (s : State) : State × Nat :=
  let b := s.boot
  let len := s.regs 0x1110 3 2
  if !s.hmMay || !b.hmOpen || !b.hmReady || ceilDiv len 256 != b.hmPages then (s.hmRefuse 0x1110 1 2, 6)
  else
    let a := imageAt s.hmTarget
    let head := headBytes magicImage (b.imgSeq + 1).toNat len
    let bs := head ++ bytesOf 4 (crc32c (head ++ s.norBytes (a + 256) len)).toNat
    (({ s with boot := { b with hmClosing := true } }).hmProgram a bs, 0)

/-- HM_CMD 3 (R351 step 4): ignored while a close is under way (log entry 34). -/
def State.hmAbandonCmd (s : State) : State × Nat :=
  if !s.hmMay || !s.boot.hmOpen || s.boot.hmClosing then (s.hmRefuse 0x1110 1 3, 6)
  else ({ s with boot := { s.boot with hmOpen := false, hmReady := false } }, 0)

/-- An erase completes (R351): the copy is ready for its first page, or the write failed with event 0x010B. -/
def State.hmErased (s : State) (ok : Bool) : State :=
  if !s.boot.hmErasing then s
  else
    let a := imageAt s.hmTarget
    if ok then
      let s1 := s.erase a 4096
      { s1 with boot := { s1.boot with hmErasing := false, hmReady := s1.boot.hmOpen } }
    else
      (s.halfErase a 4096).hmFail a

/-- A page program of an image completes (R351). -/
def State.hmProgrammed (s : State) (ok : Bool) : State :=
  match s.boot.prog with
  | none => s
  | some (a, bs) =>
    let c := s.hmTarget
    if !ok then
      (s.halfProgram a bs).hmFail a
    else
      let s1 := s.program a bs
      let b := { s1.boot with prog := none }
      if b.hmClosing then
        ((({ s1 with boot := { b with hmOpen := false, hmClosing := false, hmDone := true } }).setCopyOk c true).log1 0x010A
          (Config.regionCode c :: two (b.imgSeq + 1).toNat))
      else { s1 with boot := { b with hmPages := b.hmPages + 1, hmReady := b.hmOpen } }

/-- START_CMD 1 (R338, R345): a Blank tile joins the ring and looks for an image; a start under way and a shutdown are not disturbed
(log entry 35). -/
def State.restartCmd (s : State) : State :=
  if s.boot.st = 4 then { s with boot := { s.boot with blank := true } }
  else if s.boot.st = 2 ∨ s.boot.st = 3 then s.beginStart 3
  else s

/-- A Blank tile that was told to start leaves Blank mode if it finds an image, the serving anchor's or one in the store; else it stays, with reason 1
and its count (R345). It starts from step 3: the references of step 2 are not tested again. -/
def State.leaveBlank (s : State) (e : StartEnv) : State :=
  if (match (if e.othersServing then e.sent else none) with | some m => m.image.isNone | none => s.selectImage.2.isNone) then { s with boot := { s.boot with blank := false, reason := 1 } }
  else ((({ s with boot := { s.boot with failed := 0 } }).log1 0x0105 [1]).beginStart 3).start { e with bandgapOk := true, witnessOk := true }

/-- The part of a shutdown that runs in Blank mode and in a shut-down state (R359). -/
def State.shutBare (s : State) : State :=
  let s1 := { s with boot := { s.boot with shutCause := 1, shutAt := s.ns } }
  if s.boot.tallyDue then ({ s1 with boot := { s1.boot with st := 5, shut := 4, retried := false } }).owedTally false
  else s1.shutDone

/-- START_CMD 2 (R357, R359): every tile takes part. -/
def State.shutdownCmd (s : State) : State :=
  if s.boot.st = 5 ∨ s.boot.st = 6 ∨ s.boot.st = 0 then s
  else if s.boot.st = 4 then s.shutBare
  else s.shutdown 2

end Sys2Proof.Machine
end

