-- ==== Sys2Proof/Machine/Boot.lean ====
section
/-!
DEFINITION. The commands of power, reset, start, shutdown and the store that are no register writes (R338-R361, R398-R402).
-/
namespace Sys2Proof.Machine
open Sys2Proof

/-- POWER_ON (R338): the state after reset, but for the commands waiting, the record of outputs, the package, the store and the pins' levels. -/
def execPowerOn (s : State) : Host.Outcome State Fault Refusal :=
  .next (
    let z : State := State.reset
    { z with pending := s.pending, freeCount := s.freeCount, out := s.out, ident := s.ident, nor := s.nor,
             pins := { resetN := s.pins.resetN, pwrfailN := s.pins.pwrfailN } })

/-- POWER_LOSS (R359, R398): every domain stops; work of the store is cut short. -/
def execPowerLoss (s : State) : Host.Outcome State Fault Refusal :=
  .next (
    let s1 := s.cutStore
    let z : State := State.reset
    { z with pending := s1.pending, freeCount := s1.freeCount, out := s1.out, ident := s1.ident, nor := s1.nor,
             pd := { status := 0 }, pins := { resetN := s1.pins.resetN, pwrfailN := s1.pins.pwrfailN } })

/-- A low pulse takes effect (R400): one of 1 µs does, one under 100 ns does not, one between may (log entry 2). -/
def State.pulse (s : State) (lowNs : Nat) (f : State → State) : State :=
  if lowNs < 100 then s
  else if 1000 ≤ lowNs then f s
  else if Config.freeBit s.freeCount then f s.draw
  else s.draw

/-- RESET_ASSERT (R359, R400, R401): during a shutdown it takes effect after step 5, though it be released before; a tile without power has nothing to reset. -/
def execResetAssert (lowNs : Nat) (s : State) : Host.Outcome State Fault Refusal :=
  .next (s.pulse lowNs (fun z =>
    if z.boot.st = 5 then { z with pins := { z.pins with resetN := false }, boot := { z.boot with resetDue := true } }
    else if !z.dom 0 then { z with pins := { z.pins with resetN := false } }
    else z.resetTile))

/-- RESET_RELEASE (R338, R339): a start begins; it does not pass step 1 until ZG_PWRFAIL_N is high (R402). -/
def execResetRelease (s : State) : Host.Outcome State Fault Refusal :=
  .next (
    let s1 := { s with pins := { s.pins with resetN := true } }
    if s.boot.st = 0 ∧ s.dom 0 then s1.beginStart 1 else s1)

/-- PWRFAIL_FALL (R357-R359, R400, R402). -/
def execPwrfailFall (lowNs : Nat) (s : State) : Host.Outcome State Fault Refusal :=
  .next (s.pulse lowNs (fun y =>
    let z := { y with pins := { y.pins with pwrfailN := false } }
    if z.boot.st = 0 ∨ z.boot.st = 5 then z
    else if z.boot.st = 4 ∨ z.boot.st = 6 then z.shutBare
    else z.shutdown 1))

/-- PWRFAIL_RISE (R359): during a shutdown it brings a start once step 5 ends. -/
def execPwrfailRise (s : State) : Host.Outcome State Fault Refusal :=
  .next (
    let s1 := { s with pins := { s.pins with pwrfailN := true } }
    if s.boot.st = 5 ∧ !s.pins.pwrfailN then { s1 with boot := { s1.boot with shutCause := 3 } }
    else if s.boot.st = 1 ∧ s.boot.step = 0 then s1.stepDone 1
    else s1)

/-- START (R339, R345): steps 1 to 11, with the pins of step 1 high, of a start that has begun, or of a Blank tile told to start; while the tile is quenched it waits until the conditions of R296 hold (R297; log
entry 56). -/
def execStart (e : StartEnv) (s : State) : Host.Outcome State Fault Refusal :=
  .next (if s.pins.resetN ∧ s.pins.pwrfailN ∧ !s.quench.on then
      (if s.boot.st = 1 then s.start e else if s.boot.st = 4 ∧ s.boot.blank then s.leaveBlank e else s)
    else s)

/-- START_RETRY (R343): 100 ms after a failed start. -/
def execStartRetry (s : State) : Host.Outcome State Fault Refusal :=
  .next (if s.boot.st = 3 then (s.toTime (s.boot.failedAt + 100000000)).beginStart 2 else s)

/-- What a start that runs out of time knows of other tiles: nothing. -/
def noOthers : StartEnv := {
  bandgapOk := true, witnessOk := true, lockstepOk := true, ringOk := true, answering := 0, othersServing := false, anchorFrame := 0, sfdp := {}, pllOk := true,
  stack := { answered := false, ids := 0, rowBits := 0, timing := [], grades := 0, laneSpares := 0, rowSpares := 0 }
  capsOthers := [], gradesOthers := 0, annealFails := [], hardDue := 0, pairFails := [], gradeInForce := none, ms10 := 0 }

/-- START_TIMEOUT (R341): START_LIMIT of 250 ms has passed; the failing step is the first not completed. -/
def execStartTimeout (s : State) : Host.Outcome State Fault Refusal :=
  .next (if s.boot.st = 1 then
      let s1 := s.toTime (s.boot.began + 250000000)
      ({ s1 with pd := { s1.pd with status := s1.pd.status ||| 3 } }).startFail noOthers (s1.boot.step + 1) 9 false
    else s)

/-- TALLY_HOURLY (R355, R398): every 3600 s of the anchor's powered time the anchor, unless it is fenced, writes a tally; any other tile sends its LIFE_EQ. -/
def execTallyHourly (s : State) : Host.Outcome State Fault Refusal :=
  .next (
    if s.boot.st ≠ 2 then s
    else if !s.isAnchor then s.sendLife
    else if s.boot.usable && s.repair.fenced.isNone then (s.toTime (s.boot.tallyAt + 3600000000000)).writeTally 3 (fun _ old => old)
    else s)

/-- HM_ERASE_DONE (R350, R351). -/
def execHmEraseDone (ok : Bool) (s : State) : Host.Outcome State Fault Refusal := .next (s.hmErased ok)

/-- PAGE_PROGRAM_DONE (R351, R358): of an image, or of the shutdown tally, whose first failure is tried once more in another page. In a tile that
programs none it is the end of step 4 (log entry 33). -/
def execPageProgramDone (ok : Bool) (s : State) : Host.Outcome State Fault Refusal :=
  .next (
    if s.boot.st = 5 then
      match s.boot.prog with
      | none => s.shutDone
      | some (a, bs) =>
        if ok then s.tallyDone.shutDone
        else
          let s1 := s.halfProgram a bs
          let s2 := ({ s1 with boot := { s1.boot with prog := none, retried := true } }).log1 0x010B (Config.regionCode (2 + s.tallyCopy) :: two a)
          if s.boot.retried then s2.shutDone else s2.owedTally true
    else s.hmProgrammed ok)

/-- REPAIR_MAP_WRITE (R330): the anchor writes the map; another tile's entries are then written, but across a split they wait for the heal. -/
def execRepairMapWrite (s : State) : Host.Outcome State Fault Refusal :=
  .next (
    if !s.repair.mapDue then s
    else if s.isAnchor then (if s.boot.usable && s.repair.fenced.isNone then s.writeMap else s)
    else if s.across s.repair.anchor then s
    else { s with repair := { s.repair with mapDue := false } })

end Sys2Proof.Machine
end

