-- ==== Sys2Proof/Machine/KeyOps.lean ====
section
/-!
DEFINITION. Key slots (R260-R265): the assembly buffers of the two access paths, loads, erases and the key check value.
-/
namespace Sys2Proof.Machine
open Sys2Proof

/-- A path's assembly buffer cleared (R263). -/
def State.clearBuffer (s : State) (h : Path) : State := s.setPath h { s.path h with keySlot := none, keyWords := [] }

/-- A KEY word placed in the buffer of its path, retagged first where it held another slot (R263). -/
def State.keyWord (s : State) (h : Path) (k w : Nat) (v : Word) : State :=
  let b := s.path h
  let ws := if b.keySlot = some k then b.keyWords else []
  s.setPath h { b with keySlot := some k, keyWords := SMap.set ws w v, keyFrame := s.frame }

/-- Key words a kind needs (R262). -/
def kindWords (kind : Nat) : Nat := if kind = 2 then 32 else 16

/-- The key a buffer holds, low word first (R262). -/
def bufferKey (ws : SMap Word) (kind : Nat) : Nat := ofWords ((List.range (kindWords kind)).map (fun j => ws.getD j 0))

/-- The reason a load is refused, in the order of R263; 0 for none. -/
def State.loadReason (s : State) (h : Path) (k kind : Nat) : Nat :=
  let b := s.path h
  let n := kindWords kind
  let half := fun (from_ : Nat) => (List.range (n / 2)).map (fun j => b.keyWords.getD (from_ + j) 0)
  if b.keySlot ≠ some k then 1
  else if (List.range n).any (fun j => (SMap.look b.keyWords j).isNone) then 2
  else if (kind = 1 ∨ kind = 2) ∧ half 0 = half (n / 2) then 3
  else if (s.slot k).st = 2 ∨ (s.slot k).st = 3 then 4
  else 0

/-- A load command (R263): refused with event 0x0B05, or pending until it applies (R264). The buffer is cleared either way. -/
def State.slotLoad (s : State) (h : Path) (k kind : Nat) : State :=
  let why := s.loadReason h k kind
  let s1 := if why ≠ 0 then s.log1 0x0B05 [w16 k, Config.pathCode h, w16 why]
    else s.setSlot k { s.slot k with st := 2, newKind := kind, newKey := BitVec.ofNat 512 (bufferKey (s.path h).keyWords kind), applied := false }
  s1.clearBuffer h

/-- An erase command: pending until it applies (R264). DESIGN CHOICE: an erase takes the place of a load that is pending on the slot, of which nothing is logged
(log entry 72). -/
def State.slotErase (s : State) (k : Nat) : State := s.setSlot k { s.slot k with st := 3, applied := false }

/-- ERASE_ALL: every slot as by SLOT_CMD (R265). -/
def State.eraseSlots (s : State) : State :=
  { s with cipher := { s.cipher with slots := (List.range 1024).map (fun k => (k, { s.slot k with st := 3, applied := false })) } }

/-- A pending load or erase applies once its slot has no open cipher request (R264); event 0x0B09 at an erase. -/
def State.slotApply (s : State) (k : Nat) : State :=
  let q := s.slot k
  if s.slotOpen k ≠ 0 then s
  else if q.st = 3 then
    (({ s with cipher := { s.cipher with badSlots := s.cipher.badSlots.filter (fun x => x ≠ k) } }).setSlot k {}).log1 0x0B09
      [w16 k, w16 q.kind]
  else if q.st = 2 ∧ !q.applied then
    ({ s with cipher := { s.cipher with badSlots := s.cipher.badSlots.filter (fun x => x ≠ k) } }).setSlot k
      { q with kind := q.newKind, key := q.newKey, kcv := 0, newKey := 0, applied := true }
  else s

/-- The key check value (R264): AES under Key1 or the kind-3 key of a block of zeros, bytes 0 to 2. -/
def Slot.checkValue (q : Slot) : BitVec 24 := keyCheck q.key1

/-- A load is complete (R264): the slot reads loaded, event 0x0B09. A slot whose parity fails as its check value is computed reads state 4 (R260). -/
def State.slotDone (s : State) (k : Nat) : State :=
  let q := s.slot k
  if q.st = 2 ∧ q.applied then
    if s.cipher.badSlots.contains k then s.slotBad k
    else (s.setSlot k { q with st := 1, newKind := 0, applied := false, kcv := q.checkValue }).log1 0x0B09 [w16 k, w16 q.kind]
  else s

end Sys2Proof.Machine
end

