-- ==== Sys2Proof/Machine/Cipher.lean ====
section
/-!
DEFINITION. The commands of the cipher lanes (R250-R264) that are no register writes.
-/
namespace Sys2Proof.Machine
open Sys2Proof

/-- CIPHER_ADMIT (R250). -/
def execCipherAdmit (p : Port) (s : State) : Host.Outcome State Fault Refusal :=
  .next (if s.portsUp && (s.port p).flush.isNone then s.admitFirst p else s)

/-- The segment an entry computes on a pair, and the pair (R251). -/
def CEnt.running (e : CEnt) : Option (Seg × Nat) :=
  if e.failed.isSome then none
  else match e.nextSeg with
    | some g => g.pair.map (fun p => (g, p))
    | none => none

/-- SEGMENT_COMPARE (R253, R254): the segment that a queue entry computes finishes on its pair, equal on both lanes or not; waiting segments take the
pairs that are free before and after. A slot whose parity fails on this use is treated as empty (R260). -/
def execSegmentCompare (e : Fin 256) (differ : Bool) (s : State) : Host.Outcome State Fault Refusal :=
  .next (
    let s0 := s.assignPairs
    match SMap.look s0.cipher.ents e with
    | none => s0
    | some x =>
      match x.running with
      | none => s0
      | some (g, pair) =>
        (if s0.cipher.badSlots.contains x.slot then ((s0.slotBad x.slot).log1 0x0B01 x.words).failStream e 5
         else if differ then s0.missSeg e x g pair else s0.passSeg e g).assignPairs)

/-- STREAM_TIMEOUT (R257): a stream without a request for STREAM_TIMEOUT frames closes; one not marked failed is aborted first,
with event 0x0B0B. -/
def execStreamTimeout (p : Port) (stream : BitVec 4) (s : State) : Host.Outcome State Fault Refusal :=
  .next (match s.stream p stream.toNat with
    | none => s
    | some (k, e) =>
      if s.frame < e.lastFrame.toNat + (s.reg 0x6400 6).toNat then s
      else if e.failed.isSome then s.closeStream k
      else (((s.count 0x6402 0x15).log1 0x0B0B e.words).failStream k 6).closeStream k)

/-- SLOT_CMD_APPLY (R264). -/
def execSlotCmdApply (k : Fin 1024) (s : State) : Host.Outcome State Fault Refusal := .next (s.slotApply k)

/-- KCV_DONE (R264). -/
def execKcvDone (k : Fin 1024) (s : State) : Host.Outcome State Fault Refusal := .next (s.slotDone k)

/-- KEY_BUFFER_TIMEOUT (R263): a buffer with no KEY write for 65,536 frames is cleared. -/
def execKeyBufferTimeout (h : Path) (s : State) : Host.Outcome State Fault Refusal :=
  .next (if (s.path h).keySlot.isSome ∧ (s.path h).keyFrame + 65536 ≤ s.frame then s.clearBuffer h else s)

end Sys2Proof.Machine
end

