-- ==== Sys2Proof/Machine/Coherence.lean ====
section
/-!
DEFINITION. The commands of coherence: requests at their home (R16, R136, R225), snoops and their answers (R210, R215, R226), dead agents
(R232, R233), lost homes, split and heal (R234-R238), and the caching agents themselves (R211, R212, R227, R228).
-/
namespace Sys2Proof.Machine
open Sys2Proof

/-- HOME_REQUEST_ARRIVE (R136, R225). -/
def execHomeRequestArrive (r : HReq) (s : State) : Host.Outcome State Fault Refusal := .next (s.homeArrive r)

/-- Snoops presented to an agent and not answered yet (R209, R210). -/
def State.unanswered (s : State) (a : Nat) : Nat := s.snoops.countP (fun x => x.s.agent == a && x.shown.isSome)

/-- A response for a line is still on its way to an agent, or waits in the response FIFO of its port (R217): the home answered request `after` before
it sent the snoop. -/
def State.answerHeld (s : State) (p : Nat) (line : Nat) (after : Option Nat) : Bool :=
  (s.port p).fifo.any (fun b => b.1.cresp != .none && b.2 / 64 * 64 == line) || (s.port p).onward.any (fun o => !o.dropped && after == some o.txid)

/-- A message of another home comes to a ring stop (R210), which holds one of each of a home's 256 transactions. -/
def State.snoopArrive (s : State) (m : SnoopMsg) : State :=
  if m.home = s.t ∨ s.n ≤ m.home ∨ 256 ≤ m.txn ∨ s.snoops.any (fun x => x.s.home == m.home && x.s.txn == m.txn) then s
  else s.holdSnoops m

/-- SNOOP_PRESENT (R210, R217): messages of other homes that have come to the ring stop join what waits there, and the agent's next snoop is presented
while fewer than 16 are unanswered. -/
def execSnoopPresent (w : SnoopTurn) (s0 : State) : Host.Outcome State Fault Refusal :=
  .next (
    let s := w.arrived.foldl State.snoopArrive s0
    let g := 6 * s.t + w.agent
    match s.snoops.find? (fun x => x.s.agent == g && x.shown.isNone) with
    | none => s
    | some x =>
      if 16 ≤ s.unanswered g || s.answerHeld (20 + w.agent) x.s.line x.after then s
      else
        match takeFirst (fun (y : SnoopSt) => y.s.agent == g && y.shown.isNone) s.snoops with
        | some (y, rest) =>
          let older := rest.filter (fun z => z.shown.isSome)
          let newer := rest.filter (fun z => z.shown.isNone)
          ({ s with snoops := older ++ [{ y with shown := some s.clk.now }] ++ newer }).emit (.snoop y.s)
        | none => s)

/-- RPL_GONE (R216, R226). -/
def execRplGone (a : Fin 48) (n : SnpName) (s : State) : Host.Outcome State Fault Refusal :=
  .next (s.agentReply a n .gone .i false 0 false).releaseHeld

/-- RPL_KEPT (R216, R226). -/
def execRplKept (a : Fin 48) (n : SnpName) (s : State) : Host.Outcome State Fault Refusal :=
  .next (s.agentReply a n .kept .s false 0 false).releaseHeld

/-- RPL_FWD (R216, R223, R226): NEWSTATE is I, S or O. -/
def execRplFwd (a : Fin 48) (n : SnpName) (keep : CState) (dirty : Bool) (data : Line) (s : State) : Host.Outcome State Fault Refusal :=
  .next (s.agentReply a n .fwd keep dirty data false).releaseHeld

/-- RESP_ZERO_ANSWER (R216, R226): logged as a violation and taken as RplGone. -/
def execRespZeroAnswer (a : Fin 48) (n : SnpName) (s : State) : Host.Outcome State Fault Refusal :=
  .next (s.agentReply a n .gone .i false 0 true).releaseHeld

/-- HOME_STACK_READ_DONE (R226). -/
def execHomeStackReadDone (txn : BitVec 8) (d : PLine) (s : State) : Host.Outcome State Fault Refusal := .next (s.homeRead txn.toNat d).releaseHeld

/-- HOME_WRITEBACK_DONE (R226). -/
def execHomeWritebackDone (txn : BitVec 8) (s : State) : Host.Outcome State Fault Refusal := .next (s.homeWritten txn.toNat).releaseHeld

/-- SNOOP_TIMEOUT (R210, R232): an agent with a snoop unanswered for SNOOP_LIMIT frames of its presentation is dead, and its port is
flushed. -/
def execSnoopTimeout (a : Fin 6) (s : State) : Host.Outcome State Fault Refusal :=
  .next (
    let g := 6 * s.t + a
    let limit := (s.reg 0x5000 2).toNat * 1024
    let late := s.snoops.any (fun x => x.s.agent == g && (match x.shown with | some c => decide (c + limit ≤ s.clk.now) | none => false))
    let p : Port := Fin.ofNat 32 (20 + a)
    if !late then s
    else if (s.port p).flush.isSome then s.killAgent p .snoopLimit
    else s.flushWith p Config.flushCause false .snoopLimit)

/-- RESERVATION_EXPIRE (R230): the oldest reservation of a line in HReserved for RESERVE_LIMIT frames ends. -/
def execReservationExpire (line : Nat) (s : State) : Host.Outcome State Fault Refusal :=
  .next (match s.oldest line with
    | none => s
    | some v =>
      match v.since with
      | none => s
      | some f =>
        if s.lineBusy line || decide (s.frame < f.toNat + (s.reg 0x5000 3).toNat) then s
        else
          ((s.dropResv (fun x => x.line == line && x.agent == v.agent)).logLim 0x0A04 v.agent 8192 1
            (fun _ => [w16 v.agent] ++ three line)).afterFree line)

/-- DEAD_AGENT_NOTICE (R233). -/
def execDeadAgentNotice (a : Fin 48) (c : DeadCause) (s : State) : Host.Outcome State Fault Refusal := .next (s.deadAgent a c)

/-- RECLAIM_WALK_DONE (R233). -/
def execReclaimWalkDone (a : Fin 48) (s : State) : Host.Outcome State Fault Refusal := .next (s.reclaimDone a)

/-- LOST_HOME_RECALL_DONE (R234): the walk over the lines homed at the lost stack of a two-tile Seam has come to its end. -/
def execLostHomeRecallDone (s : State) : Host.Outcome State Fault Refusal :=
  .next (match s.ha.lostRecall with
    | none => s
    | some u =>
      let n := s.map.seam / 128
      if !s.lostRecalled then s else ({ s with ha := { s.ha with lostRecall := none } }).log1 0x0A0A [w16 u, sat16 n])

/-- SPLIT_CLASSIFY_DONE (R235). -/
def execSplitClassifyDone (s : State) : Host.Outcome State Fault Refusal := .next s.classifyDone

/-- HOLD_EXPIRE (R237). -/
def execHoldExpire (s : State) : Host.Outcome State Fault Refusal := .next s.holdExpire

/-- HEAL_RESOLVE_DONE (R238). -/
def execHealResolveDone (s : State) : Host.Outcome State Fault Refusal := .next s.healDone

/-- LOST_LINE_NOTICE (R236). -/
def execLostLineNotice (line : Nat) (req : Fin 48) (s : State) : Host.Outcome State Fault Refusal :=
  .next (s.lostNotice (line / 64 * 64) req)

/-! ### Caching agents -/

/-- A cached line of an agent of this tile (R211). -/
def State.agentLine (s : State) (a line : Nat) : ALine := s.agents.getD (agentKey a line) {}
/-- A cached line changed. -/
def State.setAgent (s : State) (a line : Nat) (v : ALine) : State := { s with agents := s.agents.put {} (agentKey a line) v }
/-- What an agent sends on its port (R212, R213): RAGE counts the Retry answers that the request it resends has received (R228). -/
def State.agentSend (s : State) (a : Nat) (op : Op) (line : Nat) (dirty : Bool) (d : Line) : State :=
  let l := s.agentLine a line
  let s1 := s.setAgent a line { l with rage := if l.back = (op == .wrBack) then l.rage else 0, back := op == .wrBack }
  s1.emit (.agentReq (6 * s.t + a) op (line / 64 * 64) dirty ((s1.agentLine a line).rage) d)

/-- AGENT_LOAD (R212). -/
def execAgentLoad (a : Fin 6) (line : Nat) (unique : Bool) (s : State) : Host.Outcome State Fault Refusal :=
  let l := s.agentLine a line
  match l.st with
  | .i =>
    if unique then .next ((s.setAgent a line { l with st := .imAd }).agentSend a .rdUnique line false 0)
    else .next ((s.setAgent a line { l with st := .isD }).agentSend a .rdShared line false 0)
  | .s => .next s
  | .e => .next s
  | .o => .next s
  | .m => .next s
  | .isD => .fault .agentActionUnlisted
  | .imAd => .fault .agentActionUnlisted
  | .smA => .fault .agentActionUnlisted
  | .omA => .fault .agentActionUnlisted
  | .miA => .fault .agentActionUnlisted
  | .oiA => .fault .agentActionUnlisted
  | .eiA => .fault .agentActionUnlisted
  | .iiA => .fault .agentActionUnlisted

/-- AGENT_STORE (R212). -/
def execAgentStore (a : Fin 6) (line : Nat) (d : Line) (s : State) : Host.Outcome State Fault Refusal :=
  let l := s.agentLine a line
  match l.st with
  | .i => .next ((s.setAgent a line { l with st := .imAd }).agentSend a .rdUnique line false 0)
  | .s => .next ((s.setAgent a line { l with st := .smA }).agentSend a .upgrade line false 0)
  | .o => .next ((s.setAgent a line { l with st := .omA }).agentSend a .upgrade line false 0)
  | .e => .next (s.setAgent a line { st := .m, data := d })
  | .m => .next (s.setAgent a line { st := .m, data := d })
  | .isD => .fault .agentActionUnlisted
  | .imAd => .fault .agentActionUnlisted
  | .smA => .fault .agentActionUnlisted
  | .omA => .fault .agentActionUnlisted
  | .miA => .fault .agentActionUnlisted
  | .oiA => .fault .agentActionUnlisted
  | .eiA => .fault .agentActionUnlisted
  | .iiA => .fault .agentActionUnlisted

/-- AGENT_EVICTION (R212): from E silently, or with a WR_BACK where the agent tells. -/
def execAgentEviction (a : Fin 6) (line : Nat) (tell : Bool) (s : State) : Host.Outcome State Fault Refusal :=
  let l := s.agentLine a line
  match l.st with
  | .i => .next s
  | .s => .next (s.setAgent a line {})
  | .e =>
    if tell then .next ((s.setAgent a line { l with st := .eiA }).agentSend a .wrBack line false l.data)
    else .next (s.setAgent a line {})
  | .o => .next ((s.setAgent a line { l with st := .oiA }).agentSend a .wrBack line true l.data)
  | .m => .next ((s.setAgent a line { l with st := .miA }).agentSend a .wrBack line true l.data)
  | .isD => .fault .agentActionUnlisted
  | .imAd => .fault .agentActionUnlisted
  | .smA => .fault .agentActionUnlisted
  | .omA => .fault .agentActionUnlisted
  | .miA => .fault .agentActionUnlisted
  | .oiA => .fault .agentActionUnlisted
  | .eiA => .fault .agentActionUnlisted
  | .iiA => .fault .agentActionUnlisted

/-- The answer of a state to a snoop: the answer, whether dirty, and the state after (R227). -/
def snoopTable (st : CState) (ty : SnpType) (fwd : Bool) : SnpAns × Bool × CState :=
  match st, ty with
  | .i, _ => (.gone, false, .i)
  | .s, .down => if fwd then (.fwd, false, .s) else (.kept, false, .s)
  | .s, .give => if fwd then (.fwd, false, .i) else (.gone, false, .i)
  | .s, .drop => (.gone, false, .i)
  | .e, .down => (.fwd, false, .s)
  | .e, .give => (.fwd, false, .i)
  | .e, .drop => (.gone, false, .i)
  | .o, .down => (.fwd, true, .o)
  | .o, .give => (.fwd, true, .i)
  | .o, .drop => (.fwd, true, .i)
  | .m, .down => (.fwd, true, .o)
  | .m, .give => (.fwd, true, .i)
  | .m, .drop => (.fwd, true, .i)
  | .isD, _ => (.gone, false, .isD)
  | .imAd, _ => (.gone, false, .imAd)
  | .smA, .down => if fwd then (.fwd, false, .smA) else (.kept, false, .smA)
  | .smA, .give => if fwd then (.fwd, false, .imAd) else (.gone, false, .imAd)
  | .smA, .drop => (.gone, false, .imAd)
  | .omA, .down => (.fwd, true, .omA)
  | .omA, .give => (.fwd, true, .imAd)
  | .omA, .drop => (.fwd, true, .imAd)
  | .miA, .down => (.fwd, true, .oiA)
  | .miA, .give => (.fwd, true, .iiA)
  | .miA, .drop => (.fwd, true, .iiA)
  | .oiA, .down => (.fwd, true, .oiA)
  | .oiA, .give => (.fwd, true, .iiA)
  | .oiA, .drop => (.fwd, true, .iiA)
  | .eiA, .down => (.fwd, false, .iiA)
  | .eiA, .give => (.fwd, false, .iiA)
  | .eiA, .drop => (.gone, false, .iiA)
  | .iiA, _ => (.gone, false, .iiA)

/-- NEWSTATE of an answer (R216, R227): I on a forward that leads to I, II_A or IM_AD; S on a clean one from E and S; O otherwise. -/
def newState (st : CState) (ans : SnpAns) (dirty : Bool) (after : CState) : CState :=
  if ans ≠ .fwd then .i
  else if after = .i ∨ after = .iiA ∨ after = .imAd then .i
  else if !dirty && (st == .e || st == .s || st == .smA) then .s
  else .o

/-- A line after its state changes: a copy given up leaves no data, but the Retry count of the request that may be sent again stands (R228). -/
def ALine.enter (l : ALine) (st : CState) : ALine :=
  if st = .i then { rage := l.rage, back := l.back } else { l with st := st }

/-- What a response leaves of the Retry count (R213, R228): one more after a Retry, saturating at 7; none after any other. -/
def ALine.answered (l : ALine) (c : Cresp) : ALine :=
  if c = .retry then { l with rage := min (l.rage + 1) 7 } else { l with rage := 0, back := false }

/-- AGENT_SNOOP (R216, R227): the agent answers its oldest presented snoop, which its answer names by HOME and TXN, and takes its new state. -/
def execAgentSnoop (a : Fin 6) (s : State) : Host.Outcome State Fault Refusal :=
  .next (
    let g := 6 * s.t + a
    match s.snoops.find? (fun x => x.s.agent == g && x.shown.isSome && !x.done) with
    | none => s
    | some x =>
      let l := s.agentLine a x.s.line
      let r := snoopTable l.st x.s.ty x.s.fwd
      let s1 := { s with snoops := s.snoops.map (fun y => if y = x then { y with done := true } else y) }
      (s1.setAgent a x.s.line (l.enter r.2.2)).emit
        (.agentAns g x.s.home x.s.txn r.1 (newState l.st r.1 r.2.1 r.2.2) r.2.1 (if r.1 = .fwd then l.data else 0)))

/-- The state after a response; none where it is not sent (R228). CRESP 0 is a refusal. -/
def responseTable (st : CState) (c : Cresp) : Option CState :=
  match st, c with
  | .isD, .dataS => some .s
  | .isD, .dataO => some .s
  | .isD, .dataE => some .e
  | .isD, .retry => some .i
  | .isD, .poison => some .i
  | .isD, .partition => some .i
  | .isD, .none => some .i
  | .imAd, .dataE => some .e
  | .imAd, .dataM => some .m
  | .imAd, .retry => some .i
  | .imAd, .poison => some .i
  | .imAd, .partition => some .i
  | .imAd, .none => some .i
  | .smA, .ack => some .m
  | .smA, .retry => some .s
  | .smA, .poison => some .i
  | .smA, .partition => some .s
  | .smA, .none => some .s
  | .omA, .ack => some .m
  | .omA, .retry => some .o
  | .omA, .poison => some .i
  | .omA, .partition => some .o
  | .omA, .none => some .o
  | .miA, .ack => some .i
  | .miA, .retry => some .m
  | .miA, .partition => some .m
  | .miA, .none => some .m
  | .oiA, .ack => some .i
  | .oiA, .retry => some .o
  | .oiA, .partition => some .o
  | .oiA, .none => some .o
  | .eiA, .ack => some .i
  | .eiA, .retry => some .i
  | .eiA, .partition => some .i
  | .eiA, .none => some .i
  | .iiA, .ack => some .i
  | .iiA, .retry => some .i
  | .iiA, .partition => some .i
  | .iiA, .none => some .i
  | _, _ => none

/-- AGENT_RESPONSE (R228): data responses bring the line, and a Retry counts. -/
def execAgentResponse (a : Fin 6) (line : Nat) (c : Cresp) (d : Line) (s : State) : Host.Outcome State Fault Refusal :=
  let l := s.agentLine a line
  match responseTable l.st c with
  | none => .fault .responseNotSent
  | some st => .next (s.setAgent a line (((if crespData c then { l with data := d } else l).answered c).enter st))

end Sys2Proof.Machine
end

