-- ==== Sys2Proof/Machine/Commit.lean ====
section
/-!
DEFINITION. The commands of the commit strobe that are no register writes (R80, R81), the end of the store's initialisation (R57) and of a domain's
power-up (R31).
-/
namespace Sys2Proof.Machine
open Sys2Proof

/-- COMMIT_PREPARE (R80 step 3). -/
def execCommitPrepare (f : BitVec 64) (gen digest : BitVec 32) (s : State) : Host.Outcome State Fault Refusal :=
  .next (if s.repair.fenced.isSome then s else s.prepare f gen digest)

/-- COMMIT_VOTE (R80 step 4): the vote of a tile reaches the anchor; that of a tile outside the view is awaited by none, and lets it rejoin (R323). -/
def execCommitVote (u : TileNo) (digest : BitVec 32) (s : State) : Host.Outcome State Fault Refusal :=
  .next (if s.isAnchor && s.commit.armed == 2 && decide (u.val < s.n) && !s.across u.val then
      { s with commit := { s.commit with votes := SMap.set s.commit.votes u.val digest } }
    else s)

/-- COMMIT_DECIDE (R80 step 4). -/
def execCommitDecide (s : State) : Host.Outcome State Fault Refusal := .next s.decideCommit

/-- COMMIT_GO (R80 step 5): a GO reaches a prepared tile. -/
def execCommitGo (s : State) : Host.Outcome State Fault Refusal :=
  .next (if s.commit.prepared && s.commit.go.isNone then { s with commit := { s.commit with go := some s.anvil.frameNo, decided := true } } else s)

/-- COMMIT_ABORT (R80 step 6). -/
def execCommitAbort (missing differing : BitVec 8) (s : State) : Host.Outcome State Fault Refusal :=
  .next (if s.commit.prepared && s.commit.go.isNone then s.abortCommit missing differing else s)

/-- COMMIT_APPLY (R80 step 6, R81): at tick F a prepared tile with its GO applies the package commit, at a later tick if its GO came later; else an
armed tile commit applies. -/
def execCommitApply (s : State) : Host.Outcome State Fault Refusal :=
  .next (
    let c := s.commit
    if s.commitDue then s.applyPackage
    else if c.armed = 1 ∧ c.f.toNat ≤ s.frame then s.applyTile
    else s)

/-- MAP_INIT_DONE (R57): every line below C is initialised, and requests go on. -/
def execMapInitDone (s : State) : Host.Outcome State Fault Refusal :=
  .next { s with store := { s.store with initing := false } }

/-- COMMIT_HOLD_TIMEOUT (R81): neither GO nor ABORT for 64 frames. -/
def execCommitHoldTimeout (s : State) : Host.Outcome State Fault Refusal :=
  .next (match s.commit.holdSince with
    | none => s
    | some f => if s.frame < f.toNat + 64 then s else s.tileFault .commitHold)

/-- What waited for a domain goes on (R16, R31): requests at their home, and with PD11 the Seam engine's work. -/
def State.domainUp (s : State) (d : Nat) : State :=
  if d = 11 then allPcs.foldl (fun z c => z.seamPump c) (s.releaseHeld).releaseUpdates else s.releaseHeld

/-- DOMAIN_POWERED (R31): a domain that was switched on is usable, and requests that waited for it go on. -/
def execDomainPowered (d : Fin 30) (s : State) : Host.Outcome State Fault Refusal :=
  .next (if bit s.pd.rising d.val then
      ({ s with pd := { s.pd with status := setBit s.pd.status d.val true, rising := setBit s.pd.rising d.val false } }).domainUp d.val
    else s)

end Sys2Proof.Machine
end

