-- ==== Sys2Proof/Machine/Frame.lean ====
section
/-!
DEFINITION. The commands of Anvil but for the commit (R58-R77, R82, R83).
-/
namespace Sys2Proof.Machine
open Sys2Proof

/-- FRAME_TICK (R58); the restart of this tile, where it is fenced and REPAIR_CMD code 7 named it, begins at it (R323, R334). -/
def execFrameTick (s : State) : Host.Outcome State Fault Refusal :=
  .next (if s.repair.fenced.isSome && s.repair.due.contains (.restart s.t) then (s.tick).beginStart 3 else s.tick)

/-- SLOT_START (R58). -/
def execSlotStart (s : State) : Host.Outcome State Fault Refusal := .next s.slotStart

/-- REFRESH_DEBT_ACCRUE (R71). -/
def execRefreshDebtAccrue (pc bank : Pc) (s : State) : Host.Outcome State Fault Refusal := .next (s.accrue pc bank)

/-- FORCED_REFRESH (R73). -/
def execForcedRefresh (pc : Pc) (s : State) : Host.Outcome State Fault Refusal := .next (s.forcedRefresh pc)

/-- PER_BANK_REFRESH (R72). -/
def execPerBankRefresh (pc : Pc) (s : State) : Host.Outcome State Fault Refusal := .next (s.perBank pc)

/-- ALL_BANK_REFRESH (R72). -/
def execAllBankRefresh (pc : Pc) (s : State) : Host.Outcome State Fault Refusal := .next (s.allBank pc)

/-- LOCKSTEP_MISMATCH (R82): outputs suppressed, self-refresh, a fence notice, event 0x0301, and the fence. -/
def execLockstepMismatch (s : State) : Host.Outcome State Fault Refusal :=
  .next (
    if !s.dom 2 || !s.anvil.lockstepOk then s
    else
      let s1 := ({ s with anvil := { s.anvil with lockstepOk := false } }).log1 0x0301 (two s.frame ++ [w16 s.cyc])
      ((s1.selfRefresh).ring (.fence s.t)).tileFault .lockstep)

/-- The offset measured on the anchor's heartbeat (R77): two frames in a row beyond ±2 cycles are a clock fault. -/
def State.measureTick (s : State) (o : Int) : State :=
  let a := s.anvil
  let far := decide (2 < o) || decide (o < -2)
  let s1 := { s with anvil := { a with tickOff := o, offBad := far } }
  if far && a.offBad then
    (({ s1 with anvil := { s1.anvil with aligned := false } }).log1 0x0306 [ofI16 a.tickOff, ofI16 o]).tileFault .clock
  else s1

/-- HEARTBEAT_RECEIVE (R24, R77, R83): the first heartbeat of tile u in the frame, by either arc. A tile that names itself holds the anchor duties, for a tile that
does not hold them. -/
def execHeartbeatReceive (hb : Heartbeat) (s : State) : Host.Outcome State Fault Refusal :=
  .next (
    let u := hb.tile.val
    if s.n ≤ u ∨ u = s.t ∨ bit s.anvil.hbNow u then s
    else
      let s1 := { s with anvil := { s.anvil with hbNow := setBit s.anvil.hbNow u true,
                                                 hb := SMap.set s.anvil.hb u { missed := 0, gen := hb.gen, st := hb.st, got := true } },
                            repair := match hb.life with | some v => { s.repair with lives := SMap.set s.repair.lives u v } | none => s.repair }
      let s1 := if hb.anchor = hb.tile ∧ hb.st ≠ .fenced ∧ !s.across u ∧ (s.repair.fenced.isSome ∨ !s.isAnchor) then s1.setAnchor u else s1
      if u = s1.repair.anchor ∧ s.repair.fenced.isNone then s1.measureTick hb.offset else s1)

/-- HEARTBEAT_LOSS (R83, R326): the fourth frame in a row passes without a heartbeat of tile u; it is fostered at the following tick, unless link
notices show a break on each arc between them. -/
def execHeartbeatLoss (u : TileNo) (s : State) : Host.Outcome State Fault Refusal :=
  .next (match SMap.look s.anvil.hb u.val with
    | none => s
    | some h =>
      if h.missed < 3 ∨ bit s.anvil.hbNow u.val ∨ !bit s.repair.view u.val ∨ (s.cutFrom u.val ∧ !s.lone u.val) ∨
          s.repair.due.contains (.foster u.val) then s
      else s.dueAct (.foster u.val))

end Sys2Proof.Machine
end

