-- ==== Sys2Proof/Machine/Flags.lean ====
section
/-!
DEFINITION. The status words of the dictionary: every bit is a level that follows the state (R375), computed here from the fields that hold its cause
(R30, R53, R84, R113, R123, R133, R148, R176, R178, R205, R207, R239, R240, R265, R266, R299, R300, R302, R333, R335, R362, R389, R393).
-/
namespace Sys2Proof.Machine
open Sys2Proof

/-! ### Package, start and paths -/

/-- This tile's arc of the ring (R325, R333): every tile of the package while no split stands. -/
def State.myArc (s : State) : BitVec 8 := s.repair.arc &&& maskOf (List.range s.n)

/-- PKG_VIEW [1004:01] (R393). -/
def State.pkgView (s : State) : Nat := (s.repair.view &&& s.myArc).toNat

/-- PKG_SERVING [1004:02] (R393): the tiles whose last heartbeat reported serving, this tile's own among them. -/
def State.pkgServing (s : State) : Nat := (maskOf ((List.range s.n).filter (fun u => s.lastHb u == some .serving)) &&& s.myArc).toNat

/-- IMAGE_STATE [1101:01] (R362). -/
def State.imageState (s : State) : Nat :=
  s.boot.copy * 16384 + b2n s.boot.aOk * 8192 + b2n s.boot.bOk * 4096 + s.boot.rej % 16

/-- LEDGER_STATE [1102:01] (R362). -/
def State.ledgerState (s : State) : Nat :=
  bitsWord [s.boot.bodyA, s.boot.bodyB, s.boot.ledBlank, s.boot.ledCorrupt, s.boot.ledUnclean, s.boot.tallyDue]

/-- This tile drives the Hallmark store (R25, R340, R344, R398): the reader in a start or in Blank mode, the anchor in service and in a shutdown. -/
def State.drivesStore (s : State) : Bool :=
  if s.boot.st = 1 ∨ s.boot.st = 4 then s.boot.drives else (s.boot.st == 2 || s.boot.st == 5) && s.isAnchor && s.repair.fenced.isNone

/-- STORE_STATE [1103:01] (R362). -/
def State.storeState (s : State) : Nat :=
  bitsWord [s.boot.usable, s.boot.hmErasing || s.boot.prog.isSome, s.boot.suspended, s.drivesStore] +
    256 * (if s.boot.storeMiB = 0 then 0 else Nat.log2 s.boot.storeMiB)

/-- HM_STATE [1110:02] (R362). -/
def State.hmState (s : State) : Nat :=
  bitsWord [s.boot.hmOpen, s.boot.hmReady, s.boot.hmErasing, s.boot.hmDone] + 16384 * s.boot.hmCopy

/-- LOCK_STATE [1400:02] (R389). -/
def State.lockState (s : State) : Nat := bitsWord [s.armed .win, s.armed .bus, s.locked .win, s.locked .bus]

/-- STAGE_STATUS [1501:01] (R385). -/
def State.stageStatus (s : State) : Nat :=
  bitsWord [s.dict.staged.any (fun e => s.reg (e.1 / 256) (e.1 % 256) != e.2), s.commit.prepared]

/-! ### Anvil and the ports -/

/-- ANVIL_STATUS [2100:04] (R84): bit 3 looks back one round of ROUND_LEN frames. DESIGN CHOICE: bit 4 reads 1 at a tile that is only
prepared too, where COMMIT reads 0 (log entry 72). -/
def State.anvilStatus (s : State) : Nat :=
  let late := match s.anvil.forcedAt with
    | some f => decide (s.frame < f + (s.reg 0x2100 1).toNat)
    | none => false
  bitsWord [s.anvil.lockstepOk, s.anvil.aligned, decide (s.refreshCap < s.refreshNow), late, s.commit.armed != 0 || s.commit.prepared]

/-- FIFO_LEVEL [31pp:01] (R113). -/
def PortSt.fifoLevel (q : PortSt) : Nat := min q.respLevel 255 * 256 + min q.wrLevel 255

/-- CREDIT_STATE [31pp:02] (R113). -/
def PortSt.creditState (q : PortSt) : Nat := q.epoch.toNat * 16384 + q.reqCred % 128 * 128 + q.wrCred % 64 * 2

/-- PORT_STATUS [31pp:03] (R113); an initialisation is pending while a word is owed: an enable's that waits, or that of a flush with no disable
(log entry 24). -/
def PortSt.status (q : PortSt) : Nat :=
  bitsWord [q.xoff, q.panic, q.flush.isSome, q.initDue || (q.flush.isSome && !q.flushOff), !q.resets.isEmpty || q.queue.any (fun r => r.op == .masterReset), !q.mbox.isEmpty]

/-- MBOX_COUNT [31pp:04] (R113). -/
def PortSt.mboxCount (q : PortSt) : Nat := q.lost * 256 + q.mbox.length

/-- OVER_MAP word x (R133). -/
def State.overMapWord (s : State) (x : Nat) : Nat := bitsWord ((List.range 16).map (fun j => s.budget.overMap.contains (16 * (x - 1) + j)))

/-! ### Queues, scheduler and line code -/

/-- Q_STATUS [36qq:07] (R148). -/
def State.queueStatus (s : State) (q : Nat) : Nat :=
  bitsWord [decide (0 < s.depth q), s.sched.parts.any (fun p => p.queue == q && p.rel.isNone && !s.bucketOk p), (s.q q).due,
    decide ((s.q q).level < 0)]

/-- SCHED_STATUS [4000:07] (R176). DESIGN CHOICE: bit 0 follows the word SCHED_MODE at once, not the tick at which it applies (log entry 72). -/
def State.schedStatus (s : State) : Nat :=
  bitsWord [s.reg 0x4000 1 == 1, s.pcs.any (fun e => e.2.fall == 2), !s.phy.ovr.isEmpty, !s.phy.ovrDue.isEmpty, s.phy.pWorstHigh]

/-- PC_STATE [41cc:01] (R178). -/
def State.pcState (s : State) (c : Nat) : Nat :=
  let q := s.pc c
  q.cause % 16 + b2n ((s.pcParts c).any (fun p => p.cls == .p)) * 512 + q.fall % 4 * 1024 + b2n q.drain * 4096 +
    b2n q.down.isSome * 8192 + b2n (s.pcStopped c) * 16384 + b2n q.retired * 32768

/-- INORDER word x of a pseudo-channel (R178): its banks in in-order mode (R163). -/
def State.inOrderWord (s : State) (c x : Nat) : Nat :=
  bitsWord ((List.range 16).map (fun j => inOrder ((s.pcParts c).filter (fun p => p.bank == 16 * (x - 3) + j))))

/-- PICKLE_STATUS [4800:06] (R190, R205): behind means a debt of 16 or more. -/
def State.pickleStatus (s : State) : Nat :=
  bitsWord [s.seam.passOn, s.pcs.any (fun e => decide (16 ≤ e.2.pkDebt)), !bit (s.reg 0x4800 2) 15]

/-- SEAM_STATE [4900:01] (R207, R315). -/
def State.seamState (s : State) : Nat :=
  if s.map.seam = 0 then 0
  else if s.seam.readOnly then 4
  else if s.seam.resyncing then 5
  else if s.rebuilding then 2
  else if s.seam.lost ≠ 0 || s.seam.unprotected || s.pcs.any (fun e => e.2.retired || !e.2.rbanks.isEmpty) then 3
  else 1

/-- RESYNC_ROWS [4900:04] (R207). -/
def State.resyncRows (s : State) : Nat := if s.seam.resyncAll then 0xFFFF else min s.seam.resync.length 4096

/-- REBUILD_LEFT [4900:05-08] (R207): the lines that this tile has still to rebuild or resynchronise, but for those of the row at work that are
written. -/
def State.rebuildLeft (s : State) : Nat :=
  let bits := fun (m : Nat) => (List.range 64).countP (fun k => m.testBit k)
  let rows := if s.rebuilding then ((List.range s.rows).map (fun j => bits (s.rowLeft j))).foldl (· + ·) 0 else 0
  let back := if !s.seam.resyncing then 0
    else (((if s.seam.taking.contains s.t then List.range s.rows else s.awaited).filter (fun j => s.ownRow j)).map (fun j => bits (s.resyncMask j))).foldl (· + ·) 0
  rows + back - (match s.seam.job with | some j => bits (j.done &&& j.todo) | none => 0)

/-! ### Home agent and cipher lanes -/

/-- HA_STATUS [5000:05] (R239). -/
def State.haStatus (s : State) : Nat :=
  bitsWord [s.ha.dead != 0, s.ha.classify, s.ha.filter.any (fun e => e.2.doubt != .none), s.ha.expired, s.ha.lostRecall.isSome]

/-- SLOT_STATE [60kk:02] (R262). -/
def State.slotState (s : State) (k : Nat) : Nat := (s.slot k).st % 16 * 4096 + (s.slot k).kind % 16 * 256 + min (s.slotOpen k) 255

/-- CIPHER_STATUS [6400:05] (R265). -/
def State.cipherStatus (s : State) : Nat :=
  let lo := (List.range 24).any s.pairOn
  let hi := (List.range 24).any (fun k => s.pairOn (24 + k))
  bitsWord [lo, hi, !lo && !hi, !s.win.keyWords.isEmpty, !s.bus.keyWords.isEmpty]

/-- Word w of a cipher queue entry (R266). -/
def CEnt.word (e : CEnt) (w : Nat) : Word :=
  if w = 0 then w16 (32768 + modeCode e.mode * 4096 + b2n e.dir * 2048 + b2n e.failed.isSome * 1024 + e.slot % 1024)
  else if w = 1 then w16 (e.port % 32 * 2048 + e.stream % 16 * 128 + e.du % 16 * 8)
  else if w < 4 then wordAt e.len (w - 2)
  else if w = 4 then w16 (min e.next (ceilDiv e.len 64))
  else if w < 8 then wordAt e.addr (w - 5)
  else wordAt e.iv.toNat (w - 8)

/-! ### PHY, housekeeping and heat -/

/-- An Anneal runs on a group: from frame 2 of a recovery of rung 1 (R310), or at step 5 of the restart after a Quench (R296), which the model has begin 2.5 ms after
the restart did (DESIGN CHOICE, log entry 72: the table gives the time as an upper bound). -/
def State.annealing (s : State) (c : Nat) : Bool :=
  (s.quench.restart && decide (s.quench.restartAt + 2500000 ≤ s.ns)) ||
    (match s.repair.recov with | some r => r.rung == 1 && !r.annealed && r.u.pc / 4 == c / 4 && decide (r.opened.toNat + 2 ≤ s.frame) | none => false)

/-- PHY_STATUS [7000:03] (R299). -/
def State.phyStatus (s : State) : Nat :=
  bitsWord [(List.range 16).any (fun g => s.annealing (4 * g)), s.frozen, s.phy.pll0, s.phy.pll1, s.phy.trained]

/-- PLANISH_AGE [70cc:03] (R300). -/
def State.planishAge (s : State) (c : Nat) : Nat := if (s.pc c).train = 3 then 0 else min ((s.ns - (s.pc c).planAt) / 1000000) 0xFFFF

/-- TRAIN_STATE [70cc:04] (R300). -/
def State.trainState (s : State) (c : Nat) : Nat :=
  let q := s.pc c
  if q.retired then 3
  else if s.annealing c then 2
  else if q.train = 3 then 3
  else if s.planDueAt c s.ns then 1
  else 0

/-- HK_STATUS [7200:01] (R302). -/
def State.hkStatus (s : State) : Nat :=
  bitsWord [s.hk.witLevel, s.hk.refFault, s.hk.missing != 0, s.hk.chFault != 0, s.hk.outLim != 0, s.hk.chainFault != 0, s.hk.untrimmed]

/-- A temperature word: the missing code where no sensor is present (R268, R302; log entry 36). -/
def tempWord (t : Option Int) : Word := match t with
  | some x => ofI16 x
  | none => 0x8000

/-- QUENCH_STATUS [7220:04] (R302). -/
def State.quenchStatus (s : State) : Nat :=
  bitsWord [s.quench.on, s.quench.byTj, s.quench.byStack, s.quench.coolFrom.isSome, s.quench.restart]

/-! ### Pins -/

/-- MAINT_SDA answers (R398): from step 2 of a start on, while PD1 is powered. -/
def State.sdaAnswers (s : State) : Bool := s.dom 1 && s.pins.resetN

/-- HM_SCK, HM_CS_N and HM_IO are driven (R398); else they are tri-stated. -/
def State.hmDriven (s : State) : Bool := s.pins.resetN && s.drivesStore

/-- The stack's RESET_n is driven high (R399); else the package's pull-down holds the stack in reset. -/
def State.stackReleased (s : State) : Bool := s.pins.stackResetN

/-! ### Repair -/

/-- REPAIR_STATUS [7800:01] (R333). -/
def State.repairStatus (s : State) : Nat :=
  bitsWord [s.repair.recov.isSome, !s.repair.waiting.isEmpty, s.repair.links != 0, s.repair.split.isSome,
    s.repair.fosters &&& s.repair.fostered != 0, s.repair.mapDue, s.repair.leader]

/-- RECOVERY [7800:02] (R333). -/
def State.recoveryWord (s : State) : Nat := match s.repair.recov with
  | none => 0
  | some r => r.rung % 16 * 4096 + (if r.rung = 1 then r.u.pc / 4 * 4 else r.u.pc) % 64 * 64 + (if r.rung = 2 then r.u.bank % 64 else 0)

/-- RECOVERY_AGE [7800:03] (R333). -/
def State.recoveryAge (s : State) : Nat := match s.repair.recov with
  | none => 0
  | some r => min (s.frame - r.opened.toNat) 0xFFFF

/-- RETIRED_PC as one number (R333). -/
def State.retiredMask (s : State) : Nat := allPcs.foldl (fun a c => a + b2n (s.pc c).retired * 2 ^ c) 0

/-- RETIRED_BANKS of a pseudo-channel as one number (R335). -/
def PcSt.retiredBanks (q : PcSt) : Nat := (List.range 64).foldl (fun a b => a + b2n (q.rbanks.contains b) * 2 ^ b) 0

end Sys2Proof.Machine
end

