-- ==== Sys2Proof/Machine/ReadOps.lean ====
section
/-!
DEFINITION. Reads of the dictionary (R366, R371, R374, R375, R377, R378, R385, R386, R390, R391): the live value of every object, the holding copies,
the latch of each path, staged values, and objects of switched-off domains.
-/
namespace Sys2Proof.Machine
open Sys2Proof

/-! ### Live values of the RO objects -/

/-- The sixteen words of a log entry (R388). -/
def LogEntry.words (e : LogEntry) : List Word :=
  [w16 e.code, w16 e.tile] ++ four e.time ++ two e.cycles ++ (List.range 8).map (fun k => nth e.args k 0)

/-- Word x of an entry of the log, 0 where there is none (R389). -/
def State.logWord (s : State) (k x : Nat) : Nat := match s.log.entries[k]? with
  | some e => (nth e.words (x - 1) 0).toNat
  | none => 0

/-- Objects 0x1000 to 0x15FF (R26, R30, R362, R363, R389, R392, R393). -/
def State.live1 (s : State) (i x : Nat) : Nat :=
  let b := s.boot
  if i = 0x1000 then
    (if x = 1 then 0x4A4C else if x = 2 then 0x4858 else if x = 3 then Config.stepping.toNat else if x = 4 then 1 else if x = 5 then 7
     else if x = 6 then Config.uniqueId.toNat else 8)
  else if i = 0x1001 then (if x = 1 then s.n else s.t)
  else if i = 0x1002 then s.repair.anchor
  else if i = 0x1004 then (if x = 1 then s.pkgView else s.pkgServing)
  else if i = 0x1100 then
    (if x = 1 then b.st else if x = 2 then b.step else if x = 3 then b.failed else if x = 5 then b.reason else if x = 6 then b.failStep
     else if x = 8 then b.ms10 else b.count)
  else if i = 0x1101 then (if x = 1 then s.imageState else if x = 2 then b.imgSeq.toNat else b.imgLen)
  else if i = 0x1102 then (if x = 1 then s.ledgerState else if x = 2 then b.ledSeq.toNat else b.tallySeq.toNat)
  else if i = 0x1103 then (if x = 1 then s.storeState else b.clock)
  else if i = 0x1110 then s.hmState
  else if i = 0x1200 then s.pd.status.toNat
  else if i = 0x1300 then min s.ns (2 ^ 64 - 1)
  else if i = 0x1301 then
    (if x = 1 then s.lifeSeconds else if x = 3 then b.cycles.toNat else min ((s.ns - b.tallyAt) / 1000000000) 3600)
  else if i = 0x1400 then (if x = 2 then s.lockState else if x = 3 then s.maint.invalidKeys else s.maint.guardRefused)
  else if i = 0x1402 then
    (if x = 1 then s.dict.parityStatus.toNat else if x = 2 then s.dict.parityFaults else if x = 3 then parityWords else s.dict.parityLast)
  else if i = 0x1403 then s.maint.frameErrors
  else if i = 0x1500 then s.commit.result * 256 + s.commit.refused
  else s.stageStatus

/-- Objects 0x2000 to 0x21FF (R53-R55, R84). -/
def State.live2 (s : State) (i x : Nat) : Nat :=
  let dec := s.map.decode (s.regs 0x2005 1 4)
  if i = 0x2001 then (if x = 1 then s.phy.ids else if x = 2 then s.phy.rowBits else s.phy.cap / mib256)
  else if i = 0x2002 then s.map.seamBase
  else if i = 0x2003 then s.map.mapEnd
  else if i = 0x2004 then s.mapStatus
  else if i = 0x2006 then (if x = 1 then dec.1 else if x = 2 then dec.2.1 else if x = 3 then dec.2.2.1 else dec.2.2.2)
  else if i = 0x2100 then (if x = 2 then s.anvil.descr else if x = 3 then s.anvil.roundNo.toNat else s.anvilStatus)
  else if i = 0x2101 then (if x = 1 then s.anvil.frameNo.toNat else s.anvil.gen.toNat)
  else if i = 0x2102 then (if x = 1 then (ofI16 s.anvil.tickOff).toNat else s.anvil.hbSeen.toNat)
  else if i = 0x2103 then maintDur s.tim (s.reg 0x2100 5).toNat (maintOf (w16 (x * 256)))
  else if x = 1 then s.refreshCap
  else s.refreshNow

/-- Objects 0x3000 to 0x39FF (R111, R113, R123, R133, R148, R149). -/
def State.live3 (s : State) (i x : Nat) : Nat :=
  if i < 0x3100 then portRole (i - 0x3000)
  else if i < 0x3200 then
    let q := s.port (i - 0x3100)
    (if x = 1 then q.fifoLevel else if x = 2 then q.creditState else if x = 3 then q.status else if x = 4 then q.mboxCount
     else match q.mbox with
       | r :: _ => (nth (mboxWords r) (x - 0x10) 0).toNat
       | [] => 0)
  else if i = 0x3403 then (if x = 9 then s.aclDigest else b2n (s.dict.restoring.any (fun k => isAclKey (k / 256) (k % 256))))
  else if i = 0x3416 ∨ i = 0x3417 then s.used (BitVec.ofNat 8 (masterOf i 0x3416 x))
  else if i = 0x3418 ∨ i = 0x3419 then s.budget.outst.getD (masterOf i 0x3418 x) 0
  else if i = 0x341A then s.overMapWord x
  else if x = 0x71 then s.sched.sampleSeq.toNat
  else if x = 0x72 then s.sched.vT.toNat
  else if x = 0x74 then s.sched.vL.toNat
  else if x = 0x76 then s.sched.vB.toNat
  else
    let q := i - 0x3600
    if x = 5 then s.depth q
    else if x = 6 then (ofI16 ((s.q q).level / 16)).toNat
    else if x = 7 then s.queueStatus q
    else if x = 8 then ((s.mark q).q q).latDepth
    else ((s.mark q).q q).latDelay

/-- Objects 0x4000 to 0x50FF (R176-R178, R205, R207, R239, R240). -/
def State.live4 (s : State) (i x : Nat) : Nat :=
  if i = 0x4000 then (if x = 7 then s.schedStatus else s.pWorst)
  else if i = 0x4010 then s.declared x
  else if i = 0x4012 then s.tim x
  else if i < 0x4140 then
    let c := i - 0x4100
    (if x = 1 then s.pcState c else if x = 2 then s.inQueue c false % 256 * 256 + s.inQueue c true % 256 else s.inOrderWord c x)
  else if i = 0x4800 then (if x = 3 then s.seam.interval else if x = 6 then s.pickleStatus else s.seam.passCount)
  else if i < 0x4900 then (s.pc (i - 0x4840)).marks.toNat
  else if i = 0x4900 then
    (if x = 1 then s.seamState else if x = 2 then s.seam.lost.toNat else if x = 4 then s.resyncRows else s.rebuildLeft)
  else if i = 0x5000 then (if x = 5 then s.haStatus else if x = 6 then s.trackerUsed else s.ha.resv.length)
  else if x = 1 then s.ha.dead.toNat
  else s.ha.filter.countP (fun e => e.2.doubt != .none)

/-- Objects 0x6000 to 0x64FF (R262, R265, R266). -/
def State.live6 (s : State) (i x : Nat) : Nat :=
  if i < 0x6400 then
    (if x = 2 then s.slotState (i - 0x6000) else if (s.slot (i - 0x6000)).st = 1 then (s.slot (i - 0x6000)).kcv.toNat else 0)
  else if i = 0x6400 then (if x = 3 then s.cipher.ents.length else if x = 4 then ceilDiv s.holdUsed 1024 else s.cipherStatus)
  else if i = 0x6401 then (wordAt s.cipher.fenced.toNat (x - 1)).toNat
  else if i = 0x6403 then min (s.cipher.miss.getD (x - 1) 0) 0xFFFF
  else match SMap.look s.cipher.ents (2 * (i - 0x6480) + (x - 1) / 16) with
    | some e => (e.word ((x - 1) % 16)).toNat
    | none => 0

/-- Objects 0x7000 to 0x72FF (R299-R302). -/
def State.live7 (s : State) (i x : Nat) : Nat :=
  if i = 0x7000 then (if x = 2 then s.phy.grade else s.phyStatus)
  else if i < 0x7080 then
    let c := i - 0x7040
    (if x = 1 then (s.pc c).readEye.toNat else if x = 2 then (s.pc c).writeEye.toNat else if x = 3 then s.planishAge c else s.trainState c)
  else if i < 0x7200 then
    let kind := if i < 0x7140 then (i - 0x7100) / 16 else 4 + (i - 0x7140)
    let g := if i < 0x7140 then (i - 0x7100) % 16 else 0
    (if x = 6 then (s.coefForce i kind g).toNat else if x = 7 then (s.hk.meas.getD i 0).toNat else (s.hk.measT.getD i 0).toNat)
  else if i = 0x7200 then (if x = 1 then s.hkStatus else sat32 s.hk.rounds)
  else if i = 0x7201 then (s.sample (x - 1)).toNat
  else if i = 0x7202 then (if x = 1 then s.hk.missing.toNat else if x = 3 then s.hk.outLim.toNat else s.hk.chFault.toNat)
  else if i < 0x7218 then (s.hk.chain.getD ((i - 0x7210) * 32 + (x - 1)) 0x8000).toNat
  else if i = 0x7218 then (if x = 1 then s.hk.chainMissing.toNat else s.hk.chainFault.toNat)
  else if x = 1 then (tempWord s.tj).toNat
  else if x = 2 then (tempWord s.ts).toNat
  else if x = 3 then s.hk.hotNow
  else if x = 4 then s.quenchStatus
  else s.quench.count

/-- Objects 0x7800 to 0x90FF (R333-R336, R377, R389). -/
def State.live8 (s : State) (i x : Nat) : Nat :=
  if i = 0x7800 then
    (if x = 1 then s.repairStatus else if x = 2 then s.recoveryWord else if x = 3 then s.recoveryAge else if x = 4 then s.repair.waiting.length
     else if x = 8 then (s.repair.links &&& maskOf (List.range s.n)).toNat else s.myArc.toNat)
  else if i = 0x7810 then (if x < 5 then (wordAt s.retiredMask (x - 1)).toNat else b2n s.repair.stackRetired * 32768 + s.retiredPcs)
  else if i = 0x7811 then s.repair.fostered.toNat
  else if i = 0x7821 then (if x = 9 then min s.repair.longest 0xFFFF else min s.repair.bound 0xFFFF)
  else if i = 0x7830 then (if x = 1 then s.lifeEq else s.permille)
  else if i < 0x7900 then
    let q := s.pc (i - 0x7840)
    (if x < 5 then (wordAt q.retiredBanks (x - 1)).toNat else if x = 5 then q.spUsed % 256 * 256 + q.spLeft % 256
     else if x = 6 then q.rowsSoft % 256 * 256 + q.rowsHard % 256 else min q.faults 0xFFFF)
  else if i = 0x8000 then (if x = 2 then s.snap.seq.toNat else if x = 3 then s.snap.frame.toNat else s.snap.time)
  else if i = 0x9000 then (if x = 1 then s.log.entries.length else if x = 2 then s.log.overflow else s.log.total)
  else if i = 0x9001 then s.logWord 0 x
  else s.logWord (s.reg 0x9000 7).toNat x

/-- PD_CYCLES (R178), with those of a power-down that lasts. -/
def State.pdCycles (s : State) (c : Nat) : Nat :=
  (s.ctrOf (0x4100 + c) 15 + (match (s.pc c).down with | some t => s.clk.now - t | none => 0)) % 2 ^ 48

/-- The live value of an RO object, by the subindex of its lowest word; the 48-bit counters stand in one map (R34). -/
def State.live (s : State) (row : RegRow) (i x : Nat) : Nat :=
  if 0x4100 ≤ i ∧ i < 0x4140 ∧ x = 15 then s.pdCycles (i - 0x4100)
  else if row.snap && row.w == 4 && i != 0x1300 then s.ctrOf i x
  else if i < 0x2000 then s.live1 i x
  else if i < 0x3000 then s.live2 i x
  else if i < 0x4000 then s.live3 i x
  else if i < 0x6000 then s.live4 i x
  else if i < 0x7000 then s.live6 i x
  else if i < 0x7800 then s.live7 i x
  else s.live8 i x

/-! ### Snapshots -/

/-- Counters, which freeze while their domain is unavailable rather than read 0 (R391). -/
def isCounter (row : RegRow) (i x : Nat) : Bool :=
  (row.snap && row.w == 4) || (i == 0x4800 && x == 12) || i == 0x6403 || (i == 0x3600 && x == 0x71)

/-- What the holding copies take at a snapshot (R377): the counters, the latency words and the times. -/
def State.snapHold (s : State) : SMap Nat :=
  let ctrs := s.ctr.filter (fun e => match regRow (e.1 / 256) (e.1 % 256) with
    | some row => row.snap
    | none => false)
  let ctrs := allPcs.foldl (fun m c => if (s.pc c).down.isSome then SMap.put 0 m (wkey (0x4100 + c) 15) (s.pdCycles c) else m) ctrs
  let lat := if s.avail 0x3600 then s.latQueues else []
  let m := lat.foldl (fun m q => SMap.put 0 (SMap.put 0 m (wkey (0x3600 + q) 8) (s.q q).latDepth) (wkey (0x3600 + q) 9) (s.q q).latDelay) ctrs
  [(0x1300, 1), (0x1301, 1), (0x1301, 3), (0x1301, 5)].foldl (fun m e => SMap.put 0 m (wkey e.1 e.2) (s.live1 e.1 e.2)) m

/-- High-water marks restart from the current values (R147, R377). -/
def State.restartMarks (s : State) : State :=
  s.latQueues.foldl (fun z q =>
    let st := z.q q
    if st.latMode = 1 then z.setQ q { st with latDepth := z.depth q, latDelay := min (z.headDelay q / 16) 0xFFFF } else z) s

/-- A snapshot of the tile (R377); high-water marks take in the delay as it stands (R147). -/
def State.takeSnapshot (s : State) : State :=
  { s.restartMarks with snap := { s.snap with hold := (s.latQueues.foldl State.mark s).snapHold, seq := s.snap.seq + 1, frame := s.anvil.frameNo, time := min s.ns (2 ^ 64 - 1) } }

/-! ### A read -/

/-- PATH_CTRL of a path (R389). -/
def State.pathCtrl (s : State) (h : Path) : Word := s.reg 0x1401 (match h with | .win => 1 | .bus => 2)
/-- LATCH of a path (R378). -/
def State.latchOn (s : State) (h : Path) : Bool := bit (s.pathCtrl h) 15
/-- READ_STAGED of a path (R385). -/
def State.readsStaged (s : State) (h : Path) : Bool := bit (s.pathCtrl h) 14

/-- The value of an RO object as a path reads it (R374, R377, R378, R391). -/
def State.roValue (s : State) (h : Path) (row : RegRow) (i x : Nat) : Nat :=
  if !s.avail i && !isCounter row i x then 0
  else if row.snap && !s.latchOn h then s.snap.hold.getD (wkey i x) 0
  else s.live row i x

/-- A writable word as a path reads it (R78, R112, R334, R362, R382, R385). -/
def State.rwWord (s : State) (h : Path) (i x : Nat) : Word :=
  if i = 0x1500 ∧ x = 0 then s.phaseWord
  else if i = 0x1500 ∧ x = 1 then w16 s.commit.armed
  else if i = 0x1100 ∧ x = 7 ∨ i = 0x1110 ∧ x = 1 ∨ i = 0x7801 ∧ x = 1 then 0
  else
    let v := if s.readsStaged h then s.stagedReg i x else s.reg i x
    if 0x3000 ≤ i ∧ i ≤ 0x301F ∧ x = 1 then setBit v 14 (s.port (i - 0x3000)).flush.isSome else v

/-- The word at a location as a path reads it (R374, R375, R378): `whole` where the access covers its object. -/
def State.readWord (s : State) (h : Path) (whole : Bool) (i x : Nat) : Word := match regRow i x with
  | none => 0
  | some row => match row.acc with
    | .wo => 0
    | .ro =>
      let b := row.base x
      let live := wordAt (s.roValue h row i b) (x - b)
      if s.latchOn h && row.latched && !whole && x != b then
        (match (s.path h).latch with
         | some (k, v) => if k = wkey i b then wordAt v (x - b) else live
         | none => live)
      else live
    | .rw => s.rwWord h i x
    | .guarded => s.rwWord h i x
    | .staged => s.rwWord h i x

/-- A read of the lowest word of a latched object captures the object into the path's latch (R378). -/
def State.capture (s : State) (h : Path) (p : WPart) : State :=
  if s.latchOn h && p.row.latched && p.off == 0 && decide (p.ws.length < p.row.w) then
    s.setPath h { s.path h with latch := some (wkey p.i p.base, s.roValue h p.row p.i p.base) }
  else s

/-- What a read leaves behind on an object: the path's latch (R378), and parity failures found (R386). -/
def State.readPart (s : State) (h : Path) (p : WPart) : State :=
  let s1 := s.capture h p
  (List.range p.ws.length).foldl (fun z j =>
    let x := p.base + p.off + j
    let k := wkey p.i x
    if z.readsStaged h && z.dict.badStaged.contains k then z.parityFail p.i x true
    else if !(z.readsStaged h && (SMap.look z.dict.staged k).isSome) && z.dict.badApplied.contains k then z.parityFail p.i x false
    else z) s1

/-- A read of n words from [i:x] on a path (R366, R371): every word is captured in one cycle, a higher word of an object after what the access's own
lower words captured (R378). -/
def State.readAccess (s : State) (h : Path) (i x n : Nat) : State × List Word :=
  let ps := partsOf i 256 x (List.replicate n 0)
  let whole := fun (y : Nat) => ps.any (fun p => decide (p.base + p.off ≤ y) && decide (y < p.base + p.off + p.ws.length) && p.ws.length == p.row.w)
  let upTo := fun (y : Nat) => (ps.filter (fun p => decide (p.base + p.off ≤ y))).foldl (fun z p => z.capture h p) s
  (ps.foldl (fun z p => z.readPart h p) s, (List.range n).map (fun j => (upTo (x + j)).readWord h (whole (x + j)) i (x + j)))

end Sys2Proof.Machine
end

