-- ==== Sys2Proof/Machine/DictOps.lean ====
section
/-!
DEFINITION. The writes that act as commands (R78, R80, R113, R262-R265, R334, R345, R351, R357, R377, R379, R382, R389), one write of the dictionary,
and the maintenance bus (R367-R372).
-/
namespace Sys2Proof.Machine
open Sys2Proof

/-! ### REPAIR_CMD -/

/-- Why a REPAIR_CMD is refused, 0 where it is not (R334): 1 not listed, 2 not at this tile, 3 already retired, 4 outside the package view, 5 no split. -/
def State.repairRefusal (s : State) (code u : Nat) : Nat :=
  let w := s.reg 0x7801 2
  let c := fld w 11 6
  if code = 6 ∨ code = 7 then
    (if !s.isAnchor then 2 else if s.n ≤ u ∨ (code = 6 ∧ !bit s.repair.view u) then 4 else 0)
  else if code = 8 then (if !s.isAnchor then 2 else if s.repair.split.isNone then 5 else 0)
  else if code = 1 ∨ code = 4 then (if s.repair.stackRetired || (s.pc c).retired then 3 else 0)
  else if code = 3 then (if s.repair.stackRetired || (s.pc c).retired || (s.pc c).rbanks.contains (fld w 5 0) then 3 else 0)
  else if code = 5 then (if s.repair.stackRetired then 3 else 0)
  else if code = 14 then 0
  else 1

/-- A fenced tile restarts and rejoins (R323). -/
def State.restartFenced (s : State) : State := if s.repair.fenced.isSome then s.beginStart 3 else s

/-- A REPAIR_CMD that is not refused (R334): it acts at the next tick. The anchor that fences itself sends the notice that its successor fosters it by. -/
def State.repairAct (s : State) (code u : Nat) : State :=
  let w := s.reg 0x7801 2
  let c := fld w 11 6
  let unit : RUnit := ⟨c, fld w 5 0, 0, 63⟩
  if code = 1 then s.await 1 unit .calibration
  else if code = 3 then s.dueAct (.bank c (fld w 5 0))
  else if code = 4 then s.dueAct (.pc c .pc)
  else if code = 5 then s.dueAct (.stack .stack)
  else if code = 6 then (if u = s.t then (s.ring (.fence u)).dueAct (.fence .command) else (s.ring (.fence u)).dueAct (.foster u))
  else if code = 7 then s.dueAct (.restart u)
  else if code = 8 then
    ((List.range s.n).filter (fun k => s.across k && bit s.repair.view k)).foldl (fun z k => (z.ring (.foster k)).dueAct (.foster k)) s
  else { s with repair := { s.repair with clearDue := true } }

/-- REPAIR_CMD (R334): event 0x0E17 with the code and the reason where it is refused. -/
def State.repairCmd (s : State) (v : Word) : State × Nat :=
  let code := fld v 15 12
  let why := s.repairRefusal code (fld v 11 8)
  if why = 0 then (s.repairAct code (fld v 11 8), 0) else (s.log1 0x0E17 [w16 code, Config.repairReason why], 6)

/-! ### Other commands written to the dictionary -/

/-- START_CMD 2 (R357): the shutdown goes out to every tile. -/
def State.shutdownAll (s : State) : State :=
  let going := s.boot.st = 5 ∨ s.boot.st = 6 ∨ s.boot.st = 0
  if going ∨ s.n ≤ 1 ∨ !s.dom 29 then s.shutdownCmd else (s.ring .shutdown).shutdownCmd

/-- COMMIT (R78, R80, R384). -/
def State.commitCmd (s : State) (v : Nat) : State × Nat :=
  if v = 1 then (s.arm 1, 0)
  else if v = 2 then (if s.isAnchor then (s.arm 2, 0) else (s.wrongTile 0x1500 1 v, 8))
  else (s.ignored 0x1500 1 v, 6)

/-- PHASE (R382), in force from the next cycle. -/
def State.phaseCmd (s : State) (v : Nat) : State × Nat :=
  if 1 ≤ s.phase ∧ s.phase ≤ 3 ∧ 1 ≤ v ∧ v ≤ 3 then ({ s with dict := { s.dict with phase := s.phaseWord, phaseNew := some (s.clk.now, w16 v) } }, 0)
  else (s.ignored 0x1500 0 v, 6)

/-- The commands among the RW objects, which a write carries out in place of storing its value (R78, R334, R345, R351, R357, R382); no answer where the
object or its value is none. -/
def State.rwCmd (s : State) (i x v : Nat) : Option (State × Nat) :=
  if i = 0x1100 ∧ x = 7 then (if v = 1 then some (s.restartCmd, 0) else if v = 2 then some (s.shutdownAll, 0) else none)
  else if i = 0x1110 ∧ x = 1 then
    (if v = 1 then some s.hmOpenCmd else if v = 2 then some s.hmCloseCmd else if v = 3 then some s.hmAbandonCmd else none)
  else if i = 0x1500 ∧ x = 0 then some (s.phaseCmd v)
  else if i = 0x1500 ∧ x = 1 then some (s.commitCmd v)
  else if i = 0x7801 ∧ x = 1 then some (s.repairCmd (w16 v))
  else none

/-- A snapshot that a write asks for. -/
def State.snapshotOn (s : State) (h : Path) : State := { s.takeSnapshot with snap := { s.takeSnapshot.snap with from_ := some (s.clk.now, h) } }

/-- The other path has asked for the same snapshot in this cycle (R377). -/
def State.askedNow (s : State) (h : Path) (last : Option (Nat × Path)) : Bool := match last with
  | some (c, g) => c == s.clk.now && g != h
  | none => false

/-- A package snapshot asked for at the anchor (R377): due at tick f + 2, here and at every tile that the message reaches. -/
def State.snapshotPkg (s : State) (h : Path) : State :=
  let f := BitVec.ofNat 64 (s.frame + 2)
  ({ s with snap := { s.snap with due := s.snap.due ++ [f], fromPkg := some (s.clk.now, h) } }).ring (.snapshotAt f)

/-- SNAPSHOT (R377, R384); requests of both paths in one cycle are one snapshot. -/
def State.snapshotCmd (s : State) (h : Path) (v : Nat) : State × Nat :=
  if v = 1 then (if s.askedNow h s.snap.from_ then s else s.snapshotOn h, 0)
  else if v = 2 then
    (if s.isAnchor then (if s.askedNow h s.snap.fromPkg then s else s.snapshotPkg h, 0)
     else (s.wrongTile 0x8000 1 v, 8))
  else (s.ignored 0x8000 1 v, 6)

/-- MBOX_POP and MBOX_CLEAR (R113). DESIGN CHOICE: they act in pull mode and in push mode alike (log entry 72). -/
def State.mboxCmd (s : State) (p x v : Nat) : State × Nat :=
  if v ≠ 1 then (s, 6)
  else if x = 5 then (s.setPort p { s.port p with mbox := (s.port p).mbox.drop 1 }, 0)
  else (s.setPort p { s.port p with lost := 0 }, 0)

/-- SLOT_CMD (R262-R264). -/
def State.slotCmd (s : State) (h : Path) (k v : Nat) : State × Nat :=
  if 1 ≤ v ∧ v ≤ 3 then (s.slotLoad h k v, 0) else if v = 0xEE then (s.slotErase k, 0) else (s, 6)

/-- ERASE_ALL (R265). -/
def State.eraseCmd (s : State) (v : Nat) : State × Nat :=
  if v = 0xEE then (s.eraseSlots, 0) else (s.log1 0x0B0A ([w16 0x6400, 1] ++ four v), 6)

/-- LOG_POP and LOG_CLEAR (R388, R389). -/
def State.logCmd (s : State) (x v : Nat) : State × Nat :=
  if v ≠ 1 then (s.ignored 0x9000 x v, 6)
  else if x = 5 then ({ s with log := { s.log with entries := s.log.entries.drop 1 } }, 0)
  else ({ s with log := { s.log with entries := [], overflow := 0 } }, 0)

/-- The WO objects (R113, R262, R265, R351, R377, R379, R389), which act at once in every phase (R374). -/
def State.woCmd (s : State) (h : Path) (i x v : Nat) : Option (State × Nat) :=
  if i = 0x1111 then some (s.hmPageWord x v)
  else if i = 0x1400 then some (s.unlock h (w16 v))
  else if 0x3100 ≤ i ∧ i ≤ 0x311F then some (s.mboxCmd (i - 0x3100) x v)
  else if 0x6000 ≤ i ∧ i ≤ 0x63FF then
    (if x = 1 then some (s.slotCmd h (i - 0x6000) v) else some (s.keyWord h (i - 0x6000) (x - 0x10) (w16 v), 0))
  else if i = 0x6400 then some (s.eraseCmd v)
  else if i = 0x8000 then some (s.snapshotCmd h v)
  else if i = 0x9000 then some (s.logCmd x v)
  else none

/-! ### One write -/

/-- The dictionary engine answers in PD1 (R391). -/
def State.dictOn (s : State) : Bool := s.dom 1

/-- A write on a path (R366, R371), with its STATUS; `onward` where a TILE field sent it on (R384). -/
def State.writeWith (s : State) (h : Path) (onward : Bool) (i x : Nat) (ws : List Word) : State × Nat :=
  s.writeAccess (some h) onward State.rwCmd (fun z j y v => z.woCmd h j y v) i x ws

/-- A write on a path (R366, R371). -/
def State.write (s : State) (h : Path) (i x : Nat) (ws : List Word) : State := if s.dictOn then (s.writeWith h false i x ws).1 else s

/-- The window's answer to an access it does not serve (R366): event 0x0F03 with the offset, at most once per frame. -/
def State.badAccess (s : State) (off : Nat) : State := s.logFrame 0x0F03 0 (two off)

/-- The window offset of a location (R365). -/
def offsetOf (i x : Nat) : Nat := i * 512 + x * 2

/-- A path serves an access of n words from subindex x (R366, R369). -/
def goodShape (h : Path) (x n : Nat) : Bool :=
  (match h with
   | .win => n == 1 || n == 2 || n == 4
   | .bus => decide (1 ≤ n) && decide (n ≤ 64)) && decide (x + n ≤ 256)

/-! ### Requests on the maintenance bus -/

/-- The bytes of a reply: STATUS, data, CRC-8 (R370). -/
def replyBytes (status : Nat) (data : List Byte) : List Byte :=
  let b := BitVec.ofNat 8 status :: data
  b ++ [crc8 b]

/-- The bytes of a request (R369). -/
def requestBytes (tile op : Nat) (idx : Word) (sub count : Byte) (ws : List Word) : List Byte :=
  let b := [BitVec.ofNat 8 (tile * 16 + op)] ++ wordBytes idx ++ [sub, count] ++ ws.flatMap wordBytes
  b ++ [crc8 b]

/-- The target takes part on the bus: PD1 on and no HDR period (R367). -/
def State.busOn (s : State) : Bool := s.dom 1 && !s.maint.hdr
/-- It answers to its dynamic address (R367). -/
def State.addressed (s : State) : Bool := s.busOn && s.maint.dyn.isSome

/-- A reply becomes ready, or is awaited over the ring (R370); one that was not read is discarded. -/
def State.setReply (s : State) (r : Option (List Byte)) : State := { s with maint := { s.maint with reply := some r } }

/-- A request discarded before execution (R371): 1 CRC_ERROR, 2 FORMAT. -/
def State.discard (s : State) (status : Nat) : State :=
  (({ s with maint := { s.maint with frameErrors := satAdd16 s.maint.frameErrors 1 } }).logFrame 0x0F01 0 []).setReply (some (replyBytes status []))

/-- COUNT and the subindex range are right (R369). -/
def goodRange (sub : Byte) (count : Nat) : Bool := goodShape .bus sub.toNat count

/-- What a TILE field calls for (R369, R371, R372): NOT_ANCHOR, execution here, or a request sent onward. -/
inductive Target | refused | here | onward (u : Nat)
  deriving DecidableEq, Repr

/-- The target of a TILE field; one that came over the ring is executed here (R372). During a split the leader of the other arc answers for its own (R327). -/
def State.target (s : State) (tile : Nat) (carried : Option Nat) : Target :=
  if carried.isSome || tile == 0 then .here
  else if !(s.isAnchor || (s.repair.split.isSome && s.repair.leader)) || decide (s.n < tile) || !bit s.repair.view (tile - 1) || s.across (tile - 1) then .refused
  else if tile - 1 = s.t then .here
  else .onward (tile - 1)

/-- The reply of an executed request: to the controller, or back to the anchor under the request's number (R370, R372). -/
def State.giveReply (s : State) (carried : Option Nat) (bytes : List Byte) : State := match carried with
  | some no => s.ring (.onwardReply no bytes)
  | none => s.setReply (some bytes)

/-- A request sent onward to tile u under the next number (R372); its reply is awaited. -/
def State.sendOnward (s : State) (u : Nat) (bytes : List Byte) : State :=
  let s1 := { s with maint := { s.maint with asked := s.maint.asked + 1 } }
  (s1.ring (.onward u s1.maint.asked bytes)).setReply none

/-- READ (R371). -/
def State.maintRead (s : State) (tile : BitVec 4) (idx : Word) (sub count : Byte) (carried : Option Nat) : State :=
  if !goodRange sub count.toNat then s.discard 2
  else match s.target tile.toNat carried with
    | .refused => s.setReply (some (replyBytes 3 []))
    | .onward u => s.sendOnward u (requestBytes tile.toNat 1 idx sub count [])
    | .here =>
      let r := s.readAccess .bus idx.toNat sub.toNat count.toNat
      r.1.giveReply carried (replyBytes 0 (r.2.flatMap wordBytes))

/-- WRITE (R371). -/
def State.maintWrite (s : State) (tile : BitVec 4) (idx : Word) (sub : Byte) (ws : List Word) (carried : Option Nat) : State :=
  if !goodRange sub ws.length then s.discard 2
  else match s.target tile.toNat carried with
    | .refused => s.setReply (some (replyBytes 3 []))
    | .onward u => s.sendOnward u (requestBytes tile.toNat 2 idx sub (BitVec.ofNat 8 ws.length) ws)
    | .here =>
      let r := s.writeWith .bus (carried.isSome || tile != 0) idx.toNat sub.toNat ws
      r.1.giveReply carried (replyBytes r.2 [])

/-- A private write as its bytes arrive (R369, R371), judged in the order of R371. -/
def State.privateWrite (s : State) (bs : List Byte) : State :=
  if bs.length < 6 then s.discard 2
  else
    let body := bs.dropLast
    if crc8 body ≠ bs.getLast?.getD 0 then s.discard 1
    else
      let b := fun (k : Nat) => nth bs k (0 : Byte)
      let tile : BitVec 4 := (b 0).extractLsb' 4 4
      let op := fld (b 0) 3 0
      let idx := BitVec.ofNat 16 ((b 1).toNat + 256 * (b 2).toNat)
      let count := (b 4).toNat
      if op = 1 ∧ bs.length = 6 then s.maintRead tile idx (b 3) (b 4) none
      else if op = 2 ∧ bs.length = 6 + 2 * count then s.maintWrite tile idx (b 3) (wordsOfBytes (body.drop 5)) none
      else s.discard 2

end Sys2Proof.Machine
end

