-- ==== Sys2Proof/Machine/Dict.lean ====
section
/-!
DEFINITION. The commands of the dictionary paths that are no write of one named register (R366, R376-R380, R383, R384, R388, R127).
-/
namespace Sys2Proof.Machine
open Sys2Proof

/-- WINDOW_BAD_ACCESS (R366): an odd offset, another width, or a run past subindex 0xFF reads zero or writes nothing; an access the window serves is
none of these and is given by other commands. -/
def execWindowBadAccess (off : BitVec 25) (bits : Nat) (write : Bool) (s : State) : Host.Outcome State Fault Refusal :=
  .next (
    let odd := off.toNat % 2 == 1
    let wide := !(bits == 16 || bits == 32 || bits == 64)
    let past := decide (512 < off.toNat % 512 + bits / 8)
    if !s.dictOn || !(odd || wide || past) then s
    else if write then s.badAccess off.toNat
    else (s.badAccess off.toNat).emit (.read .win (List.replicate (max (bits / 16) 1) 0)))

/-- REGISTER_WRITE (R366, R374): any words from any subindex of an index; an access its path does not serve writes nothing. -/
def execRegisterWrite (h : Path) (idx : Word) (sub : Byte) (ws : List Word) (s : State) : Host.Outcome State Fault Refusal :=
  .next (
    if goodShape h sub.toNat ws.length then s.write h idx.toNat sub.toNat ws
    else if s.dictOn then (match h with
      | .win => s.badAccess (offsetOf idx.toNat sub.toNat)
      | .bus => s)
    else s)

/-- PACKAGE_WIDE_WRITE (R384): on a path of this tile, sent onward to it, or as the anchor's copy, which becomes the staged value
unless the object is frozen (R81). -/
def execPackageWideWrite (h : Path) (via : Via) (idx : Word) (sub : Byte) (ws : List Word) (s : State) : Host.Outcome State Fault Refusal :=
  .next (
    let i := idx.toNat
    let x := sub.toNat
    if !s.dictOn then s
    else match via with
      | .own => s.write h i x ws
      | .onward => (s.writeWith .bus true i x ws).1
      | .copy =>
        if s.commit.prepared then (if isPkgWide i x then s.log1 0x0314 [w16 i, w16 x, nth ws 0 0] else s)
        else ws.zipIdx.foldl (fun z e => if isPkgWide i (x + e.2) && (regRow i (x + e.2)).isSome then z.setStaged i (x + e.2) e.1 else z) s)

/-- LATCH_READ (R366, R378): a read of one, two or four words on a path, live or from its latch under LATCH. -/
def execLatchRead (h : Path) (idx : Word) (sub : Byte) (width : Fin 3) (s : State) : Host.Outcome State Fault Refusal :=
  .next (
    let n := 2 ^ width.val
    if !s.dictOn then s
    else if 256 < sub.toNat + n then
      (match h with
       | .win => (s.badAccess (offsetOf idx.toNat sub.toNat)).emit (.read h (List.replicate n 0))
       | .bus => s)
    else
      let r := s.readAccess h idx.toNat sub.toNat n
      r.1.emit (.read h r.2))

/-- UNLOCK_LATCH_EXPIRE (R379): 1 s of powered time after it was armed, a latch that nothing consumed is disarmed. -/
def execUnlockLatchExpire (h : Path) (s : State) : Host.Outcome State Fault Refusal :=
  .next (match (s.path h).armedAt with
    | none => s
    | some t => let z := s.toTime (t + 1000000000)
                z.setPath h { z.path h with armedAt := none })

/-- PATH_LOCK_EXPIRE (R380): 1 s of powered time after its lock began, a path is unlocked. -/
def execPathLockExpire (h : Path) (s : State) : Host.Outcome State Fault Refusal :=
  .next (match (s.path h).lockedAt with
    | none => s
    | some t => let z := s.toTime (t + 1000000000)
                z.setPath h { z.path h with lockedAt := none })

/-- PACKAGE_SNAPSHOT_TAKE (R377): at tick f + 2; a tile the ring brought the order to takes it at once. -/
def execPackageSnapshotTake (s : State) : Host.Outcome State Fault Refusal :=
  .next (
    if !s.dictOn then s
    else match s.snap.due with
      | f :: rest => if s.frame < f.toNat then s else ({ s with snap := { s.snap with due := rest } }).takeSnapshot
      | [] => if s.isAnchor then s else s.takeSnapshot)

/-- REPLICA_RESTORE_DONE (R127, R387): the word copied from another tile takes the place of the failed one; for a word of the access group,
ACL_DIGEST is checked again against `digest`, that of the tile it came from, and the tile is fenced where they differ. -/
def execReplicaRestoreDone (idx : Word) (sub : Byte) (v : Word) (digest : BitVec 32) (s : State) : Host.Outcome State Fault Refusal :=
  .next (
    let i := idx.toNat
    let x := sub.toNat
    if s.dict.restoring.contains (wkey i x) then
      let y := s.setReg i x v
      let z := { y with dict := { y.dict with restoring := y.dict.restoring.filter (fun k => k ≠ wkey i x) } }
      if isAclKey i x && z.aclDigest != digest.toNat then z.tileFault .replica else z
    else s)

end Sys2Proof.Machine
end

