-- ==== Sys2Proof/Machine/Maint.lean ====
section
/-!
DEFINITION. The commands of the maintenance bus (R367-R372).
-/
namespace Sys2Proof.Machine
open Sys2Proof

/-- MAINT_READ (R371). -/
def execMaintRead (tile : BitVec 4) (idx : Word) (sub count : Byte) (carried : Option Nat) (s : State) : Host.Outcome State Fault Refusal :=
  .next (if carried.isSome && s.dictOn || carried.isNone && s.addressed then s.maintRead tile idx sub count carried else s)

/-- MAINT_WRITE (R371). -/
def execMaintWrite (tile : BitVec 4) (idx : Word) (sub : Byte) (ws : List Word) (carried : Option Nat) (s : State) : Host.Outcome State Fault Refusal :=
  .next (if carried.isSome && s.dictOn || carried.isNone && s.addressed then s.maintWrite tile idx sub ws carried else s)

/-- MAINT_REPLY_FETCH (R370): one that is not acknowledged has no effect; with no reply waiting, STATUS 0x0F. -/
def execMaintReplyFetch (s : State) : Host.Outcome State Fault Refusal :=
  .next (
    if !s.addressed then s
    else match s.maint.reply with
      | none => s.emit (.reply (replyBytes 15 []))
      | some none => s
      | some (some bs) => ({ s with maint := { s.maint with reply := none } }).emit (.reply bs))

/-- DISCARDED_REQUEST (R371): a private write by its bytes; one that is right after all is executed. -/
def execDiscardedRequest (bytes : List Byte) (s : State) : Host.Outcome State Fault Refusal :=
  .next (if s.addressed then s.privateWrite bytes else s)

/-- ONWARD_REPLY (R370): the reply to the request sent onward last is ready; that of one discarded since goes nowhere. -/
def execOnwardReply (m : OnwardReply) (s : State) : Host.Outcome State Fault Refusal :=
  .next (if s.maint.reply = some none ∧ m.no = s.maint.asked then s.setReply (some m.bytes) else s)

/-- ENTDAA (R367): a target without a dynamic address takes one. -/
def execEntdaa (a : BitVec 7) (s : State) : Host.Outcome State Fault Refusal :=
  .next (if s.busOn && s.maint.dyn.isNone then { s with maint := { s.maint with dyn := some a } } else s)

/-- SETNEWDA (R367). -/
def execSetnewda (a : BitVec 7) (s : State) : Host.Outcome State Fault Refusal :=
  .next (if s.addressed then { s with maint := { s.maint with dyn := some a } } else s)

/-- RSTDAA (R367). -/
def execRstdaa (s : State) : Host.Outcome State Fault Refusal :=
  .next (if s.busOn then { s with maint := { s.maint with dyn := none } } else s)

/-- ENEC (R367, R368). -/
def execEnec (s : State) : Host.Outcome State Fault Refusal :=
  .next (if s.busOn then { s with maint := { s.maint with ibiOn := true } } else s)

/-- DISEC (R367, R368). -/
def execDisec (s : State) : Host.Outcome State Fault Refusal :=
  .next (if s.busOn then { s with maint := { s.maint with ibiOn := false } } else s)

/-- GETPID (R367): the lowest 4 bits hold the tile number. -/
def execGetpid (s : State) : Host.Outcome State Fault Refusal :=
  .next (if s.addressed then s.emit (.i3c (bytesOf 6 (Config.pidHigh.toNat * 16 + s.t)).reverse) else s)

/-- GETBCR (R367). -/
def execGetbcr (s : State) : Host.Outcome State Fault Refusal := .next (if s.addressed then s.emit (.i3c [Config.i3cBcr]) else s)

/-- GETDCR (R367). -/
def execGetdcr (s : State) : Host.Outcome State Fault Refusal := .next (if s.addressed then s.emit (.i3c [Config.i3cDcr]) else s)

/-- GETSTATUS (R367). -/
def execGetstatus (s : State) : Host.Outcome State Fault Refusal :=
  .next (if s.addressed then s.emit (.i3c (Config.i3cStatus s.maint.ibiPending.isSome)) else s)

/-- GETMWL (R367): 134 bytes. -/
def execGetmwl (s : State) : Host.Outcome State Fault Refusal := .next (if s.addressed then s.emit (.i3c [0x00, 0x86]) else s)

/-- GETMRL (R367): 134 bytes. -/
def execGetmrl (s : State) : Host.Outcome State Fault Refusal := .next (if s.addressed then s.emit (.i3c [0x00, 0x86]) else s)

/-- HDR_ENTRY (R367): the target ignores the bus until the HDR exit pattern. -/
def execHdrEntry (s : State) : Host.Outcome State Fault Refusal :=
  .next (if s.dom 1 then { s with maint := { s.maint with hdr := true } } else s)

/-- HDR_EXIT_PATTERN (R367). -/
def execHdrExitPattern (s : State) : Host.Outcome State Fault Refusal := .next { s with maint := { s.maint with hdr := false } }

/-- IBI_ACK (R368): then one interrupt for the newest matching event logged since. -/
def execIbiAck (s : State) : Host.Outcome State Fault Refusal :=
  .next (
    if !s.busOn || s.maint.ibiPending.isNone then s
    else match s.maint.ibiNewest with
      | some code =>
        if s.maint.ibiOn then ({ s with maint := { s.maint with ibiPending := some code, ibiNewest := none } }).emit (.ibi (ibiPayload code s.t))
        else { s with maint := { s.maint with ibiPending := none, ibiNewest := none } }
      | none => { s with maint := { s.maint with ibiPending := none } })

end Sys2Proof.Machine
end

