-- ==== Sys2Proof/Machine/Operands.lean ====
section
/-!
DEFINITION. The words that cross the block's faces, bit by bit, beside the structures that stand for them as operands and outputs: request words
(R88, R213), cipher descriptors (R243), write-line sidebands (R90), response headers (R91, R92, R214) with their cipher sideband (R259), credit words
(R94), snoops and their answers (R215, R216).
-/
namespace Sys2Proof.Machine
open Sys2Proof

/-! ### Requests -/

/-- The code of an opcode (R89). -/
def opBits (op : Op) : BitVec 4 := BitVec.ofNat 4 (opCode op)

/-- The opcode of a code, none where R89 lists none. -/
def opOf (c : BitVec 4) : Option Op :=
  [Op.read, .writePosted, .writeAck, .rdShared, .rdUnique, .upgrade, .wrBack, .masterReset].find? (fun o => opBits o == c)

/-- The 96 bits of a request word (R88). -/
def ReqWord.bits (w : ReqWord) (op : BitVec 4) : BitVec 96 :=
  w.epoch ++ BitVec.ofBool w.priv ++ BitVec.ofBool w.spec ++ op ++ w.lines ++ w.tag ++ w.tenant ++ w.master ++ w.addr ++ (0 : BitVec 16)

/-- The 4 bits of the coherence sideband (R213). -/
def ReqWord.sideband (w : ReqWord) : BitVec 4 := BitVec.ofBool w.dirty ++ w.rage

/-- The request that a word and its sidebands spell (R88, R213, R243): bits [15:0] are ignored. -/
def ReqWord.ofBits (b : BitVec 96) (side : BitVec 4) (desc : Option CDesc) : ReqWord :=
  { epoch := b.extractLsb' 94 2, priv := bit b 93, spec := bit b 92, lines := b.extractLsb' 86 2, tag := b.extractLsb' 74 12,
    tenant := b.extractLsb' 62 12, master := b.extractLsb' 54 8, addr := b.extractLsb' 16 38, dirty := bit side 3, rage := side.extractLsb' 0 3,
    desc := desc }

/-- The opcode field of a request word (R88). -/
def opField (b : BitVec 96) : BitVec 4 := b.extractLsb' 88 4

/-- The 304 bits of a cipher descriptor (R243). -/
def CDesc.bits (d : CDesc) : BitVec 304 :=
  d.tag ++ d.iv ++ BitVec.ofBool d.cv ++ BitVec.ofBool d.first ++ BitVec.ofBool d.last ++ d.stream ++ d.mode ++ BitVec.ofBool d.dir ++ d.slot ++
    d.du ++ d.len ++ d.resv

/-- The descriptor that 304 bits spell (R243). -/
def CDesc.ofBits (b : BitVec 304) : CDesc :=
  { cv := bit b 47, first := bit b 46, last := bit b 45, stream := b.extractLsb' 41 4, mode := b.extractLsb' 38 3, dir := bit b 37,
    slot := b.extractLsb' 27 10, du := b.extractLsb' 23 4, len := b.extractLsb' 6 17, iv := b.extractLsb' 48 128, tag := b.extractLsb' 176 128,
    resv := b.extractLsb' 0 6 }

/-- The sideband of a write line (R90). -/
def WLine.sideband (l : WLine) : BitVec 4 := l.epoch ++ BitVec.ofBool l.last ++ BitVec.ofBool l.poison

/-- The write line of a beat and its sideband (R90). -/
def WLine.ofBits (side : BitVec 4) (data : Line) : WLine := ⟨side.extractLsb' 2 2, bit side 1, bit side 0, data⟩

/-! ### Responses and credits -/

/-- The code of a status (R92). -/
def statusCode : Status → BitVec 4
  | .ok => 0x0 | .poison => 0x1 | .accessFault => 0x2 | .addrFault => 0x3 | .formatFault => 0x4 | .keyEmpty => 0x5
  | .cipherFail => 0x6 | .partition => 0x7 | .resetDone => 0x8 | .errMsg => 0x9 | .specRefused => 0xE | .notValid => 0xF

/-- The code of a coherence response (R214). -/
def crespCode : Cresp → BitVec 4
  | .none => 0 | .dataS => 1 | .dataE => 2 | .dataM => 3 | .dataO => 4 | .ack => 5 | .retry => 6 | .poison => 7 | .partition => 8

/-- The 32 bits of a response header (R91). -/
def Beat.header (b : Beat) : BitVec 32 :=
  statusCode b.status ++ BitVec.ofNat 2 b.line ++ BitVec.ofBool b.last ++ BitVec.ofBool b.corrected ++ b.tag ++ crespCode b.cresp ++ (0 : BitVec 8)

/-- The 132 bits of the cipher sideband (R259). -/
def Beat.sideband (b : Beat) : BitVec 132 := BitVec.ofNat 4 b.cstat ++ b.ctag

/-- An initialisation word (R94). -/
def initBits (epoch : BitVec 2) (req wr : Nat) : BitVec 16 := (1 : BitVec 1) ++ epoch ++ BitVec.ofNat 7 req ++ BitVec.ofNat 6 wr
/-- A return word (R94). -/
def returnBits (epoch : BitVec 2) (req wr : Nat) : BitVec 16 := (0 : BitVec 1) ++ epoch ++ BitVec.ofNat 3 req ++ BitVec.ofNat 3 wr ++ (0 : BitVec 7)

/-! ### Snoops -/

/-- The code of a snoop's type (R215). -/
def snpCode : SnpType → BitVec 4 | .down => 0x8 | .give => 0x9 | .drop => 0xA

/-- The 64 bits of a snoop (R215). -/
def Snoop.bits (s : Snoop) : BitVec 64 :=
  snpCode s.ty ++ BitVec.ofBool s.fwd ++ BitVec.ofNat 3 s.home ++ BitVec.ofNat 8 s.txn ++ BitVec.ofNat 6 s.req ++ BitVec.ofNat 38 (s.line / 64) ++
    (0 : BitVec 4)

/-- The code of a snoop answer (R216). -/
def ansCode : SnpAns → BitVec 2 | .gone => 1 | .kept => 2 | .fwd => 3

/-- The code of NEWSTATE (R216): 0 I, 1 S, 2 O; no other state stands there. -/
def newStateCode (c : CState) : BitVec 2 := if c = .s then 1 else if c = .o then 2 else 0

/-- The 16 bits of a snoop answer (R216): NEWSTATE and DIRTY stand only with RplFwd. -/
def answerBits (a : SnpAns) (new : CState) (dirty : Bool) (txn : BitVec 8) (home : Nat) : BitVec 16 :=
  let f := a == .fwd
  ansCode a ++ (if f then newStateCode new else 0) ++ BitVec.ofBool (f && dirty) ++ txn ++ BitVec.ofNat 3 home

end Sys2Proof.Machine
end

