-- ==== Sys2Proof/Machine/Ports.lean ====
section
/-!
DEFINITION. The commands of the ports (R88-R113): requests, write lines, leaving the queue, responses, flush and notices.
-/
namespace Sys2Proof.Machine
open Sys2Proof

/-- READ (R88). -/
def execRead (p : Port) (w : ReqWord) (s : State) : Host.Outcome State Fault Refusal := .next (s.accept p .read w)
/-- WRITE_POSTED (R89). -/
def execWritePosted (p : Port) (w : ReqWord) (s : State) : Host.Outcome State Fault Refusal := .next (s.accept p .writePosted w)
/-- WRITE_ACK (R89). -/
def execWriteAck (p : Port) (w : ReqWord) (s : State) : Host.Outcome State Fault Refusal := .next (s.accept p .writeAck w)
/-- RD_SHARED (R89, R213). -/
def execRdShared (p : Port) (w : ReqWord) (s : State) : Host.Outcome State Fault Refusal := .next (s.accept p .rdShared w)
/-- RD_UNIQUE (R89, R213). -/
def execRdUnique (p : Port) (w : ReqWord) (s : State) : Host.Outcome State Fault Refusal := .next (s.accept p .rdUnique w)
/-- UPGRADE (R89, R213). -/
def execUpgrade (p : Port) (w : ReqWord) (s : State) : Host.Outcome State Fault Refusal := .next (s.accept p .upgrade w)
/-- WR_BACK (R89, R213). -/
def execWrBack (p : Port) (w : ReqWord) (s : State) : Host.Outcome State Fault Refusal := .next (s.accept p .wrBack w)

/-- The port stands ready for a MASTER_RESET at once: room for its beat, no flush in progress, no hold on checks and none waiting before it (R81, R99, R108, R125). -/
def State.resetNow (s : State) (p : Port) : Bool :=
  s.room p 1 && !s.checkHeld && (s.port p).flush.isNone && !(s.port p).queue.any (fun r => r.op == .masterReset && r.bad.isNone)

/-- MASTER_RESET (R107): executed as it is accepted, or queued until the response FIFO has room (R99). -/
def execMasterReset (p : Port) (w : ReqWord) (s : State) : Host.Outcome State Fault Refusal :=
  .next (s.spendReq p w (fun a =>
    if formatCause p .masterReset w ≠ 0 then a.malformed p .masterReset 15 (formatCause p .masterReset w) w
    else if a.resetNow p then
      (match a.check p .masterReset w with
       | .refuse st code e => (a.refuse p { op := .masterReset, w := w } st code e).watch p
       | .pass _ _ => (a.masterReset p w (a.port p).queue []).watch p)
    else a.enqueue p { op := .masterReset, w := w }))

/-- UNLISTED_OPCODE (R89): refused with FORMAT_FAULT, cause 1. A code that the table lists is no such request and is taken as
the opcode it names. -/
def execUnlistedOpcode (p : Port) (op : BitVec 4) (w : ReqWord) (s : State) : Host.Outcome State Fault Refusal :=
  match opOf op with
  | some .masterReset => execMasterReset p w s
  | some o => .next (s.accept p o w)
  | none => .next (s.spendReq p w (fun a => a.malformed p .read op 1 w))

/-- WRITE_LINE (R90). -/
def execWriteLine (p : Port) (l : WLine) (s : State) : Host.Outcome State Fault Refusal := .next (s.takeLine p l)

/-- REQUEST_LEAVE_QUEUE (R118): the first request of the port's queue that may leave does. None leaves while a flush is in progress, which discards
them (R104; log entry 66). -/
def execRequestLeaveQueue (p : Port) (s : State) : Host.Outcome State Fault Refusal :=
  .next (if s.portsUp && (s.port p).flush.isNone then s.leaveFrom p [] [] (s.port p).queue else s)

/-- RESPONSE_PUSH (R93): in push mode the head beat moves. -/
def execResponsePush (p : Port) (s : State) : Host.Outcome State Fault Refusal :=
  .next (if !s.portsUp || (s.port p).pull then s else (s.deliver p).getD s)

/-- The beat of a pull on an empty port (R92, R93): its fields but STATUS are stated nowhere and are free (log entry 2). -/
def emptyBeat (k : Nat) : Beat :=
  { status := .notValid, line := (Config.freeWord k).toNat % 4, last := Config.freeBit k, corrected := Config.freeBit (k + 1),
    tag := (Config.freeWord (k + 1)).setWidth 12, cresp := .none, data := 0, cstat := 0, ctag := 0 }

/-- PULL_STROBE (R93): in pull mode the head beat is presented, or NOT_VALID; in push mode the strobe is ignored. -/
def execPullStrobe (p : Port) (s : State) : Host.Outcome State Fault Refusal :=
  .next (if !s.portsUp || !(s.port p).pull then s
    else match s.deliver p with
      | some t => t
      | none => (s.emit (.beat p (emptyBeat s.freeCount))).draw.draw)

/-- RESPONSE_RETURN (R92). -/
def execResponseReturn (m : RespMsg) (s : State) : Host.Outcome State Fault Refusal :=
  .next (if s.portsUp then s.response m else s)

/-- FLUSH_COMPLETE (R105): once the next epoch has no onward request outstanding, a flush ends with its initialisation word, or an enable that
waited for the same sends its word. A disable withholds the word, and FLUSH reads 1 until ENABLE is 1 again (R104, R106). -/
def execFlushComplete (p : Port) (s : State) : Host.Outcome State Fault Refusal :=
  .next (
    let q := s.port p
    if !s.portsUp || s.nextBusy p then s
    else if q.flush.isSome then (if q.flushOff || !s.enabled p then s.setPort p { q with live := false } else s.sendInit p)
    else if q.initDue && s.enabled p then s.sendInit p
    else s)

/-- COMPLETION_NOTICE (R132): a posted write's transaction is no longer outstanding. Of another request it says that its last access is issued at its home,
where its entry is free (R138; log entry 72). -/
def execCompletionNotice (p : Port) (txid : Nat) (s : State) : Host.Outcome State Fault Refusal :=
  .next (match (s.port p).find txid with
    | some o => if o.op ≠ .writePosted then (if o.share ∧ o.txid = txid then (s.setOnward p { o with share := false }).addShare o.home (-1) else s) else if o.txid = txid then s.endOnward p o else s.pieceDone p o txid .ok
    | none => s)

/-- BUDGET_WINDOW_START (R129): at a tick where FRAME_NO mod WINDOW is 0 a window begins, once. A WINDOW write in this frame waits for
the next tick (R134). -/
def execBudgetWindowStart (m : BitVec 8) (s : State) : Host.Outcome State Fault Refusal :=
  .next (if s.cyc = 0 ∧ s.frame % s.bud 0x3412 m = 0 ∧ !s.budget.rewind.contains m.toNat ∧ SMap.look s.budget.began m.toNat ≠ some s.frame then
      { s with budget := { s.budget with began := SMap.set s.budget.began m.toNat s.frame, used := SMap.del s.budget.used m.toNat, overMap := s.budget.overMap.filter (fun x => x ≠ m.toNat) } }
    else s)

end Sys2Proof.Machine
end

