-- ==== Sys2Proof/Machine/RegWrites.lean ====
section
/-!
DEFINITION. The commands that are writes of one register: each is a write on its path of the words that spell it, under the rules of WriteOps (R366, R371,
R374-R376, R379, R380, R383, R384, R391).
-/
namespace Sys2Proof.Machine
open Sys2Proof

/-- START_CMD 1 (R345). -/
def execStartCmdRestart (h : Path) (s : State) : Host.Outcome State Fault Refusal :=
  .next (s.write h 0x1100 7 [1])

/-- START_CMD 2 (R357), written here or carried over the ring from the tile it was written at. -/
def execStartCmdShutdown (h : Path) (carried : Bool) (s : State) : Host.Outcome State Fault Refusal :=
  .next (if carried then s.shutdownCmd else s.write h 0x1100 7 [2])

/-- HM_CMD 1 (R351). -/
def execHmOpen (h : Path) (s : State) : Host.Outcome State Fault Refusal :=
  .next (s.write h 0x1110 1 [1])

/-- The words of HM_PAGE written in order; that of subindex 0x80 programs the page (R351). -/
def execHmPageProgram (h : Path) (page : List Word) (s : State) : Host.Outcome State Fault Refusal :=
  .next (s.write h 0x1111 1 (page.take 128))

/-- HM_CMD 2 (R351). -/
def execHmClose (h : Path) (s : State) : Host.Outcome State Fault Refusal :=
  .next (s.write h 0x1110 1 [2])

/-- HM_CMD 3 (R351). -/
def execHmAbandon (h : Path) (s : State) : Host.Outcome State Fault Refusal :=
  .next (s.write h 0x1110 1 [3])

/-- COMMIT 1 (R80). -/
def execCommitArmTile (h : Path) (s : State) : Host.Outcome State Fault Refusal :=
  .next (s.write h 0x1500 1 [1])

/-- COMMIT 2 (R80, R384). -/
def execCommitArmPackage (h : Path) (s : State) : Host.Outcome State Fault Refusal :=
  .next (s.write h 0x1500 1 [2])

/-- PD_ENABLE (R31). -/
def execPdEnableWrite (h : Path) (v : BitVec 32) (s : State) : Host.Outcome State Fault Refusal :=
  .next (s.write h 0x1201 1 (two v.toNat))

/-- DECODE_ADDR (R55). -/
def execDecodeAddrWrite (h : Path) (v : BitVec 64) (s : State) : Host.Outcome State Fault Refusal :=
  .next (s.write h 0x2005 1 (four v.toNat))

/-- WATERMARKS of a port (R102). -/
def execWatermarksWrite (h : Path) (p : Port) (v : Word) (s : State) : Host.Outcome State Fault Refusal :=
  .next (s.write h (0x3000 + p) 4 [v])

/-- ENABLE of a port set to 1 (R95, R106). -/
def execPortEnable (h : Path) (p : Port) (s : State) : Host.Outcome State Fault Refusal :=
  .next (s.write h (0x3000 + p) 1 [s.reg (0x3000 + p) 1 ||| 0x8000])

/-- ENABLE of a port set to 0 (R106). -/
def execPortDisable (h : Path) (p : Port) (s : State) : Host.Outcome State Fault Refusal :=
  .next (s.write h (0x3000 + p) 1 [s.reg (0x3000 + p) 1 &&& 0x7FFF])

/-- FLUSH of a port (R104). -/
def execPortFlush (h : Path) (p : Port) (s : State) : Host.Outcome State Fault Refusal :=
  .next (s.write h (0x3000 + p) 1 [s.reg (0x3000 + p) 1 ||| 0x4000])

/-- PULL of a port (R93, R112). -/
def execPortPullSet (h : Path) (p : Port) (on : Bool) (s : State) : Host.Outcome State Fault Refusal :=
  .next (s.write h (0x3000 + p) 1 [setBit (s.reg (0x3000 + p) 1) 13 on])

/-- XOFF_PIN of a port (R103, R112). -/
def execPortXoffPinSet (h : Path) (p : Port) (pin : BitVec 4) (s : State) : Host.Outcome State Fault Refusal :=
  .next (s.write h (0x3000 + p) 1 [(s.reg (0x3000 + p) 1 &&& 0xFF0F) ||| (pin.setWidth 16 <<< 4)])

/-- CREDITS of a port (R111). -/
def execCreditsWrite (h : Path) (p : Port) (v : Word) (s : State) : Host.Outcome State Fault Refusal :=
  .next (s.write h (0x3000 + p) 3 [v])

/-- MBOX_POP (R113). -/
def execMboxPop (h : Path) (p : Port) (s : State) : Host.Outcome State Fault Refusal :=
  .next (s.write h (0x3100 + p) 5 [1])

/-- MBOX_CLEAR (R113). -/
def execMboxClear (h : Path) (p : Port) (s : State) : Host.Outcome State Fault Refusal :=
  .next (s.write h (0x3100 + p) 6 [1])

/-- BUDGET of a master (R128, R133). -/
def execBudgetWrite (h : Path) (m : BitVec 8) (v : Word) (s : State) : Host.Outcome State Fault Refusal :=
  .next (s.write h (budIdx 0x3410 m).1 (budIdx 0x3410 m).2 [v])

/-- OUT_CAP of a master (R132, R133). -/
def execOutCapWrite (h : Path) (m : BitVec 8) (v : Word) (s : State) : Host.Outcome State Fault Refusal :=
  .next (s.write h (budIdx 0x3414 m).1 (budIdx 0x3414 m).2 [v])

/-- WINDOW of a master (R134). -/
def execWindowWrite (h : Path) (m : BitVec 8) (v : Word) (s : State) : Host.Outcome State Fault Refusal :=
  .next (s.write h (budIdx 0x3412 m).1 (budIdx 0x3412 m).2 [v])

/-- The queue of a tenant or the default queue of a port (R137). -/
def execTenantMapWrite (h : Path) (who : BitVec 12 ⊕ Port) (v : Word) (s : State) : Host.Outcome State Fault Refusal :=
  .next (match who with
    | .inl t => s.write h (0x3600 + t.toNat / 4) (0x40 + t.toNat % 4) [v]
    | .inr p => s.write h (0x3600 + p) 0x50 [v])

/-- RATE, BURST or WEIGHT of a queue (R143). -/
def execShaperWrite (h : Path) (q : Fin 1024) (r : ShaperReg) (v : Word) (s : State) : Host.Outcome State Fault Refusal :=
  .next (s.write h (0x3600 + q) (match r with | .rate => 1 | .burst => 2 | .weight => 3) [v])

/-- LAT_MODE of a queue, or SAMPLE_PERIOD (R147). -/
def execLatModeWrite (h : Path) (q : Option (Fin 1024)) (v : Word) (s : State) : Host.Outcome State Fault Refusal :=
  .next (match q with
    | some k => s.write h (0x3600 + k) 4 [v]
    | none => s.write h 0x3600 0x70 [v])

/-- A word of the scheduler (R176). -/
def execSchedWrite (h : Path) (r : SchedReg) (v : Word) (s : State) : Host.Outcome State Fault Refusal :=
  .next (s.write h 0x4000 (match r with | .mode => 1 | .ageT => 2 | .ageL => 3 | .ageB => 4 | .wrWatermarks => 5 | .pdIdle => 6) [v])

/-- OVERRIDE of a timing value (R171). -/
def execOverrideWrite (h : Path) (k : Fin 17) (v : Word) (s : State) : Host.Outcome State Fault Refusal :=
  .next (s.write h 0x4011 (k + 1) [v])

/-- A word of Pickle (R205). -/
def execPickleWrite (h : Path) (r : PickleReg) (v : Word) (s : State) : Host.Outcome State Fault Refusal :=
  .next (s.write h 0x4800 (match r with | .period => 1 | .ctrl => 2 | .ceLimit => 5) [v])

/-- REBUILD_LIMIT (R207). -/
def execRebuildLimitWrite (h : Path) (v : Word) (s : State) : Host.Outcome State Fault Refusal :=
  .next (s.write h 0x4900 3 [v])

/-- A word of the home agent (R239). -/
def execHaWrite (h : Path) (r : HaReg) (v : Word) (s : State) : Host.Outcome State Fault Refusal :=
  .next (s.write h 0x5000 (match r with | .ctrl => 1 | .snoopLimit => 2 | .reserveLimit => 3 | .holdTime => 4) [v])

/-- SLOT_CMD 1 (R263). -/
def execSlotLoadKind1 (h : Path) (k : Fin 1024) (s : State) : Host.Outcome State Fault Refusal :=
  .next (s.write h (0x6000 + k) 1 [1])

/-- SLOT_CMD 2 (R263). -/
def execSlotLoadKind2 (h : Path) (k : Fin 1024) (s : State) : Host.Outcome State Fault Refusal :=
  .next (s.write h (0x6000 + k) 1 [2])

/-- SLOT_CMD 3 (R263). -/
def execSlotLoadKind3 (h : Path) (k : Fin 1024) (s : State) : Host.Outcome State Fault Refusal :=
  .next (s.write h (0x6000 + k) 1 [3])

/-- SLOT_CMD 0xEE (R264). -/
def execSlotErase (h : Path) (k : Fin 1024) (s : State) : Host.Outcome State Fault Refusal :=
  .next (s.write h (0x6000 + k) 1 [0xEE])

/-- A KEY word of a slot (R263). -/
def execKeyWrite (h : Path) (k : Fin 1024) (w : Fin 32) (v : Word) (s : State) : Host.Outcome State Fault Refusal :=
  .next (s.write h (0x6000 + k) (0x10 + w) [v])

/-- ERASE_ALL (R265). -/
def execEraseAll (h : Path) (s : State) : Host.Outcome State Fault Refusal :=
  .next (s.write h 0x6400 1 [0xEE])

/-- A point of a coefficient set (R284, R301); the tile-wide kinds have no group. -/
def execCoeffSetWrite (h : Path) (kind : Fin 7) (g : Fin 16) (k : Fin 5) (v : Word) (s : State) : Host.Outcome State Fault Refusal :=
  .next (s.write h (coefIdx kind g) (k + 1) [v])

/-- REPAIR_CMD code 1 (R334). -/
def execRepairLane (h : Path) (s : State) : Host.Outcome State Fault Refusal :=
  .next (s.write h 0x7801 1 [0x1000])

/-- REPAIR_CMD code 3 (R334). -/
def execRepairRetireBank (h : Path) (s : State) : Host.Outcome State Fault Refusal :=
  .next (s.write h 0x7801 1 [0x3000])

/-- REPAIR_CMD code 4 (R334). -/
def execRepairRetirePc (h : Path) (s : State) : Host.Outcome State Fault Refusal :=
  .next (s.write h 0x7801 1 [0x4000])

/-- REPAIR_CMD code 5 (R334). -/
def execRepairRetireStack (h : Path) (s : State) : Host.Outcome State Fault Refusal :=
  .next (s.write h 0x7801 1 [0x5000])

/-- REPAIR_CMD code 6 (R334). -/
def execRepairFenceTile (h : Path) (u : BitVec 4) (s : State) : Host.Outcome State Fault Refusal :=
  .next (s.write h 0x7801 1 [0x6000 ||| (u.setWidth 16 <<< 8)])

/-- REPAIR_CMD code 7 (R323, R334), written at the anchor or carried to the fenced tile. -/
def execRepairRestartTile (h : Path) (u : BitVec 4) (carried : Bool) (s : State) : Host.Outcome State Fault Refusal :=
  .next (if carried then s.restartFenced else s.write h 0x7801 1 [0x7000 ||| (u.setWidth 16 <<< 8)])

/-- REPAIR_CMD code 8 (R327, R334). -/
def execRepairFosterSplit (h : Path) (s : State) : Host.Outcome State Fault Refusal :=
  .next (s.write h 0x7801 1 [0x8000])

/-- REPAIR_CMD code 0xE (R330, R334). -/
def execRepairMapClear (h : Path) (s : State) : Host.Outcome State Fault Refusal :=
  .next (s.write h 0x7801 1 [0xE000])

/-- UNLOCK (R379, R380). -/
def execUnlockWrite (h : Path) (v : Word) (s : State) : Host.Outcome State Fault Refusal :=
  .next (s.write h 0x1400 1 [v])

/-- PHASE (R382). -/
def execPhaseWrite (h : Path) (v : Word) (s : State) : Host.Outcome State Fault Refusal :=
  .next (s.write h 0x1500 0 [v])

/-- SNAPSHOT 1 (R377). -/
def execSnapshotTile (h : Path) (s : State) : Host.Outcome State Fault Refusal :=
  .next (s.write h 0x8000 1 [1])

/-- SNAPSHOT 2 (R377, R384). -/
def execSnapshotPackage (h : Path) (s : State) : Host.Outcome State Fault Refusal :=
  .next (s.write h 0x8000 1 [2])

/-- LOG_POP (R389). -/
def execLogPop (h : Path) (s : State) : Host.Outcome State Fault Refusal :=
  .next (s.write h 0x9000 5 [1])

/-- LOG_CLEAR (R388, R389). -/
def execLogClear (h : Path) (s : State) : Host.Outcome State Fault Refusal :=
  .next (s.write h 0x9000 6 [1])

end Sys2Proof.Machine
end

