-- ==== Sys2Proof/Machine/Repair.lean ====
section
/-!
DEFINITION. The commands of faults, repair and the ring that are no register writes (R307-R329).
-/
namespace Sys2Proof.Machine
open Sys2Proof

/-! ### Recoveries -/

/-- Actions that a step brings about take effect at this tick, ahead of those that were due at the next (R310, R311). -/
def State.atOnce (s : State) (f : State → State) : State :=
  let old := s.repair.due
  let s1 := (f { s with repair := { s.repair with due := [] } }).runDue
  { s1 with repair := { s1.repair with due := old ++ s1.repair.due } }

/-- What is left to the pseudo-channels of a rung 1 recovery (R305, R310): those Anneal could not train are retired, and a lane neither marked nor
spared is a pseudo-channel fault. -/
def State.afterLane (s : State) (r : Recov) : State :=
  let g := r.u.pc / 4
  let bad := (List.range 4).filter (fun k => bit r.fails k)
  let s1 := bad.foldl (fun z k => z.pcFault ⟨4 * g + k, 0, 0, 0⟩ .lane) s
  (r.lanes.filter (fun x => !r.spared.contains x && !(markedLanes (s.pc x.1).marks).contains x.2)).foldl
    (fun z x => (z.rungUp ⟨x.1, 0, 0, x.2⟩ 1 4).pcFault ⟨x.1, 0, 0, x.2⟩ .lane) s1

/-- The result of a rung 1 recovery (R310). -/
def Recov.laneResult (r : Recov) : RecResult :=
  if r.fails ≠ 0 then .failed else if !r.lanes.isEmpty && r.spared.isEmpty then .noSpare else .passed

/-- The deep index of a row (R48). -/
def State.deepOf (s : State) (bank row : Nat) : Nat := bank / 16 * 2 ^ s.phy.rowBits + row

/-- A row replaced (R311): it counts and enters the repair map, event 0x0E07. -/
def State.rowDone (s : State) (c : Nat) (x : Nat × Nat) : State :=
  let q := s.pc c
  let s2 := s.setPc c { q with rowsSoft := min (q.rowsSoft + 1) 255, rowBad := SMap.del q.rowBad (65536 * x.1 + x.2) }
  (s2.addMap 3 c x.1 (s2.deepOf x.1 x.2)).log1 0x0E07 [w16 c, w16 x.1, w16 x.2, Config.formCode false]

/-- A repair row used up (R305, R311). -/
def State.useRow (s : State) (c : Nat) (x : Nat × Nat) : State :=
  let q := s.pc c
  s.setPc c { q with rowSp := SMap.put 0 q.rowSp (x.1 / 4) (q.rowSp.getD (x.1 / 4) 0 - 1) }

/-- Every line of a row under repair decoded as written when it was read back (R311). -/
def State.rowVerified (s : State) (r : Recov) (x : Nat × Nat) : Bool :=
  (List.range 16).all (fun k => r.verified.contains (s.map.unplace ⟨r.u.pc, x.1, x.2, k⟩))

/-- The close of rung 2 (R311): of the rows replaced, those that verified count; the banks of the others are retired at this tick. `ok`: the replacement itself
succeeded. -/
def State.closeRows (s : State) (r : Recov) (ok : Bool) : State :=
  let good := r.rows.filter (fun x => ok && s.rowVerified r x)
  let bad := r.rows.filter (fun x => !(ok && s.rowVerified r x))
  let s1 := good.foldl (fun z x => z.rowDone r.u.pc x) (r.rows.foldl (fun z x => z.useRow r.u.pc x) s)
  (s1.endRecovery r (if bad.isEmpty then .passed else .failed)).atOnce (fun z => bad.foldl (fun y x => y.bankFault ⟨r.u.pc, x.1, x.2, 0⟩) z)

/-- RECOVERY_CLOSE (R307, R310, R311): rung 1 closes after 26 frames with what its Anneal found, rung 2 after 6 with what its lines verified, failed where the
stack reports (`res`) that it replaced no row; the next recovery opens at the same tick. -/
def execRecoveryClose (res : RecResult) (s : State) : Host.Outcome State Fault Refusal :=
  .next (match s.repair.recov with
    | none => s
    | some r =>
      if s.frame < r.opened.toNat + (if r.rung = 1 then 26 else 6) then s
      else
        let s1 := if r.rung = 1 then (s.endRecovery r r.laneResult).atOnce (fun z => z.afterLane r) else s.closeRows r (res == .passed)
        if s1.cyc = 0 then s1.openRecovery else s1)

/-! ### Notices -/

/-- RETIREMENT_NOTICE (R199, R312, R313, R315): a bank (kind 0), pseudo-channel (1) or stack (2) of another tile has left service; the stand-ins serve from the
next tick. At the anchor the unit of a tile that goes on enters the repair map (R330); a fostered tile's stack does not. -/
def execRetirementNotice (u : TileNo) (kind : Fin 3) (pc bank : Pc) (s : State) : Host.Outcome State Fault Refusal :=
  .next (
    let e := (u.val, kind.val, (if kind.val = 2 then 0 else pc.val), (if kind.val = 0 then bank.val else 0))
    if s.n ≤ u.val ∨ u.val = s.t ∨ s.repair.others.contains e then s
    else
      let alive := match SMap.look s.anvil.hb u.val with
        | some h => decide (h.missed = 0) && h.st != TileSt.fenced
        | none => false
      let s1 := { s with repair := { s.repair with
                           others := s.repair.others ++ [e], dropped := if kind.val = 2 ∧ alive then setBit s.repair.dropped u true else s.repair.dropped,
                           map := if s.isAnchor && alive then s.repair.map ++ [(⟨5 + kind.val, u.val, e.2.2.1, e.2.2.2, 0⟩ : MapEnt)] else s.repair.map,
                           mapDue := s.repair.mapDue || (s.isAnchor && alive) },
                         seam := { s.seam with standFrom := if s.cyc = 0 then s.anvil.frameNo else s.anvil.frameNo + 1 } }
      let s2 := if kind.val = 2 then s1.loseStack u else s1.countGone s false
      s2.unguarded)

/-- FENCE_NOTICE (R82, R318, R319): to this tile, which fences itself; of another tile, which is fostered at the first tick after. -/
def execFenceNotice (u : TileNo) (s : State) : Host.Outcome State Fault Refusal :=
  .next (
    if !s.dom 29 then s
    else if u.val = s.t then s.fenceTile .notice
    else if s.n ≤ u.val ∨ !bit s.repair.view u.val ∨ s.repair.due.contains (.foster u.val) then s
    else
      let h := s.anvil.hb.getD u.val {}
      ({ s with anvil := { s.anvil with hb := SMap.set s.anvil.hb u.val { h with st := .fenced } } }).dueAct (.foster u.val))

/-! ### The ring -/

/-- A link's bit in LINK_STATE (R324, R333). Traffic leaves a broken link at once, and returns to a restored one at the next tick. -/
def State.setLink (s : State) (k : Nat) (b : Bool) : State := { s with repair := { s.repair with links := setBit s.repair.links k b, cut := if b then setBit s.repair.cut k true else s.repair.cut } }

/-- The link at a side of this tile: 0 to tile t + 1, 1 to tile t − 1 (R333). -/
def State.linkAt (s : State) (side : Nat) : Nat := if side = 0 then s.t else (s.t + s.n - 1) % s.n

/-- LINK_TIMEOUT (R324): a link carried no valid flit for 256 cycles. -/
def execLinkTimeout (side : Fin 2) (s : State) : Host.Outcome State Fault Refusal :=
  .next (
    let k := s.linkAt side
    if s.n ≤ 1 ∨ bit s.repair.links k then s
    else
      let s1 := ((s.setLink k true).log1 0x0E0D [w16 k]).fault .link ⟨k, 0, 0, 0⟩
      ((s1.ring (.linkNotice k)).ring (.resend side)).linksKnown)

/-- LINK_NOTICE (R324-R326). -/
def execLinkNotice (k : TileNo) (s : State) : Host.Outcome State Fault Refusal :=
  .next (if s.n ≤ 1 ∨ s.n ≤ k.val ∨ bit s.repair.links k.val then s else (s.setLink k true).linksKnown)

/-- LINK_RESTORE (R324, R328): event 0x0E0E at the link's own ring stops; with at most one break left in a split the heal is declared for 2 ticks
later, by the anchor. -/
def execLinkRestore (k : TileNo) (s : State) : Host.Outcome State Fault Refusal :=
  .next (
    if !bit s.repair.links k.val then s
    else
      let s1 := s.setLink k false
      let s2 := if k.val = s.linkAt 0 ∨ k.val = s.linkAt 1 then s1.log1 0x0E0E [w16 k] else s1
      if s2.brokenLinks.length ≤ 1 ∧ s2.repair.split.isSome ∧ s2.repair.healAt.isNone then
        let h := BitVec.ofNat 64 (s2.frame + 2)
        let s3 := { s2 with repair := { s2.repair with healAt := some h } }
        if s3.isAnchor then s3.ring (.heal h) else s3
      else s2)

/-- Rows put on the resynchronisation list of 4096 (R203). -/
def State.listRows (s : State) (rows : List Nat) : State :=
  let l := rows.foldl insNat s.seam.resync
  if l.length ≤ 4096 then { s with seam := { s.seam with resync := l } }
  else
    let s1 := { s with seam := { s.seam with resync := l.take 4096, resyncAll := true } }
    if s.seam.resyncAll then s1 else s1.log1 0x0907 []

/-- Seam writes without their acknowledgement fail at the split tick (R203); the rebuild pauses, and Pickle rewrites no Seam line (R202). -/
def State.splitSeam (s : State) : State :=
  let ws := s.seam.writes.filter (fun w => !w.acked)
  let s1 := s.listRows (ws.map (fun w => s.rowOf w.line))
  let s2 := (ws.map (fun w => { w with acked := true, failed := true })).foldl (fun z w => (z.setSeam w).endSeam w 2) s1
  (s2.abortJob).dropParts (fun p => p.origin == .pickleBack && p.lns.any (fun l => s2.lineKind l.addr != .ordinary))

/-- SPLIT_APPLY (R202, R203, R235, R236, R326, R327): the split tick D of this tile's arc. -/
def execSplitApply (s : State) : Host.Outcome State Fault Refusal :=
  .next (match s.repair.splitAt with
    | none => s
    | some d =>
      if s.frame < d.toNat then s
      else
        let arc := s.arcOf s.t
        let lead := s.arcLeader = some s.t ∧ !bit arc s.repair.anchor
        let s1 := { s with repair := { s.repair with splitAt := none, split := some d, arc := arc, leader := decide lead } }
        let s2 := s1.log1 0x0E0F (two d.toNat ++ [arc.setWidth 16])
        let s3 := if s2.map.seam = 0 then s2
          else (({ s2 with seam := { s2.seam with readOnly := true } }).log1 0x0905 []).splitSeam
        (s3.homeSplit).endOutstanding (fun u => s3.across u) .across)

/-- The configuration of a tile that rejoins at the heal (R329): an equal digest takes the anchor's CONFIG_GEN; otherwise the package-wide group is
copied within 4 frames, in which the ports hold their requests. -/
def State.reconcile (s : State) (gen digest : BitVec 32) (group : List (Nat × Word)) (differs : Bool) : State :=
  if s.digest false = digest then { s with anvil := { s.anvil with gen := gen } }
  else { s with repair := { s.repair with copying := some ⟨gen, digest, group, s.anvil.frameNo + 4, differs⟩ } }

/-- HEAL_APPLY (R76, R204, R238, R328-R330): the heal tick H, as this tile learnt of it or as the anchor's declaration names it. `gen` and `digest` are the anchor's,
`group` its package-wide words, `stillDiffers` that the copy of them does not arrive intact; a tile of the other arc takes the anchor's tick marker, and the anchor
sends its CONFIG_GEN and digest. -/
def execHealApply (gen digest : BitVec 32) (group : List (Nat × Word)) (stillDiffers : Bool) (e : HealEnv) (s : State) :
    Host.Outcome State Fault Refusal :=
  .next (match s.repair.healAt with
    | none => s
    | some h =>
      let h := e.at_.getD h
      if s.frame < h.toNat ∨ s.repair.split.isNone then s
      else
        let back := !bit s.repair.arc s.repair.anchor
        let s1 := { s with repair := { s.repair with healAt := none, split := none, arc := 0xFF, leader := false } }
        let s2 := s1.log1 0x0E10 (two h.toNat)
        let s2 := if back then s2.takeMarker e.mark else s2
        let s3 := { s2 with seam := { s2.seam with readOnly := false, resyncing := s2.map.seam != 0, rowsDone := [],
                                                   listed := e.rows.foldl insNat s2.seam.resync, listedAll := e.whole || s2.seam.resyncAll } }
        let s4 := s3.homeHeal
        let s4 := if s4.repair.mapDue && !s4.isAnchor then s4.ring (.repairEntries (s4.repair.map.filter (fun x => x.tile == s4.t))) else s4
        let s4 := if s4.isAnchor then s4.ring (.config s4.anvil.gen (s4.digest false)) else s4
        let s5 := if back then s4.reconcile gen digest group stillDiffers else s4
        if back && e.fostered then s5.fenceTile .notice else s5)

end Sys2Proof.Machine
end

