-- ==== Sys2Proof/Machine/Sched.lean ====
section
/-!
DEFINITION. The commands of the queues and the schedulers (R146, R147, R154, R155, R160, R183, R408, R17) that are no register writes.
-/
namespace Sys2Proof.Machine
open Sys2Proof

/-- REQUEST_RELEASE (R146): a part joins its pseudo-channel's queue, and the Seam engine takes what has come to it (R195). -/
def execRequestRelease (pc : Pc) (s : State) : Host.Outcome State Fault Refusal :=
  .next (if s.dom 4 && s.pcPowered pc && !(s.pc pc).retired then (s.release pc).seamPump pc else s)

/-- The depth and delay that a sample at the frame's tick records for a queue: of requests that joined before it (R147). -/
def State.sampleOf (s : State) (q : Nat) : Nat × Nat :=
  let tick := s.clk.now - s.cyc
  let l := s.sched.parts.filter (fun p => p.queue == q && decide (p.joined < tick))
  let d := (l.map (fun p => (p.req.tile, p.req.port, p.req.txid))).eraseDups.length
  match l.map (fun p => p.joined) with
  | [] => (0, 0)
  | x :: r => (d, min ((tick - minOf x r) / 16) 0xFFFF)

/-- LATENCY_SAMPLE (R147): once at a tick where FRAME_NO mod SAMPLE_PERIOD is 0. -/
def execLatencySample (s : State) : Host.Outcome State Fault Refusal :=
  .next (
    if s.frame % s.sched.samplePeriod.toNat ≠ 0 ∨ s.sched.sampledAt = some s.frame then s
    else
      let qs := ((s.queues.map (fun x => x.1)) ++ (s.sched.parts.map (fun p => p.queue))).eraseDups.filter (fun q => decide (q < 1024))
      let s1 := s.each qs (fun a q =>
        let st := a.q q
        if st.latMode = 0 then a.setQ q { st with latDepth := (s.sampleOf q).1, latDelay := (s.sampleOf q).2 } else a)
      { s1 with sched := { s1.sched with sampleSeq := s1.sched.sampleSeq + 1, sampledAt := some s.frame } })

/-- A class's age limit (R154, R176). -/
def State.ageLimit (s : State) (c : Cls) : Nat :=
  match c with
  | .p => 0
  | .t => (s.reg 0x4000 2).toNat
  | .l => (s.reg 0x4000 3).toNat
  | .bh => (s.reg 0x4000 4).toNat
  | .bl => (s.reg 0x4000 4).toNat

/-- A request of a class may rise no further (R154): one that was demoted stops at T, an internal one at L. -/
def atCeiling (c : Cls) (demoted internal : Bool) : Bool := c == .p || (demoted && c == .t) || (internal && c == .l)

/-- A part past its limit rises one step, its age 0 (R154); one in panic keeps class P (R168). -/
def State.promote (s : State) (stamp : Nat) (p : Part) : Part :=
  if atCeiling p.calm p.req.demoted p.internal || decide (p.age < s.ageLimit p.calm + 1) then p
  else
    let up := clsUp p.calm
    let cls := if p.cls = .p then .p else up
    { p with calm := up, cls := cls, age := 0, promoted := some stamp,
             pSince := if cls = .p ∧ p.cls ≠ .p ∧ p.rel.isSome then some s.clk.now else p.pSince }

/-- A request that is no part yet rises in the same way (R154). -/
def State.promoteReq (s : State) (stamp : Nat) (r : HReq) : HReq :=
  if atCeiling r.cls r.demoted (internalPort r.port) || decide (r.age < s.ageLimit r.cls + 1) then r
  else { r with cls := clsUp r.cls, age := 0, promoted := some stamp }

/-- A request that a port has passed onward rises in the same way (R154). -/
def State.promoteOnward (s : State) (stamp : Nat) (o : Onward) : Onward :=
  if atCeiling o.cls o.demoted false || decide (o.age < s.ageLimit o.cls + 1) then o
  else { o with cls := clsUp o.cls, age := 0, promoted := some stamp }

/-- AGE_PROMOTION (R154). -/
def execAgePromotion (s : State) : Host.Outcome State Fault Refusal :=
  .next (
    let k := s.sched.promos + 1
    ({ s with sched := { s.sched with promos := k, parts := s.sched.parts.map (s.promote k) } }).mapReqs (s.promoteReq k) (s.promoteOnward k))

/-- PANIC_NOTICE (R155): the port's unissued parts that were not demoted take class P, or return to the class they would hold. -/
def execPanicNotice (u : TileNo) (p : Port) (on : Bool) (s : State) : Host.Outcome State Fault Refusal :=
  .next (
    let key := (u.val, p.val)
    let others := s.sched.panics.filter (fun x => x ≠ key)
    let f := fun (x : Part) =>
      if x.req.tile = u.val ∧ x.req.port = p ∧ !x.req.demoted then
        (if on then { x with cls := Cls.p, pSince := if x.rel.isSome ∧ x.pSince.isNone then some s.clk.now else x.pSince }
         else { x with cls := x.calm, pSince := if x.calm = Cls.p then x.pSince else none })
      else x
    { s with sched := { s.sched with panics := if on then others ++ [key] else others, parts := s.sched.parts.map f } })

/-- ACCESS_ISSUE (R160). -/
def execAccessIssue (pc : Pc) (s : State) : Host.Outcome State Fault Refusal := .next (s.accessNow pc)

/-- READ_DATA_RETURN (R183): the next line on the pseudo-channel's bus, with the errors that lanes 0 to 35 brought. -/
def execReadDataReturn (pc : Pc) (errs : List (Fin 36 × Word)) (s : State) : Host.Outcome State Fault Refusal :=
  .next (s.readArrives pc (errs.map (fun e => (e.1.val, e.2))))

/-- READ_DATA_ABSENT (R408). -/
def execReadDataAbsent (pc : Pc) (s : State) : Host.Outcome State Fault Refusal := .next (s.readAbsent pc)

/-- WRITE_DATA_DONE (R17). -/
def execWriteDataDone (pc : Pc) (ok : Bool) (s : State) : Host.Outcome State Fault Refusal := .next (s.writeArrives pc ok)

end Sys2Proof.Machine
end

