-- ==== Sys2Proof/Machine/Dispatch.lean ====
section
/-!
DEFINITION. The one match from commands to their meanings, one arm a row of spec/opcode_table.json.
-/
namespace Sys2Proof.Machine
open Sys2Proof

/-- A command's effect on everything but the queue. -/
def exec (i : Instr) (s : State) : Host.Outcome State Fault Refusal :=
  match i with
  | .powerOn => Sys2Proof.Machine.execPowerOn s
  | .resetRelease => Sys2Proof.Machine.execResetRelease s
  | .resetAssert lowNs => Sys2Proof.Machine.execResetAssert lowNs s
  | .pwrfailFall lowNs => Sys2Proof.Machine.execPwrfailFall lowNs s
  | .pwrfailRise => Sys2Proof.Machine.execPwrfailRise s
  | .start e => Sys2Proof.Machine.execStart e s
  | .startRetry => Sys2Proof.Machine.execStartRetry s
  | .startTimeout => Sys2Proof.Machine.execStartTimeout s
  | .startCmdRestart h => Sys2Proof.Machine.execStartCmdRestart h s
  | .startCmdShutdown h carried => Sys2Proof.Machine.execStartCmdShutdown h carried s
  | .tallyHourly => Sys2Proof.Machine.execTallyHourly s
  | .hmOpen h => Sys2Proof.Machine.execHmOpen h s
  | .hmEraseDone ok => Sys2Proof.Machine.execHmEraseDone ok s
  | .hmPageProgram h page => Sys2Proof.Machine.execHmPageProgram h page s
  | .hmClose h => Sys2Proof.Machine.execHmClose h s
  | .hmAbandon h => Sys2Proof.Machine.execHmAbandon h s
  | .repairMapWrite => Sys2Proof.Machine.execRepairMapWrite s
  | .frameTick => Sys2Proof.Machine.execFrameTick s
  | .slotStart => Sys2Proof.Machine.execSlotStart s
  | .refreshDebtAccrue pc bank => Sys2Proof.Machine.execRefreshDebtAccrue pc bank s
  | .forcedRefresh pc => Sys2Proof.Machine.execForcedRefresh pc s
  | .perBankRefresh pc => Sys2Proof.Machine.execPerBankRefresh pc s
  | .allBankRefresh pc => Sys2Proof.Machine.execAllBankRefresh pc s
  | .lockstepMismatch => Sys2Proof.Machine.execLockstepMismatch s
  | .heartbeatReceive hb => Sys2Proof.Machine.execHeartbeatReceive hb s
  | .heartbeatLoss u => Sys2Proof.Machine.execHeartbeatLoss u s
  | .commitArmTile h => Sys2Proof.Machine.execCommitArmTile h s
  | .commitArmPackage h => Sys2Proof.Machine.execCommitArmPackage h s
  | .commitPrepare f gen digest => Sys2Proof.Machine.execCommitPrepare f gen digest s
  | .commitVote u digest => Sys2Proof.Machine.execCommitVote u digest s
  | .commitDecide => Sys2Proof.Machine.execCommitDecide s
  | .commitGo => Sys2Proof.Machine.execCommitGo s
  | .commitAbort missing differing => Sys2Proof.Machine.execCommitAbort missing differing s
  | .commitApply => Sys2Proof.Machine.execCommitApply s
  | .mapInitDone => Sys2Proof.Machine.execMapInitDone s
  | .commitHoldTimeout => Sys2Proof.Machine.execCommitHoldTimeout s
  | .pdEnableWrite h v => Sys2Proof.Machine.execPdEnableWrite h v s
  | .domainPowered d => Sys2Proof.Machine.execDomainPowered d s
  | .decodeAddrWrite h v => Sys2Proof.Machine.execDecodeAddrWrite h v s
  | .read p w => Sys2Proof.Machine.execRead p w s
  | .writePosted p w => Sys2Proof.Machine.execWritePosted p w s
  | .writeAck p w => Sys2Proof.Machine.execWriteAck p w s
  | .rdShared p w => Sys2Proof.Machine.execRdShared p w s
  | .rdUnique p w => Sys2Proof.Machine.execRdUnique p w s
  | .upgrade p w => Sys2Proof.Machine.execUpgrade p w s
  | .wrBack p w => Sys2Proof.Machine.execWrBack p w s
  | .masterReset p w => Sys2Proof.Machine.execMasterReset p w s
  | .writeLine p l => Sys2Proof.Machine.execWriteLine p l s
  | .requestLeaveQueue p => Sys2Proof.Machine.execRequestLeaveQueue p s
  | .responsePush p => Sys2Proof.Machine.execResponsePush p s
  | .pullStrobe p => Sys2Proof.Machine.execPullStrobe p s
  | .responseReturn m => Sys2Proof.Machine.execResponseReturn m s
  | .watermarksWrite h p v => Sys2Proof.Machine.execWatermarksWrite h p v s
  | .portEnable h p => Sys2Proof.Machine.execPortEnable h p s
  | .portDisable h p => Sys2Proof.Machine.execPortDisable h p s
  | .portFlush h p => Sys2Proof.Machine.execPortFlush h p s
  | .flushComplete p => Sys2Proof.Machine.execFlushComplete p s
  | .portPullSet h p on => Sys2Proof.Machine.execPortPullSet h p on s
  | .portXoffPinSet h p pin => Sys2Proof.Machine.execPortXoffPinSet h p pin s
  | .creditsWrite h p v => Sys2Proof.Machine.execCreditsWrite h p v s
  | .mboxPop h p => Sys2Proof.Machine.execMboxPop h p s
  | .mboxClear h p => Sys2Proof.Machine.execMboxClear h p s
  | .completionNotice p txid => Sys2Proof.Machine.execCompletionNotice p txid s
  | .budgetWindowStart m => Sys2Proof.Machine.execBudgetWindowStart m s
  | .budgetWrite h m v => Sys2Proof.Machine.execBudgetWrite h m v s
  | .outCapWrite h m v => Sys2Proof.Machine.execOutCapWrite h m v s
  | .windowWrite h m v => Sys2Proof.Machine.execWindowWrite h m v s
  | .homeRequestArrive r => Sys2Proof.Machine.execHomeRequestArrive r s
  | .tenantMapWrite h who v => Sys2Proof.Machine.execTenantMapWrite h who v s
  | .shaperWrite h q r v => Sys2Proof.Machine.execShaperWrite h q r v s
  | .requestRelease pc => Sys2Proof.Machine.execRequestRelease pc s
  | .latencySample => Sys2Proof.Machine.execLatencySample s
  | .latModeWrite h q v => Sys2Proof.Machine.execLatModeWrite h q v s
  | .agePromotion => Sys2Proof.Machine.execAgePromotion s
  | .panicNotice u p on => Sys2Proof.Machine.execPanicNotice u p on s
  | .accessIssue pc => Sys2Proof.Machine.execAccessIssue pc s
  | .schedWrite h r v => Sys2Proof.Machine.execSchedWrite h r v s
  | .overrideWrite h k v => Sys2Proof.Machine.execOverrideWrite h k v s
  | .readDataReturn pc errs => Sys2Proof.Machine.execReadDataReturn pc errs s
  | .readDataAbsent pc => Sys2Proof.Machine.execReadDataAbsent pc s
  | .writeDataDone pc ok => Sys2Proof.Machine.execWriteDataDone pc ok s
  | .pickleDebtStep pc => Sys2Proof.Machine.execPickleDebtStep pc s
  | .picklePassEnd => Sys2Proof.Machine.execPicklePassEnd s
  | .pickleWrite h r v => Sys2Proof.Machine.execPickleWrite h r v s
  | .seamUpdate home u others => Sys2Proof.Machine.execSeamUpdate home u others s
  | .seamAck w ok => Sys2Proof.Machine.execSeamAck w ok s
  | .seamReconstructDone line members parity => Sys2Proof.Machine.execSeamReconstructDone line members parity s
  | .rebuildRowSwitch row u => Sys2Proof.Machine.execRebuildRowSwitch row u s
  | .rebuildDone => Sys2Proof.Machine.execRebuildDone s
  | .resyncDone rows => Sys2Proof.Machine.execResyncDone rows s
  | .rebuildLimitWrite h v => Sys2Proof.Machine.execRebuildLimitWrite h v s
  | .snoopPresent x => Sys2Proof.Machine.execSnoopPresent x s
  | .rplGone a txn => Sys2Proof.Machine.execRplGone a txn s
  | .rplKept a txn => Sys2Proof.Machine.execRplKept a txn s
  | .rplFwd a txn keep dirty data => Sys2Proof.Machine.execRplFwd a txn keep dirty data s
  | .homeStackReadDone txn d => Sys2Proof.Machine.execHomeStackReadDone txn d s
  | .homeWritebackDone txn => Sys2Proof.Machine.execHomeWritebackDone txn s
  | .snoopTimeout a => Sys2Proof.Machine.execSnoopTimeout a s
  | .reservationExpire line => Sys2Proof.Machine.execReservationExpire line s
  | .deadAgentNotice a c => Sys2Proof.Machine.execDeadAgentNotice a c s
  | .reclaimWalkDone a => Sys2Proof.Machine.execReclaimWalkDone a s
  | .lostHomeRecallDone => Sys2Proof.Machine.execLostHomeRecallDone s
  | .splitClassifyDone => Sys2Proof.Machine.execSplitClassifyDone s
  | .holdExpire => Sys2Proof.Machine.execHoldExpire s
  | .healResolveDone => Sys2Proof.Machine.execHealResolveDone s
  | .lostLineNotice line req => Sys2Proof.Machine.execLostLineNotice line req s
  | .haWrite h r v => Sys2Proof.Machine.execHaWrite h r v s
  | .agentLoad a line unique => Sys2Proof.Machine.execAgentLoad a line unique s
  | .agentStore a line d => Sys2Proof.Machine.execAgentStore a line d s
  | .agentEviction a line tell => Sys2Proof.Machine.execAgentEviction a line tell s
  | .agentSnoop a => Sys2Proof.Machine.execAgentSnoop a s
  | .agentResponse a line c d => Sys2Proof.Machine.execAgentResponse a line c d s
  | .cipherAdmit p => Sys2Proof.Machine.execCipherAdmit p s
  | .segmentCompare e differ => Sys2Proof.Machine.execSegmentCompare e differ s
  | .streamTimeout p stream => Sys2Proof.Machine.execStreamTimeout p stream s
  | .slotLoadKind1 h k => Sys2Proof.Machine.execSlotLoadKind1 h k s
  | .slotLoadKind2 h k => Sys2Proof.Machine.execSlotLoadKind2 h k s
  | .slotLoadKind3 h k => Sys2Proof.Machine.execSlotLoadKind3 h k s
  | .slotErase h k => Sys2Proof.Machine.execSlotErase h k s
  | .slotCmdApply k => Sys2Proof.Machine.execSlotCmdApply k s
  | .kcvDone k => Sys2Proof.Machine.execKcvDone k s
  | .keyWrite h k w v => Sys2Proof.Machine.execKeyWrite h k w v s
  | .keyBufferTimeout h => Sys2Proof.Machine.execKeyBufferTimeout h s
  | .eraseAll h => Sys2Proof.Machine.execEraseAll h s
  | .hkSample v powered => Sys2Proof.Machine.execHkSample v powered s
  | .hkRoundEnd m => Sys2Proof.Machine.execHkRoundEnd m s
  | .chainRecordReceive u samples tail => Sys2Proof.Machine.execChainRecordReceive u samples tail s
  | .chainRecordTimeout u => Sys2Proof.Machine.execChainRecordTimeout u s
  | .assayStepDone g m => Sys2Proof.Machine.execAssayStepDone g m s
  | .planishStepDone pc lanes => Sys2Proof.Machine.execPlanishStepDone pc lanes s
  | .pllLockLoss k => Sys2Proof.Machine.execPllLockLoss k s
  | .annealDone g fails eyes => Sys2Proof.Machine.execAnnealDone g fails eyes s
  | .coeffSetWrite h kind g k v => Sys2Proof.Machine.execCoeffSetWrite h kind g k v s
  | .quenchTrip sensor reading => Sys2Proof.Machine.execQuenchTrip sensor reading s
  | .quenchRestart => Sys2Proof.Machine.execQuenchRestart s
  | .quenchRestartDone e => Sys2Proof.Machine.execQuenchRestartDone e s
  | .recoveryClose r => Sys2Proof.Machine.execRecoveryClose r s
  | .retirementNotice u kind pc bank => Sys2Proof.Machine.execRetirementNotice u kind pc bank s
  | .fenceNotice u => Sys2Proof.Machine.execFenceNotice u s
  | .linkTimeout side => Sys2Proof.Machine.execLinkTimeout side s
  | .linkNotice k => Sys2Proof.Machine.execLinkNotice k s
  | .linkRestore k => Sys2Proof.Machine.execLinkRestore k s
  | .splitApply => Sys2Proof.Machine.execSplitApply s
  | .healApply gen digest group stillDiffers e => Sys2Proof.Machine.execHealApply gen digest group stillDiffers e s
  | .repairLane h => Sys2Proof.Machine.execRepairLane h s
  | .repairRetireBank h => Sys2Proof.Machine.execRepairRetireBank h s
  | .repairRetirePc h => Sys2Proof.Machine.execRepairRetirePc h s
  | .repairRetireStack h => Sys2Proof.Machine.execRepairRetireStack h s
  | .repairFenceTile h u => Sys2Proof.Machine.execRepairFenceTile h u s
  | .repairRestartTile h u carried => Sys2Proof.Machine.execRepairRestartTile h u carried s
  | .repairFosterSplit h => Sys2Proof.Machine.execRepairFosterSplit h s
  | .repairMapClear h => Sys2Proof.Machine.execRepairMapClear h s
  | .maintRead tile idx sub count carried => Sys2Proof.Machine.execMaintRead tile idx sub count carried s
  | .maintWrite tile idx sub ws carried => Sys2Proof.Machine.execMaintWrite tile idx sub ws carried s
  | .maintReplyFetch => Sys2Proof.Machine.execMaintReplyFetch s
  | .entdaa a => Sys2Proof.Machine.execEntdaa a s
  | .setnewda a => Sys2Proof.Machine.execSetnewda a s
  | .rstdaa => Sys2Proof.Machine.execRstdaa s
  | .enec => Sys2Proof.Machine.execEnec s
  | .disec => Sys2Proof.Machine.execDisec s
  | .getpid => Sys2Proof.Machine.execGetpid s
  | .getbcr => Sys2Proof.Machine.execGetbcr s
  | .getdcr => Sys2Proof.Machine.execGetdcr s
  | .getstatus => Sys2Proof.Machine.execGetstatus s
  | .getmwl => Sys2Proof.Machine.execGetmwl s
  | .getmrl => Sys2Proof.Machine.execGetmrl s
  | .hdrEntry => Sys2Proof.Machine.execHdrEntry s
  | .ibiAck => Sys2Proof.Machine.execIbiAck s
  | .windowBadAccess off bits write => Sys2Proof.Machine.execWindowBadAccess off bits write s
  | .registerWrite h idx sub ws => Sys2Proof.Machine.execRegisterWrite h idx sub ws s
  | .packageWideWrite h via idx sub ws => Sys2Proof.Machine.execPackageWideWrite h via idx sub ws s
  | .latchRead h idx sub width => Sys2Proof.Machine.execLatchRead h idx sub width s
  | .unlockWrite h v => Sys2Proof.Machine.execUnlockWrite h v s
  | .unlockLatchExpire h => Sys2Proof.Machine.execUnlockLatchExpire h s
  | .pathLockExpire h => Sys2Proof.Machine.execPathLockExpire h s
  | .phaseWrite h v => Sys2Proof.Machine.execPhaseWrite h v s
  | .snapshotTile h => Sys2Proof.Machine.execSnapshotTile h s
  | .snapshotPackage h => Sys2Proof.Machine.execSnapshotPackage h s
  | .packageSnapshotTake => Sys2Proof.Machine.execPackageSnapshotTake s
  | .replicaRestoreDone idx sub v digest => Sys2Proof.Machine.execReplicaRestoreDone idx sub v digest s
  | .logPop h => Sys2Proof.Machine.execLogPop h s
  | .logClear h => Sys2Proof.Machine.execLogClear h s
  | .powerLoss => Sys2Proof.Machine.execPowerLoss s
  | .unlistedOpcode p op w => Sys2Proof.Machine.execUnlistedOpcode p op w s
  | .respZeroAnswer a txn => Sys2Proof.Machine.execRespZeroAnswer a txn s
  | .discardedRequest bytes => Sys2Proof.Machine.execDiscardedRequest bytes s
  | .onwardReply m => Sys2Proof.Machine.execOnwardReply m s
  | .hdrExitPattern => Sys2Proof.Machine.execHdrExitPattern s
  | .pageProgramDone ok => Sys2Proof.Machine.execPageProgramDone ok s
  | .coolingCountStart => Sys2Proof.Machine.execCoolingCountStart s

end Sys2Proof.Machine
end

