-- ==== Sys2Proof/Safety.lean ====
section
/-!
DEFINITION. What a safe run is: the canonical forms of the memories and maps, the ranges of the modes, and steps that end in a next state.
-/
namespace Sys2Proof.Machine
open Sys2Proof

/-- The stack's bytes in canonical form: rising addresses, no byte equal to the 0 that an unlisted address reads as (log entry 10). -/
def Store.wf (m : Store) : Bool := SMap.wf 0 m.data

/-- The package's store in canonical form: rising addresses, no byte equal to the 0xFF that an unlisted address reads as (log entry 5). -/
def norWf (m : List Host.Cell) : Bool := SMap.wf 0xFF m

/-- Every memory of the block in its canonical form. -/
def State.memWf (s : State) : Bool := s.store.wf && norWf s.nor

/-- The modes hold values that the spec lists: PHASE (R382), START_STATE and BLANK_REASON (R362), ROUND_LEN's descriptor (R67). -/
def State.modesWf (s : State) : Bool := decide (s.phase ≤ 4) && decide (s.boot.st ≤ 6) && decide (s.boot.reason ≤ 9)

/-- The tile belongs to its package (R22). -/
def State.identWf (s : State) : Bool := decide (1 ≤ s.n) && decide (s.n ≤ 8) && decide (s.t < s.n)

/-- A step that ends in a next state. -/
def State.goesOn (s : State) : Prop := ∃ t, step s = .next t

/-- The parts of the state, as a frame names them. -/
inductive Field
  | pending | freeCount | out | ident | pins | clk | dict | ctr | snap | log | win | bus
  | maint | anvil | commit | pd | ports | budget | queues | sched | pcs | store | seam | ha
  | snoops | agents | cipher | phy | hk | quench | repair | boot | nor
  deriving DecidableEq, Repr

/-- A part of the state stands as it stood. -/
def State.same (s t : State) : Field → Prop
  | .pending => t.pending = s.pending
  | .freeCount => t.freeCount = s.freeCount
  | .out => t.out = s.out
  | .ident => t.ident = s.ident
  | .pins => t.pins = s.pins
  | .clk => t.clk = s.clk
  | .dict => t.dict = s.dict
  | .ctr => t.ctr = s.ctr
  | .snap => t.snap = s.snap
  | .log => t.log = s.log
  | .win => t.win = s.win
  | .bus => t.bus = s.bus
  | .maint => t.maint = s.maint
  | .anvil => t.anvil = s.anvil
  | .commit => t.commit = s.commit
  | .pd => t.pd = s.pd
  | .ports => t.ports = s.ports
  | .budget => t.budget = s.budget
  | .queues => t.queues = s.queues
  | .sched => t.sched = s.sched
  | .pcs => t.pcs = s.pcs
  | .store => t.store = s.store
  | .seam => t.seam = s.seam
  | .ha => t.ha = s.ha
  | .snoops => t.snoops = s.snoops
  | .agents => t.agents = s.agents
  | .cipher => t.cipher = s.cipher
  | .phy => t.phy = s.phy
  | .hk => t.hk = s.hk
  | .quench => t.quench = s.quench
  | .repair => t.repair = s.repair
  | .boot => t.boot = s.boot
  | .nor => t.nor = s.nor

/-- The frame of a command: no part of the state but those listed has changed. -/
def OnlyChanges (l : List Field) (s t : State) : Prop := ∀ f : Field, f ∉ l → s.same t f

/-! ### The shape of a claim -/

/-- The command completes: exec answers a next state, of which `P` holds. -/
def Completes (c : Instr) (s : State) (P : State → Prop) : Prop := ∃ t, exec c s = .next t ∧ P t

/-- The part of the state that keeps what an access path keeps. -/
def pathField (h : Path) : Field := match h with
  | .win => .win
  | .bus => .bus

/-- An event as the log would hold it now (R388). -/
def State.event (s : State) (code : Nat) (args : List Word) : LogEntry := ⟨code, s.t, s.ns, s.boot.cycles.toNat, args⟩

/-- The step writes one event to the log and no other (R388); the log stands in PD1. -/
def LogsOne (s t : State) (code : Nat) (args : List Word) : Prop := t.log = s.log.push (s.event code args)

/-- No word of the dictionary but one reads otherwise, applied or staged. -/
def OnlyWord (s t : State) (i x : Nat) : Prop :=
  t.dict.phase = s.dict.phase ∧ ∀ k, k ≠ wkey i x →
    SMap.look t.dict.applied k = SMap.look s.dict.applied k ∧ SMap.look t.dict.staged k = SMap.look s.dict.staged k

/-- No port but one differs. -/
def OnlyPort (s t : State) (p : Nat) : Prop := ∀ k, k ≠ p → t.port k = s.port k
/-- No pseudo-channel but one differs. -/
def OnlyPc (s t : State) (c : Nat) : Prop := ∀ k, k ≠ c → t.pc k = s.pc k
/-- No key slot but one differs. -/
def OnlySlot (s t : State) (k : Nat) : Prop := ∀ j, j ≠ k → t.slot j = s.slot j

/-- What a write of one register's word spells (the commands WATERMARKS_WRITE, BUDGET_WRITE and their like): its path, the location, the
word the object keeps (R375), whether the object's range takes it, and the event of a value outside it. -/
structure PlainWrite where
  h : Path
  i : Nat
  x : Nat
  v : Word
  ok : Bool
  code : Nat
  deriving DecidableEq, Repr

/-- The commands that write one RW word that is staged-capable (R383), with the ranges of R102, R133, R134, R137, R143, R147, R148, R176,
R205, R207 and R239. -/
def plainWrite : Instr → Option PlainWrite
  | .watermarksWrite h p v =>
    some ⟨h, 0x3000 + p, 4, v, decide (p.val ≠ 28 ∧ p.val ≠ 29 ∧ fld v 15 8 ≤ (if p.val < 4 then 32 else 64) ∧ fld v 7 0 < fld v 15 8), 0x0405⟩
  | .budgetWrite h m v => some ⟨h, 0x3410 + m.toNat / 128, m.toNat % 128 + 1, v, true, 0x0603⟩
  | .windowWrite h m v => some ⟨h, 0x3412 + m.toNat / 128, m.toNat % 128 + 1, v, decide (1 ≤ v.toNat ∧ v.toNat ≤ 64), 0x0603⟩
  | .outCapWrite h m v => some ⟨h, 0x3414 + m.toNat / 128, m.toNat % 128 + 1, v, decide (1 ≤ v.toNat ∧ v.toNat ≤ 1024), 0x0603⟩
  | .tenantMapWrite h (.inl n) v =>
    some ⟨h, 0x3600 + n.toNat / 4, 0x40 + n.toNat % 4, v &&& 0xC3FF, !(bit v 14 && decide (1020 < fld v 9 0)), 0x0602⟩
  | .tenantMapWrite h (.inr p) v => some ⟨h, 0x3600 + p, 0x50, v &&& 0x03FF, true, 0x0602⟩
  | .shaperWrite h q .rate v => some ⟨h, 0x3600 + q, 1, v, true, 0x0602⟩
  | .shaperWrite h q .burst v => some ⟨h, 0x3600 + q, 2, v, decide (4 ≤ v.toNat ∧ v.toNat ≤ 4095), 0x0602⟩
  | .shaperWrite h q .weight v => some ⟨h, 0x3600 + q, 3, v, decide (1 ≤ v.toNat ∧ v.toNat ≤ 255), 0x0602⟩
  | .latModeWrite h (some q) v => some ⟨h, 0x3600 + q, 4, v, decide (v.toNat ≤ 1), 0x0602⟩
  | .latModeWrite h none v => some ⟨h, 0x3600, 0x70, v, decide (v.toNat ≠ 0), 0x0602⟩
  | .schedWrite h .mode v => some ⟨h, 0x4000, 1, v, decide (v.toNat ≤ 1), 0x0706⟩
  | .schedWrite h .ageT v => some ⟨h, 0x4000, 2, v, decide (1 ≤ v.toNat ∧ v.toNat ≤ 255), 0x0706⟩
  | .schedWrite h .ageL v => some ⟨h, 0x4000, 3, v, decide (1 ≤ v.toNat ∧ v.toNat ≤ 255), 0x0706⟩
  | .schedWrite h .ageB v => some ⟨h, 0x4000, 4, v, decide (1 ≤ v.toNat ∧ v.toNat ≤ 255), 0x0706⟩
  | .schedWrite h .wrWatermarks v =>
    some ⟨h, 0x4000, 5, v, decide (2 ≤ fld v 15 8 ∧ fld v 15 8 ≤ 56 ∧ fld v 7 0 < fld v 15 8), 0x0706⟩
  | .schedWrite h .pdIdle v => some ⟨h, 0x4000, 6, v, decide (v.toNat ≤ 1024), 0x0706⟩
  | .pickleWrite h .period v => some ⟨h, 0x4800, 1, v, decide (1 ≤ v.toNat ∧ v.toNat ≤ 720), 0x0807⟩
  | .pickleWrite h .ctrl v => some ⟨h, 0x4800, 2, v &&& 0x8000, true, 0x0807⟩
  | .pickleWrite h .ceLimit v => some ⟨h, 0x4800, 5, v, decide (v.toNat ≠ 0), 0x0807⟩
  | .rebuildLimitWrite h v => some ⟨h, 0x4900, 3, v, decide (16 ≤ v.toNat ∧ v.toNat ≤ 1024), 0x0908⟩
  | .haWrite h .snoopLimit v => some ⟨h, 0x5000, 2, v, decide (2 ≤ v.toNat ∧ v.toNat ≤ 255), 0x0A0C⟩
  | .haWrite h .reserveLimit v => some ⟨h, 0x5000, 3, v, decide (1 ≤ v.toNat ∧ v.toNat ≤ 255), 0x0A0C⟩
  | _ => none

/-- The parts that a new value changes in service besides its own word: the port whose watermarks moved (R102), the window that begins anew
(R134), the queue with its change pending (R143), the limit of event 0x0601 (R405), write draining (R165), and Pickle's due changes with the marks of the queues its steps leave (R147, R190, R205). -/
def PlainWrite.touches (w : PlainWrite) : List Field :=
  if w.i < 0x3100 then [.ports, .out]
  else if w.i = 0x3412 ∨ w.i = 0x3413 then [.budget]
  else if 0x3600 ≤ w.i ∧ w.i ≤ 0x39FF then (if w.x ≤ 3 then [.queues] else [.log])
  else if w.i = 0x4000 then [.pcs]
  else if w.i = 0x4800 ∧ w.x = 1 then [.seam]
  else if w.i = 0x4800 ∧ w.x = 2 then [.pcs, .sched, .queues]
  else if w.i = 0x4800 then [.pcs]
  else []

/-- The commands that write one guarded object of the dictionary (R374), with their path. -/
def guardedOn : Instr → Option Path
  | .startCmdRestart h => some h
  | .startCmdShutdown h false => some h
  | .hmOpen h => some h
  | .hmClose h => some h
  | .hmAbandon h => some h
  | .pdEnableWrite h _ => some h
  | .overrideWrite h _ _ => some h
  | .coeffSetWrite h _ _ _ _ => some h
  | .repairLane h => some h
  | .repairRetireBank h => some h
  | .repairRetirePc h => some h
  | .repairRetireStack h => some h
  | .repairFenceTile h _ => some h
  | .repairRestartTile h _ false => some h
  | .repairFosterSplit h => some h
  | .repairMapClear h => some h
  | _ => none

/-- PORT_CTRL as it is kept (R112): reserved bits and FLUSH read 0, and XOFF_PIN names a pin or none. -/
def portCtrlKept (w : Word) : Bool := w &&& 0x5F0F == 0 && (decide (fld w 7 4 ≤ 7) || fld w 7 4 == 15)

/-- The command that brings a request of an opcode to a port (R89). -/
def requestOf (op : Op) (p : Port) (w : ReqWord) : Instr := match op with
  | .read => .read p w
  | .writePosted => .writePosted p w
  | .writeAck => .writeAck p w
  | .rdShared => .rdShared p w
  | .rdUnique => .rdUnique p w
  | .upgrade => .upgrade p w
  | .wrBack => .wrBack p w
  | .masterReset => .masterReset p w

/-- A counter has risen, or stands as it stood where its domain is unavailable (R34, R391). -/
def State.counted (s t : State) (i x by_ : Nat) : Prop := t.ctrOf i x = if s.avail i then (s.ctrOf i x + by_) % 2 ^ 48 else s.ctrOf i x

/-- The response that a home sends for a request, by its arc (R14): its coherence response and its lines (R92, R214). -/
def answerOf (s : State) (r : HReq) (c : Cresp) (ls : List LineAns) : Out :=
  .ring (.response r.tile (s.arcTo r.tile) { port := r.port, txid := r.txid, cresp := c, lines := ls })

/-- The home agent has nothing under way: no transaction, no waiting request, no reservation, no dead agent, and no split or heal to work off. -/
def State.quietHome (s : State) : Prop :=
  s.ha.txns = [] ∧ s.ha.plain = [] ∧ s.ha.plainWait = [] ∧ s.ha.resv = [] ∧ s.ha.work = [] ∧ s.ha.healing = false ∧ s.ha.classify = false ∧ s.ha.dead = 0

/-- A line of this tile's ordinary part in no retired unit, ordered at its own home, with a way free in its set. -/
def State.homeHere (s : State) (line : Nat) : Prop :=
  (s.map.home line).parity = none ∧ (s.map.home line).tile = s.t ∧ s.ownRetired (s.map.place (s.map.home line).loc) = false ∧ s.waysUsed line < 16

/-- A line of this tile's ordinary part in no retired unit. -/
def State.ordinaryHere (s : State) (line : Nat) : Prop :=
  (s.map.home line).tile = s.t ∧ s.lineKind (s.map.home line).loc = .ordinary ∧ s.ownRetired (s.map.place (s.map.home line).loc) = false

/-- What the step adds for a line of the ordinary part that the block poisons (R187): one write of it as poison, data zero, which waits for the stack as work
of port P28; what waited before stands before it. -/
def State.poisonWaits (s t : State) (line : Nat) : Prop :=
  ∃ p : Part, t.sched.parts = s.sched.parts ++ [p] ∧ p.origin = .poison ∧ p.write = true ∧ p.req.port = 28 ∧ p.rel = none ∧
    p.lns.map (fun l => (l.addr, l.d)) = [((s.map.home line).loc, ⟨0, true⟩)]

/-- A tile fault that is detected is counted with its class and logged with the tile, where the event log is powered (R304, R336). -/
def State.tileFaultSeen (s t : State) : Prop :=
  t.ctr = (s.count 0x7820 25).ctr ∧ (s.dom 1 = true → LogsOne s t 0x0E02 [6, Config.unitCode ⟨s.t, 0, 0, 0⟩])

/-- The transient states of R211. -/
def CState.transient (c : CState) : Prop := c ∉ [CState.m, .o, .e, .s, .i]

/-- R227, row by row: the state, the snoop, its FWD, the answer, whether its data is dirty, NEWSTATE and the state entered. -/
def snoopRows : List (CState × SnpType × Bool × SnpAns × Bool × CState × CState) :=
  let both := fun (st : CState) (ty : SnpType) (ans : SnpAns) (d : Bool) (ns after : CState) =>
    [(st, ty, true, ans, d, ns, after), (st, ty, false, ans, d, ns, after)]
  both .i .down .gone false .i .i ++ both .i .give .gone false .i .i ++ both .i .drop .gone false .i .i ++
  [(.s, .down, true, .fwd, false, .s, .s), (.s, .down, false, .kept, false, .i, .s), (.s, .give, true, .fwd, false, .i, .i), (.s, .give, false, .gone, false, .i, .i)] ++
  both .s .drop .gone false .i .i ++
  both .e .down .fwd false .s .s ++ both .e .give .fwd false .i .i ++ both .e .drop .gone false .i .i ++
  both .o .down .fwd true .o .o ++ both .o .give .fwd true .i .i ++ both .o .drop .fwd true .i .i ++
  both .m .down .fwd true .o .o ++ both .m .give .fwd true .i .i ++ both .m .drop .fwd true .i .i ++
  both .isD .down .gone false .i .isD ++ both .isD .give .gone false .i .isD ++ both .isD .drop .gone false .i .isD ++
  both .imAd .down .gone false .i .imAd ++ both .imAd .give .gone false .i .imAd ++ both .imAd .drop .gone false .i .imAd ++
  [(.smA, .down, true, .fwd, false, .s, .smA), (.smA, .down, false, .kept, false, .i, .smA), (.smA, .give, true, .fwd, false, .i, .imAd),
   (.smA, .give, false, .gone, false, .i, .imAd)] ++ both .smA .drop .gone false .i .imAd ++
  both .omA .down .fwd true .o .omA ++ both .omA .give .fwd true .i .imAd ++ both .omA .drop .fwd true .i .imAd ++
  both .miA .down .fwd true .o .oiA ++ both .miA .give .fwd true .i .iiA ++ both .miA .drop .fwd true .i .iiA ++
  both .oiA .down .fwd true .o .oiA ++ both .oiA .give .fwd true .i .iiA ++ both .oiA .drop .fwd true .i .iiA ++
  both .eiA .down .fwd false .i .iiA ++ both .eiA .give .fwd false .i .iiA ++ both .eiA .drop .gone false .i .iiA ++
  both .iiA .down .gone false .i .iiA ++ both .iiA .give .gone false .i .iiA ++ both .iiA .drop .gone false .i .iiA

/-- R228, entry by entry that is sent: the state, the response (none for a refusal) and the state entered. -/
def responseRows : List (CState × Cresp × CState) :=
  [(.isD, .dataS, .s), (.isD, .dataO, .s), (.isD, .dataE, .e), (.isD, .retry, .i), (.isD, .poison, .i), (.isD, .partition, .i), (.isD, .none, .i),
   (.imAd, .dataE, .e), (.imAd, .dataM, .m), (.imAd, .retry, .i), (.imAd, .poison, .i), (.imAd, .partition, .i), (.imAd, .none, .i),
   (.smA, .ack, .m), (.smA, .retry, .s), (.smA, .poison, .i), (.smA, .partition, .s), (.smA, .none, .s),
   (.omA, .ack, .m), (.omA, .retry, .o), (.omA, .poison, .i), (.omA, .partition, .o), (.omA, .none, .o),
   (.miA, .ack, .i), (.miA, .retry, .m), (.miA, .partition, .m), (.miA, .none, .m),
   (.oiA, .ack, .i), (.oiA, .retry, .o), (.oiA, .partition, .o), (.oiA, .none, .o),
   (.eiA, .ack, .i), (.eiA, .retry, .i), (.eiA, .partition, .i), (.eiA, .none, .i),
   (.iiA, .ack, .i), (.iiA, .retry, .i), (.iiA, .partition, .i), (.iiA, .none, .i)]

end Sys2Proof.Machine
end

