-- ==== Sys2Proof/WellFormed.lean ====
section
/-!
DEFINITION. Well-formed commands: operands that the block's faces can carry (R42, R88-R90, R183, R198, R213, R227, R268, R274, R285, R339, R351,
R366, R369, R371, R384). The meanings are total; an ill-formed command is one that no face carries.
-/
namespace Sys2Proof
open Sys2Proof.Machine

/-- A package address of a line (R10, R42). -/
def isLine (a : Nat) : Bool := a % 64 == 0 && decide (a < 2 ^ 44)

/-- A request on the ring (R88-R90): its lines lie in one 256-byte group, with data for each line it writes. -/
def Machine.HReq.wf (r : HReq) : Bool :=
  decide (r.tile < 8) && decide (1 ≤ r.lines) && decide (r.addr / 64 % 4 + r.lines ≤ 4) && isLine r.addr &&
    (r.data.length == (if isWrite r.op then r.lines else 0))

/-- A Seam update (R195). -/
def Machine.SeamUpd.wf (u : SeamUpd) : Bool := decide (u.home < 8) && isLine u.line

/-- A lane's measurement (R285): one of the 36 lanes. -/
def Machine.LaneEye.wf (e : LaneEye) : Bool := decide (e.lane < 36)

/-- What a start meets (R37, R255, R288, R298, R339). -/
def Machine.StartEnv.wf (e : StartEnv) : Bool :=
  e.stack.timing.length == 17 && e.annealFails.all (fun c => decide (c < 64)) && e.pairFails.all (fun p => decide (p < 48)) &&
    e.assay.length == 16 && e.eyes.all (fun x => decide (x.1 < 64) && x.2.wf) && (match e.gradeInForce with
      | some g => decide (1 ≤ g) && decide (g ≤ 4)
      | none => true)

/-- A window access that R366 does not serve. -/
def badShape (off : BitVec 25) (bits : Nat) : Bool :=
  off.toNat % 2 == 1 || !(bits == 16 || bits == 32 || bits == 64) || decide (512 < off.toNat % 512 + bits / 8)

/-- Well-formed commands. -/
def Instr.wf : Instr → Bool
  | .powerOn => true
  | .resetRelease => true
  | .resetAssert _ => true
  | .pwrfailFall _ => true
  | .pwrfailRise => true
  | .start e => e.wf
  | .startRetry => true
  | .startTimeout => true
  | .startCmdRestart _ => true
  | .startCmdShutdown _ _ => true
  | .tallyHourly => true
  | .hmOpen _ => true
  | .hmEraseDone _ => true
  | .hmPageProgram _ page => page.length == 128
  | .hmClose _ => true
  | .hmAbandon _ => true
  | .repairMapWrite => true
  | .frameTick => true
  | .slotStart => true
  | .refreshDebtAccrue _ _ => true
  | .forcedRefresh _ => true
  | .perBankRefresh _ => true
  | .allBankRefresh _ => true
  | .lockstepMismatch => true
  | .heartbeatReceive hb => decide (-32768 ≤ hb.offset) && decide (hb.offset ≤ 32767)
  | .heartbeatLoss _ => true
  | .commitArmTile _ => true
  | .commitArmPackage _ => true
  | .commitPrepare _ _ _ => true
  | .commitVote _ _ => true
  | .commitDecide => true
  | .commitGo => true
  | .commitAbort _ _ => true
  | .commitApply => true
  | .mapInitDone => true
  | .commitHoldTimeout => true
  | .pdEnableWrite _ _ => true
  | .domainPowered _ => true
  | .decodeAddrWrite _ _ => true
  | .read _ _ => true
  | .writePosted _ _ => true
  | .writeAck _ _ => true
  | .rdShared _ _ => true
  | .rdUnique _ _ => true
  | .upgrade _ _ => true
  | .wrBack _ _ => true
  | .masterReset _ _ => true
  | .writeLine _ _ => true
  | .requestLeaveQueue _ => true
  | .responsePush _ => true
  | .pullStrobe _ => true
  | .responseReturn m => m.lines.length ≤ 4 && m.lines.all (fun l => decide (l.line < 4))
  | .watermarksWrite _ _ _ => true
  | .portEnable _ _ => true
  | .portDisable _ _ => true
  | .portFlush _ _ => true
  | .flushComplete _ => true
  | .portPullSet _ _ _ => true
  | .portXoffPinSet _ _ _ => true
  | .creditsWrite _ _ _ => true
  | .mboxPop _ _ => true
  | .mboxClear _ _ => true
  | .completionNotice _ _ => true
  | .budgetWindowStart _ => true
  | .budgetWrite _ _ _ => true
  | .outCapWrite _ _ _ => true
  | .windowWrite _ _ _ => true
  | .homeRequestArrive r => r.wf
  | .tenantMapWrite _ _ _ => true
  | .shaperWrite _ _ _ _ => true
  | .requestRelease _ => true
  | .latencySample => true
  | .latModeWrite _ _ _ => true
  | .agePromotion => true
  | .panicNotice _ _ _ => true
  | .accessIssue _ => true
  | .schedWrite _ _ _ => true
  | .overrideWrite _ _ _ => true
  | .readDataReturn _ errs => (errs.map (fun e => e.1.val)).eraseDups.length == errs.length
  | .readDataAbsent _ => true
  | .writeDataDone _ _ => true
  | .pickleDebtStep _ => true
  | .picklePassEnd => true
  | .pickleWrite _ _ _ => true
  | .seamUpdate home u _ => u.home == home.val && u.wf
  | .seamAck w _ => isLine w.line
  | .seamReconstructDone line members _ => isLine line && decide (members.length < 8)
  | .rebuildRowSwitch row _ => decide (row < 2 ^ 24)
  | .rebuildDone => true
  | .resyncDone rows => rows.all (fun r => decide (r < 2 ^ 24))
  | .rebuildLimitWrite _ _ => true
  | .snoopPresent x => x.arrived.all (fun m => decide (m.home < 8) && decide (m.txn < 256) && m.targets.all (fun a => decide (a < 48)) && isLine m.line)
  | .rplGone _ _ => true
  | .rplKept _ _ => true
  | .rplFwd _ _ keep _ _ => keep == .i || keep == .s || keep == .o
  | .homeStackReadDone _ _ => true
  | .homeWritebackDone _ => true
  | .snoopTimeout _ => true
  | .reservationExpire line => isLine line
  | .deadAgentNotice _ _ => true
  | .reclaimWalkDone _ => true
  | .lostHomeRecallDone => true
  | .splitClassifyDone => true
  | .holdExpire => true
  | .healResolveDone => true
  | .lostLineNotice line _ => isLine line
  | .haWrite _ _ _ => true
  | .agentLoad _ line _ => isLine line
  | .agentStore _ line _ => isLine line
  | .agentEviction _ line _ => isLine line
  | .agentSnoop _ => true
  | .agentResponse _ line _ _ => isLine line
  | .cipherAdmit _ => true
  | .segmentCompare _ _ => true
  | .streamTimeout _ _ => true
  | .slotLoadKind1 _ _ => true
  | .slotLoadKind2 _ _ => true
  | .slotLoadKind3 _ _ => true
  | .slotErase _ _ => true
  | .slotCmdApply _ => true
  | .kcvDone _ => true
  | .keyWrite _ _ _ _ => true
  | .keyBufferTimeout _ => true
  | .eraseAll _ => true
  | .hkSample _ _ => true
  | .hkRoundEnd _ => true
  | .chainRecordReceive _ samples _ => samples.length == 32
  | .chainRecordTimeout _ => true
  | .assayStepDone _ _ => true
  | .planishStepDone _ lanes => lanes.all LaneEye.wf
  | .pllLockLoss _ => true
  | .annealDone _ _ eyes => eyes.all (fun e => e.2.wf)
  | .coeffSetWrite _ _ _ _ _ => true
  | .quenchTrip _ _ => true
  | .quenchRestart => true
  | .quenchRestartDone e => e.assay.length == 16 && e.eyes.all (fun x => x.2.wf)
  | .recoveryClose _ => true
  | .retirementNotice _ _ _ _ => true
  | .fenceNotice _ => true
  | .linkTimeout _ => true
  | .linkNotice _ => true
  | .linkRestore _ => true
  | .splitApply => true
  | .healApply _ _ group _ e => group.all (fun x => isPkgWide (x.1 / 256) (x.1 % 256)) && e.rows.all (fun r => decide (r < 2 ^ 24))
  | .repairLane _ => true
  | .repairRetireBank _ => true
  | .repairRetirePc _ => true
  | .repairRetireStack _ => true
  | .repairFenceTile _ _ => true
  | .repairRestartTile _ _ _ => true
  | .repairFosterSplit _ => true
  | .repairMapClear _ => true
  | .maintRead _ _ sub count _ => goodShape .bus sub.toNat count.toNat
  | .maintWrite _ _ sub ws _ => goodShape .bus sub.toNat ws.length
  | .maintReplyFetch => true
  | .entdaa _ => true
  | .setnewda _ => true
  | .rstdaa => true
  | .enec => true
  | .disec => true
  | .getpid => true
  | .getbcr => true
  | .getdcr => true
  | .getstatus => true
  | .getmwl => true
  | .getmrl => true
  | .hdrEntry => true
  | .ibiAck => true
  | .windowBadAccess off bits _ => badShape off bits
  | .registerWrite h _ sub ws => goodShape h sub.toNat ws.length
  | .packageWideWrite h _ idx sub ws => goodShape h sub.toNat ws.length && isPkgWide idx.toNat sub.toNat
  | .latchRead _ _ sub width => decide (sub.toNat + 2 ^ width.val ≤ 256)
  | .unlockWrite _ _ => true
  | .unlockLatchExpire _ => true
  | .pathLockExpire _ => true
  | .phaseWrite _ _ => true
  | .snapshotTile _ => true
  | .snapshotPackage _ => true
  | .packageSnapshotTake => true
  | .replicaRestoreDone _ _ _ _ => true
  | .logPop _ => true
  | .logClear _ => true
  | .powerLoss => true
  | .unlistedOpcode _ op _ => (opOf op).isNone
  | .respZeroAnswer _ _ => true
  | .discardedRequest _ => true
  | .onwardReply m => decide (2 ≤ m.bytes.length) && decide (m.bytes.length ≤ 130)
  | .hdrExitPattern => true
  | .pageProgramDone _ => true
  | .coolingCountStart => true

end Sys2Proof
end

