-- ==== Sys2Proof/Certificates/Slice0/Obligations.lean ====
section
/-!
DEFINITION. The statements for the provers: what each command does to the state, in the terms of Safety. Every family of commands says where it
completes and what it leaves alone.
-/
open Sys2Proof Sys2Proof.Machine

/-! ### Steps -/

/-- A step takes the command at the front of the queue and runs it with the queue's rest. -/
def Claims.StepTakesFront : Prop :=
  ∀ (s : State) (c : Instr), step { s with pending := c :: s.pending } = exec c s

/-- On an empty queue the block idles: one cycle of the frame passes, but for its last, and nothing but time changes (log entry 1: the model's choice). -/
def Claims.IdleStep : Prop :=
  ∀ s : State, s.pending = [] → ∃ t, step s = .next t ∧ OnlyChanges [.clk] s t ∧ t.anvil = s.anvil ∧
    t.clk.now = (if s.cyc = 1023 then s.clk.now else s.clk.now + 1) ∧ s.clk.pt ≤ t.clk.pt

/-- Every step that answers a next state keeps the package and tile number, runs the queue down by its front alone, takes back nothing that was driven
at a face, and reuses no free value. -/
def Claims.StepKeeps : Prop :=
  ∀ s t : State, step s = .next t →
    t.ident = s.ident ∧ t.pending = s.pending.drop 1 ∧ (∃ l, t.out = s.out ++ l) ∧ s.freeCount ≤ t.freeCount

/-- Every step keeps the stack's bytes and the package's store in their canonical form. -/
def Claims.StepKeepsMemory : Prop :=
  ∀ s t : State, s.memWf = true → step s = .next t → t.memWf = true

/-- The machine right after reset: memories in canonical form with nothing listed, the queue empty, every writable word at its default, only PD0
powered, no start begun. -/
def Claims.ResetState : Prop :=
  State.reset.memWf = true ∧ State.reset.store.data = [] ∧ State.reset.nor = [] ∧ State.reset.pending = [] ∧
    (∀ i x, State.reset.reg i x = wordDefault 8 i x) ∧ (∀ i x, State.reset.stagedReg i x = wordDefault 8 i x) ∧
    State.reset.pd.status = 1 ∧ State.reset.boot.st = 0 ∧ State.reset.phase = 0 ∧ State.reset.pins.resetN = false

/-- No command stops but the three actions of a caching agent that R212 forbids and the response that R228 withholds. -/
def Claims.OnlyAgentsStop : Prop :=
  ∀ (c : Instr) (s : State), (∀ t, exec c s ≠ .next t) →
    (∃ a l u, c = .agentLoad a l u) ∨ (∃ a l d, c = .agentStore a l d) ∨ (∃ a l k, c = .agentEviction a l k) ∨
    (∃ a l r d, c = .agentResponse a l r d)

/-- Every other command completes, in every state and with every operand: exec answers a next state, of the same package and with the same commands waiting,
whose record of outputs goes on from the one before, which reuses no free value, and whose memories are in canonical form where they were. -/
def Claims.OthersComplete : Prop :=
  ∀ (c : Instr) (s : State),
    (match c with
     | .agentLoad _ _ _ => False
     | .agentStore _ _ _ => False
     | .agentEviction _ _ _ => False
     | .agentResponse _ _ _ _ => False
     | _ => True) →
    Completes c s fun t =>
      t.ident = s.ident ∧ t.pending = s.pending ∧ (∃ l, t.out = s.out ++ l) ∧ s.freeCount ≤ t.freeCount ∧ (s.memWf = true → t.memWf = true)

/-! ### Writes of the dictionary -/

/-- Outside service a write of a staged-capable RW word is held as its staged value; no other word, and nothing but the path's own state, changes. -/
def Claims.PlainWriteStages : Prop :=
  ∀ (c : Instr) (s : State) (w : PlainWrite), plainWrite c = some w → w.ok = true → s.dictOn = true → s.phase ≠ 1 → s.commit.prepared = false →
    Completes c s fun t =>
      SMap.look t.dict.staged (wkey w.i w.x) = some w.v ∧ t.dict.applied = s.dict.applied ∧ OnlyWord s t w.i w.x ∧
      OnlyChanges [.dict, pathField w.h] s t

/-- In service such a write applies at once and discards the held staged value of its word. -/
def Claims.PlainWriteApplies : Prop :=
  ∀ (c : Instr) (s : State) (w : PlainWrite), plainWrite c = some w → w.ok = true → s.dictOn = true → s.phase = 1 →
    Completes c s fun t =>
      t.reg w.i w.x = w.v ∧ SMap.look t.dict.staged (wkey w.i w.x) = none ∧ OnlyWord s t w.i w.x ∧
      OnlyChanges (.dict :: pathField w.h :: w.touches) s t

/-- A value outside its object's range is ignored, with the event its rule names; the words of the internal ports' control objects ignore every
write without one. -/
def Claims.PlainWriteOutOfRange : Prop :=
  ∀ (c : Instr) (s : State) (w : PlainWrite), plainWrite c = some w → w.ok = false → s.dictOn = true → s.commit.prepared = false →
    Completes c s fun t =>
      (if w.i = 0x301C ∨ w.i = 0x301D then t.log = s.log else ∃ args, LogsOne s t w.code args) ∧
      OnlyChanges [.log, .maint, .out, pathField w.h] s t

/-- A frozen staged set takes no write: outside service, between PREPARE and the commit, the write is ignored with event 0x0314. -/
def Claims.FrozenWriteRefused : Prop :=
  ∀ (c : Instr) (s : State) (w : PlainWrite), plainWrite c = some w → s.dictOn = true → s.phase ≠ 1 → s.commit.prepared = true →
    Completes c s fun t => (∃ args, LogsOne s t 0x0314 args) ∧ OnlyChanges [.log, .maint, .out, pathField w.h] s t

/-- HA_CTRL and HOLD_TIME are package-wide: at the anchor a write in range is held as staged in every phase and copied to every tile; at any other tile
it is ignored with event 0x0F11. -/
def Claims.PackageWideWriteAtAnchor : Prop :=
  ∀ (s : State) (h : Path) (r : HaReg) (v : Word), r = .ctrl ∨ r = .holdTime → s.dictOn = true →
    let x := if r = .ctrl then 1 else 4
    (s.isAnchor = true → s.commit.prepared = false → (r = .ctrl → v &&& 0x3FFF = 0) → (r = .holdTime → v ≠ 0) →
      Completes (.haWrite h r v) s fun t =>
        SMap.look t.dict.staged (wkey 0x5000 x) = some v ∧ t.dict.applied = s.dict.applied ∧ OnlyWord s t 0x5000 x ∧
        t.out = s.out ++ [.ring (.stagedCopy (wkey 0x5000 x) [v])] ∧ OnlyChanges [.dict, .out, pathField h] s t) ∧
    (s.isAnchor = false →
      Completes (.haWrite h r v) s fun t =>
        LogsOne s t 0x0F11 ([0x5000, w16 x] ++ four v.toNat) ∧ OnlyChanges [.log, .maint, .out, pathField h] s t)

/-- A word of the access group reaches a tile in the anchor's copy and is held there as staged. -/
def Claims.StagedCopyHeld : Prop :=
  ∀ (s : State) (h : Path) (i : Word) (x : Byte) (v : Word), s.dictOn = true → s.commit.prepared = false →
    isPkgWide i.toNat x.toNat = true → (regRow i.toNat x.toNat).isSome = true →
    Completes (.packageWideWrite h .copy i x [v]) s fun t =>
      SMap.look t.dict.staged (wkey i.toNat x.toNat) = some v ∧ t.dict.applied = s.dict.applied ∧ OnlyWord s t i.toNat x.toNat ∧
      OnlyChanges [.dict] s t

/-- CREDITS act at once in every phase; they stand for the port's next initialisation and change nothing else now. -/
def Claims.CreditsWriteActs : Prop :=
  ∀ (s : State) (h : Path) (p : Port) (v : Word), s.dictOn = true → p.val ≠ 28 → p.val ≠ 29 →
    1 ≤ fld v 15 8 → fld v 15 8 ≤ 64 → 1 ≤ fld v 7 0 → fld v 7 0 ≤ 32 →
    Completes (.creditsWrite h p v) s fun t =>
      t.reg (0x3000 + p) 3 = v ∧ OnlyWord s t (0x3000 + p) 3 ∧ OnlyChanges [.dict, pathField h] s t

/-- A guarded write whose path's latch is not armed, or whose path is locked, is ignored, counted and logged as 0x0F02; it uses up no latch. -/
def Claims.GuardedWriteRefused : Prop :=
  ∀ (c : Instr) (s : State) (h : Path), guardedOn c = some h → s.dictOn = true → s.guardOk h = false →
    Completes c s fun t =>
      t.maint.guardRefused = min (s.maint.guardRefused + 1) 0xFFFF ∧ LogsOne s t 0x0F02 [] ∧ (t.path h).armedAt = (s.path h).armedAt ∧
      OnlyChanges [.log, .maint, .out, pathField h] s t

/-- OVERRIDE, let through by the latch, reads back the written value and awaits the commit; the latch is used. tCCD (subindex 10) takes none. -/
def Claims.OverrideWriteHeld : Prop :=
  ∀ (s : State) (h : Path) (k : Fin 17) (v : Word), s.dictOn = true → s.guardOk h = true → k.val ≠ 9 →
    Completes (.overrideWrite h k v) s fun t =>
      t.reg 0x4011 (k + 1) = v ∧ k.val + 1 ∈ t.phy.ovrDue ∧ t.phy.ovr = s.phy.ovr ∧ (t.path h).armedAt = none ∧
      OnlyWord s t 0x4011 (k + 1) ∧ OnlyChanges [.dict, .phy, pathField h] s t

/-- A point of a coefficient set in its kind's range, let through by the latch, is held as staged outside service and applied in service; the latch is
used either way. -/
def Claims.CoefficientWrite : Prop :=
  ∀ (s : State) (h : Path) (kind : Fin 7) (g : Fin 16) (k : Fin 5) (v : Word), s.dictOn = true → s.guardOk h = true →
    (if kind.val < 3 then 0 ≤ v.toInt ∧ v.toInt ≤ 127 else if kind.val = 3 then 256 ≤ v.toInt ∧ v.toInt ≤ 4095
      else if kind.val = 4 then 0 ≤ v.toInt ∧ v.toInt ≤ 1023 else 0 ≤ v.toInt ∧ v.toInt ≤ 255) →
    let i := if kind.val < 4 then 0x7100 + 16 * kind.val + g.val else 0x7140 + (kind.val - 4)
    (s.phase = 1 → Completes (.coeffSetWrite h kind g k v) s fun t =>
      t.reg i (k + 1) = v ∧ (t.path h).armedAt = none ∧ OnlyWord s t i (k + 1) ∧ OnlyChanges [.dict, pathField h] s t) ∧
    (s.phase ≠ 1 → s.commit.prepared = false → Completes (.coeffSetWrite h kind g k v) s fun t =>
      t.stagedReg i (k + 1) = v ∧ t.dict.applied = s.dict.applied ∧ (t.path h).armedAt = none ∧ OnlyWord s t i (k + 1) ∧
      OnlyChanges [.dict, pathField h] s t)

/-- Writing DECODE_ADDR: the decode words follow in the same cycle, under the applied map, and the stack is not touched. -/
def Claims.DecodeAddrFollows : Prop :=
  ∀ (s : State) (h : Path) (v : BitVec 64), s.dictOn = true → v.toNat < 2 ^ 44 →
    Completes (.decodeAddrWrite h v) s fun t =>
      t.regs 0x2005 1 4 = v.toNat ∧ t.live2 0x2006 1 = (s.map.decode v.toNat).1 ∧ t.live2 0x2006 2 = (s.map.decode v.toNat).2.1 ∧
      t.live2 0x2006 3 = (s.map.decode v.toNat).2.2.1 ∧ t.live2 0x2006 4 = (s.map.decode v.toNat).2.2.2 ∧ OnlyChanges [.dict, pathField h] s t

/-- MBOX_POP removes the head record of a port's mailbox; MBOX_CLEAR zeroes MBOX_LOST. -/
def Claims.MailboxCommands : Prop :=
  ∀ (s : State) (h : Path) (p : Port), s.dictOn = true → s.avail 0x3100 = true →
    (Completes (.mboxPop h p) s fun t =>
      (t.port p).mbox = (s.port p).mbox.drop 1 ∧ (t.port p).lost = (s.port p).lost ∧ (t.port p).fifo = (s.port p).fifo ∧
      OnlyPort s t p ∧ OnlyChanges [.ports, pathField h] s t) ∧
    (Completes (.mboxClear h p) s fun t =>
      (t.port p).lost = 0 ∧ (t.port p).mbox = (s.port p).mbox ∧ (t.port p).fifo = (s.port p).fifo ∧
      OnlyPort s t p ∧ OnlyChanges [.ports, pathField h] s t)

/-- LOG_POP removes the oldest entry; LOG_CLEAR empties the log and zeroes LOG_OVERFLOW; LOG_TOTAL stands. -/
def Claims.LogCommands : Prop :=
  ∀ (s : State) (h : Path), s.dictOn = true →
    (Completes (.logPop h) s fun t =>
      t.log = { s.log with entries := s.log.entries.drop 1 } ∧ OnlyChanges [.log, pathField h] s t) ∧
    (Completes (.logClear h) s fun t =>
      t.log = { s.log with entries := [], overflow := 0 } ∧ OnlyChanges [.log, pathField h] s t)

/-- UNLOCK on a path that is not locked: the key arms the path's latch; any other value disarms it, counts and logs 0x0F05; with two invalid keys in the
second before, it locks the path and logs 0x0F04. -/
def Claims.UnlockWrites : Prop :=
  ∀ (s : State) (h : Path) (v : Word), s.dictOn = true → s.locked h = false →
    (v = 0xA5C3 → Completes (.unlockWrite h v) s fun t =>
      (t.path h).armedAt = some s.ns ∧ (t.path h).lockedAt = (s.path h).lockedAt ∧ (t.path h).keyTimes = (s.path h).keyTimes ∧
      OnlyChanges [pathField h] s t) ∧
    (v ≠ 0xA5C3 → ((s.path h).keyTimes.filter (fun m => decide (s.ns < m + 1000000000))).length < 2 →
      Completes (.unlockWrite h v) s fun t =>
        (t.path h).armedAt = none ∧ (t.path h).lockedAt = (s.path h).lockedAt ∧ t.maint.invalidKeys = min (s.maint.invalidKeys + 1) 0xFFFF ∧
        LogsOne s t 0x0F05 [] ∧ OnlyChanges [.log, .maint, .out, pathField h] s t) ∧
    (v ≠ 0xA5C3 → 2 ≤ ((s.path h).keyTimes.filter (fun m => decide (s.ns < m + 1000000000))).length →
      Completes (.unlockWrite h v) s fun t =>
        (t.path h).armedAt = none ∧ (t.path h).lockedAt = some s.ns ∧ t.maint.invalidKeys = min (s.maint.invalidKeys + 1) 0xFFFF ∧
        t.log = (s.log.push (s.event 0x0F05 [])).push (s.event 0x0F04 []) ∧ OnlyChanges [.log, .maint, .out, pathField h] s t)

/-- On a locked path an UNLOCK write changes nothing: it is neither counted nor logged and does not lengthen the lock (R380). The path's assembly,
begun for another object, is discarded as by any write (R376). -/
def Claims.UnlockOnLockedPath : Prop :=
  ∀ (s : State) (h : Path) (v : Word), s.dictOn = true → s.locked h = true →
    Completes (.unlockWrite h v) s fun t =>
      (t.path h).armedAt = (s.path h).armedAt ∧ (t.path h).lockedAt = (s.path h).lockedAt ∧ (t.path h).keyTimes = (s.path h).keyTimes ∧
      OnlyChanges [pathField h] s t

/-- The second runs out: an armed latch is disarmed, a locked path is unlocked, on that path alone; only powered time moves on besides. -/
def Claims.PathTimesOut : Prop :=
  ∀ (s : State) (h : Path) (m : Nat),
    ((s.path h).armedAt = some m → Completes (.unlockLatchExpire h) s fun t =>
      (t.path h).armedAt = none ∧ (t.path h).lockedAt = (s.path h).lockedAt ∧ m + 1000000000 ≤ t.ns ∧ s.ns ≤ t.ns ∧
      OnlyChanges [.clk, pathField h] s t) ∧
    ((s.path h).lockedAt = some m → Completes (.pathLockExpire h) s fun t =>
      (t.path h).lockedAt = none ∧ (t.path h).armedAt = (s.path h).armedAt ∧ m + 1000000000 ≤ t.ns ∧ s.ns ≤ t.ns ∧
      OnlyChanges [.clk, pathField h] s t)

/-- PHASE: firmware writes 1, 2 or 3 while PHASE reads 1, 2 or 3, and the value is in force from the next cycle on; any other write is ignored and logs event
0x0F06. -/
def Claims.PhaseWrites : Prop :=
  ∀ (s : State) (h : Path) (v : Word), s.dictOn = true →
    (1 ≤ s.phase → s.phase ≤ 3 → 1 ≤ v.toNat → v.toNat ≤ 3 →
      Completes (.phaseWrite h v) s fun t =>
        t.phase = s.phase ∧ (∀ k : Clock, s.clk.now < k.now → ({ t with clk := k }).phase = v.toNat) ∧ t.dict.applied = s.dict.applied ∧
        t.dict.staged = s.dict.staged ∧ OnlyChanges [.dict, pathField h] s t) ∧
    (s.phase = 0 ∨ 4 ≤ s.phase ∨ v.toNat = 0 ∨ 4 ≤ v.toNat →
      Completes (.phaseWrite h v) s fun t =>
        LogsOne s t 0x0F06 ([0x1500, 0] ++ four v.toNat) ∧ OnlyChanges [.log, .maint, .out, pathField h] s t)

/-- A snapshot holds the tile's frame number and powered time with the copies, and SNAP_SEQ rises by 1: for SNAPSHOT 1 at once, but where
the other path asked for one in the same cycle. SNAPSHOT 2 at the anchor orders one for tick f + 2 in every tile, after those it has ordered before, but where
the other path ordered one in the same cycle; the first that is due is taken at its tick. -/
def Claims.SnapshotCommands : Prop :=
  ∀ (s : State) (h : Path), s.dictOn = true →
    ((∀ c g, s.snap.from_ = some (c, g) → c ≠ s.clk.now ∨ g = h) → Completes (.snapshotTile h) s fun t =>
      t.snap.seq = s.snap.seq + 1 ∧ t.snap.frame = s.anvil.frameNo ∧ t.snap.time = min s.ns (2 ^ 64 - 1) ∧
      OnlyChanges [.snap, .queues, pathField h] s t) ∧
    (∀ g, s.snap.from_ = some (s.clk.now, g) → g ≠ h → Completes (.snapshotTile h) s fun t => OnlyChanges [pathField h] s t) ∧
    (s.isAnchor = true → (∀ c g, s.snap.fromPkg = some (c, g) → c ≠ s.clk.now ∨ g = h) → Completes (.snapshotPackage h) s fun t =>
      t.snap.due = s.snap.due ++ [BitVec.ofNat 64 (s.frame + 2)] ∧ t.snap.hold = s.snap.hold ∧ t.snap.seq = s.snap.seq ∧
      t.out = s.out ++ [.ring (.snapshotAt (BitVec.ofNat 64 (s.frame + 2)))] ∧ OnlyChanges [.snap, .out, pathField h] s t) ∧
    (s.isAnchor = true → ∀ g, s.snap.fromPkg = some (s.clk.now, g) → g ≠ h → Completes (.snapshotPackage h) s fun t => OnlyChanges [pathField h] s t) ∧
    (∀ f rest, s.snap.due = f :: rest → f.toNat ≤ s.frame → Completes .packageSnapshotTake s fun t =>
      t.snap.seq = s.snap.seq + 1 ∧ t.snap.frame = s.anvil.frameNo ∧ t.snap.time = min s.ns (2 ^ 64 - 1) ∧ t.snap.due = rest ∧
      OnlyChanges [.snap, .queues] s t)

/-- A word copied from another tile takes the place of the one that failed and no longer awaits its restoration (R127); it is no word of the access group,
whose digest is checked besides. -/
def Claims.ReplicaRestored : Prop :=
  ∀ (s : State) (i : Word) (x : Byte) (v : Word) (d : BitVec 32), wkey i.toNat x.toNat ∈ s.dict.restoring → isAclKey i.toNat x.toNat = false →
    Completes (.replicaRestoreDone i x v d) s fun t =>
      t.reg i.toNat x.toNat = v ∧ wkey i.toNat x.toNat ∉ t.dict.restoring ∧ wkey i.toNat x.toNat ∉ t.dict.badApplied ∧
      OnlyWord s t i.toNat x.toNat ∧ OnlyChanges [.dict] s t

/-- An access that the window does not serve, of an odd offset, another width or past subindex 0xFF, writes nothing and reads zero, with event 0x0F03 at
most once a frame. -/
def Claims.BadWindowAccess : Prop :=
  ∀ (s : State) (off : BitVec 25) (bits : Nat) (w : Bool), s.dictOn = true → badShape off bits = true →
    SMap.look s.log.seen (limKey 0x0F03 0) = none →
    Completes (.windowBadAccess off bits w) s fun t =>
      t.log.entries.getLast? = some (s.event 0x0F03 (two off.toNat)) ∧ OnlyChanges [.log, .maint, .out] s t ∧
      (w = false → t.out.getLast? = some (.read .win (List.replicate (max (bits / 16) 1) 0)))

/-- A read of one RW word gives the applied value, or the staged one under the path's READ_STAGED, and changes nothing. PORT_CTRL, whose FLUSH
bit is a level, stands apart. -/
def Claims.ReadGivesWord : Prop :=
  ∀ (s : State) (h : Path) (i : Word) (x : Byte) (row : RegRow), s.dictOn = true → regRow i.toNat x.toNat = some row → row.acc = .rw →
    0x2000 ≤ i.toNat → ¬ (0x3000 ≤ i.toNat ∧ i.toNat ≤ 0x301F ∧ x = 1) →
    wkey i.toNat x.toNat ∉ s.dict.badApplied → wkey i.toNat x.toNat ∉ s.dict.badStaged →
    Completes (.latchRead h i x 0) s fun t =>
      t.out = s.out ++ [.read h [if bit (s.reg 0x1401 (if h = .win then 1 else 2)) 14 then s.stagedReg i.toNat x.toNat else s.reg i.toNat x.toNat]] ∧
      OnlyChanges [.out] s t

/-- With LATCH set, a read of the lowest word of a two-word RO object keeps the whole value for the path, and a later read of the upper word alone
gives that value's upper word, whatever the object has become (here LEDGER_SEQ [1102:02-03]). -/
def Claims.LatchKeepsWholeValue : Prop :=
  ∀ (s : State) (h : Path), s.dictOn = true → bit (s.reg 0x1401 (if h = .win then 1 else 2)) 15 = true →
    (∀ x, wkey 0x1102 x ∉ s.dict.badApplied ∧ wkey 0x1102 x ∉ s.dict.badStaged) →
    Completes (.latchRead h 0x1102 2 0) s fun t =>
      (t.path h).latch = some (wkey 0x1102 2, s.boot.ledSeq.toNat) ∧ OnlyChanges [.out, pathField h] s t ∧
      ∀ b : Boot, Completes (.latchRead h 0x1102 3 0) { t with boot := b } fun u =>
        u.out = t.out ++ [.read h [wordAt s.boot.ledSeq.toNat 1]] ∧ OnlyChanges [.out] { t with boot := b } u

/-- A one-word RW object that is staged-capable, written by REGISTER_WRITE outside service with a value its rule takes: its bits that are not reserved are
held as staged. -/
def Claims.RegisterWriteStages : Prop :=
  ∀ (s : State) (h : Path) (i : Word) (x : Byte) (v : Word) (row : RegRow), s.dictOn = true → regRow i.toNat x.toNat = some row → row.acc = .rw →
    row.w = 1 → actsAtOnce i.toNat x.toNat = false → s.phase ≠ 1 → s.commit.prepared = false →
    (s.badValue i.toNat x.toNat (v &&& keptBits i.toNat x.toNat).toNat) = none →
    Completes (.registerWrite h i x [v]) s fun t =>
      SMap.look t.dict.staged (wkey i.toNat x.toNat) = some (v &&& keptBits i.toNat x.toNat) ∧ t.dict.applied = s.dict.applied ∧
      OnlyWord s t i.toNat x.toNat ∧ OnlyChanges [.dict, pathField h] s t

/-- HM_LEN written a word at a time takes effect when its highest word is written; until then the path alone keeps the lower word. -/
def Claims.TwoWordWriteAssembles : Prop :=
  ∀ (s : State) (h : Path) (a b : Word), s.dictOn = true → a.toNat + 65536 * b.toNat ≤ 1048320 →
    Completes (.registerWrite h 0x1110 3 [a]) s fun t =>
      (∃ m, (t.path h).asm = some (wkey 0x1110 3, m) ∧ SMap.look m 0 = some a) ∧ OnlyChanges [pathField h] s t ∧
      Completes (.registerWrite h 0x1110 4 [b]) t fun u =>
        u.regs 0x1110 3 2 = a.toNat + 65536 * b.toNat ∧ (u.path h).asm = none ∧ OnlyChanges [.dict, pathField h] t u

/-- A write that another object's write follows on the path is lost (R376): the assembly is discarded. -/
def Claims.OtherObjectDiscardsAssembly : Prop :=
  ∀ (s : State) (h : Path) (v : Word) (k : Nat) (m : SMap Word), s.dictOn = true → (s.path h).asm = some (k, m) → k ≠ wkey 0x9000 7 →
    v.toNat < s.log.entries.length →
    Completes (.registerWrite h 0x9000 7 [v]) s fun t =>
      (t.path h).asm = none ∧ t.reg 0x9000 7 = v ∧ OnlyChanges [.dict, pathField h] s t

/-! ### Power, reset, start and shutdown -/

/-- Power-on leaves PD0 alone powered with powered time 0 and every object at its default; the package, its store and the record of outputs stand. -/
def Claims.PowerOnState : Prop :=
  ∀ s : State, Completes .powerOn s fun t =>
    t.pd.status = 1 ∧ t.clk.pt = 0 ∧ t.boot = ({} : Boot) ∧ t.dict = ({} : Dict) ∧ t.log = ({} : Log) ∧ t.store.data = [] ∧ t.cipher.slots = [] ∧
    t.quench.on = false ∧ t.nor = s.nor ∧ t.ident = s.ident ∧ t.out = s.out ∧ t.pending = s.pending ∧ t.freeCount = s.freeCount ∧
    t.pins.resetN = s.pins.resetN ∧ t.pins.pwrfailN = s.pins.pwrfailN

/-- A loss of power switches every domain off; with no work of the store under way the store stands as it stood. -/
def Claims.PowerLossState : Prop :=
  ∀ s : State, s.boot.prog = none → s.boot.hmErasing = false → Completes .powerLoss s fun t =>
    t.pd.status = 0 ∧ t.store.data = [] ∧ t.cipher.slots = [] ∧ t.log = ({} : Log) ∧ t.nor = s.nor ∧ t.ident = s.ident ∧ t.out = s.out

/-- A low pulse on ZG_RESET_N of 1 µs takes effect in a powered tile outside a shutdown: every domain but PD0 is off, the outputs are in their reset states and
powered time stands; within a shutdown the reset waits, though it be released before the shutdown ends; without power there is nothing to reset; a pulse under
100 ns changes nothing. -/
def Claims.ResetPulse : Prop :=
  ∀ (s : State) (ns : Nat),
    (ns < 100 → exec (.resetAssert ns) s = .next s) ∧
    (1000 ≤ ns → s.boot.st ≠ 5 → s.dom 0 = true → s.boot.prog = none → s.boot.hmErasing = false → Completes (.resetAssert ns) s fun t =>
      t.pd.status = 1 ∧ t.boot.st = 0 ∧ t.boot.step = 0 ∧ t.pins.resetN = false ∧ t.pins.alertLow = false ∧ t.pins.quenchLow = false ∧
      t.pins.stackResetN = false ∧ t.clk = s.clk ∧ t.dict = ({} : Dict) ∧ t.cipher.slots = [] ∧ t.nor = s.nor ∧ t.repair.life = s.repair.life ∧
      t.quench.count = s.quench.count) ∧
    (1000 ≤ ns → s.boot.st ≠ 5 → s.dom 0 = false → Completes (.resetAssert ns) s fun t =>
      t.pins = { s.pins with resetN := false } ∧ OnlyChanges [.pins] s t) ∧
    (1000 ≤ ns → s.boot.st = 5 → Completes (.resetAssert ns) s fun t =>
      t.pins = { s.pins with resetN := false } ∧ t.boot = { s.boot with resetDue := true } ∧ OnlyChanges [.pins, .boot] s t ∧
      Completes .resetRelease t fun u => u.pins = { s.pins with resetN := true } ∧ u.boot = t.boot ∧ OnlyChanges [.pins] t u)

/-- The release of ZG_RESET_N begins a start of cause 1; it stands before step 1 until ZG_PWRFAIL_N is high, whose rise completes the step. -/
def Claims.ReleaseBeginsStart : Prop :=
  ∀ s : State,
    (s.boot.st = 0 → s.dom 0 = true → Completes .resetRelease s fun t =>
      t.boot.st = 1 ∧ t.boot.cause = 1 ∧ t.boot.began = s.ns ∧ t.boot.step = (if s.pins.pwrfailN then 1 else 0) ∧ t.pins.resetN = true ∧
      t.pins.stackResetN = false ∧ t.phase = 0 ∧ t.clk = s.clk ∧ t.boot.failed = s.boot.failed) ∧
    (s.boot.st = 1 → s.boot.step = 0 → Completes .pwrfailRise s fun t =>
      t.pins = { s.pins with pwrfailN := true } ∧ t.boot = { s.boot with step := 1 } ∧ OnlyChanges [.pins, .boot] s t) ∧
    (s.boot.st = 5 → s.pins.pwrfailN = false → Completes .pwrfailRise s fun t =>
      t.pins = { s.pins with pwrfailN := true } ∧ t.boot = { s.boot with shutCause := 3 } ∧ OnlyChanges [.pins, .boot] s t)

/-- A start whose steps find nothing wrong, with an image that holds no records and no grade selected, ends in service: START_STATE 2, START_STEP 11, PHASE 1, FAILED_STARTS 0,
and a tick about to open a frame. -/
def Claims.StartReachesService : Prop :=
  ∀ (s : State) (e : StartEnv) (c g : Nat), s.boot.st = 1 → s.pins.resetN = true → s.pins.pwrfailN = true → s.quench.on = false →
    s.selectImage.2 = some c → s.imageRecords (imageAt c) = some [] →
    e.bandgapOk = true → e.witnessOk = true → e.lockstepOk = true → e.ringOk = true → e.sfdp.item = none → e.sent = none → e.pllOk = true → e.annealFails = [] →
    e.gradeInForce = none → s.boot.gradeSel = 0 → 1 ≤ g → g ≤ 4 → bit e.stack.grades g = true → bit e.gradesOthers g = true →
    e.stack.answered = true → usableStack e.stack.ids e.stack.rowBits = true → nth e.stack.timing 9 0 ≤ 1 → 2560 ≤ nth e.stack.timing 10 0 →
    e.ms10 ≤ 2500 →
    Completes (.start e) s fun t =>
      t.boot.st = 2 ∧ t.boot.step = 11 ∧ t.phase = 1 ∧ t.boot.failed = 0 ∧ t.clk.now % 1024 = 0 ∧ t.store.ready = true ∧ t.pins.stackResetN = true ∧
      t.ident = s.ident ∧ t.pending = s.pending

/-- A start whose references fail is lost at step 2 with reason 4: the record says so, PD2 to PD29 are off, and the count of failures has risen. -/
def Claims.StartFailsAtReferences : Prop :=
  ∀ (s : State) (e : StartEnv), s.boot.st = 1 → s.pins.resetN = true → s.pins.pwrfailN = true → s.quench.on = false → s.boot.usable = false →
    (e.bandgapOk && e.witnessOk) = false →
    Completes (.start e) s fun t =>
      (t.boot.st = 3 ∨ t.boot.st = 4) ∧ t.boot.reason = 4 ∧ t.boot.failStep = 2 ∧ t.boot.failed = min (s.boot.failed + 1) 15 ∧
      t.boot.failedAt = s.ns ∧ t.pd.status = 3 ∧ t.pins.stackResetN = false ∧ t.nor = s.nor

/-- 100 ms of powered time after it failed a start is tried again, with cause 2; START_LIMIT reached in a start fails it at the step that follows the last
one completed, with reason 9. -/
def Claims.RetryAndLimit : Prop :=
  ∀ s : State,
    (s.boot.st = 3 → s.boot.prog = none → s.boot.hmErasing = false → Completes .startRetry s fun t =>
      t.boot.st = 1 ∧ t.boot.cause = 2 ∧ t.boot.failed = s.boot.failed ∧ s.boot.failedAt + 100000000 ≤ t.ns ∧ s.ns ≤ t.ns ∧ t.nor = s.nor) ∧
    (s.boot.st = 1 → s.boot.usable = false → Completes .startTimeout s fun t =>
      (t.boot.st = 3 ∨ t.boot.st = 4) ∧ t.boot.reason = 9 ∧ t.boot.failStep = s.boot.step + 1 ∧ s.boot.began + 250000000 ≤ t.ns ∧ t.nor = s.nor)

/-- START_CMD 1 in service restarts the tile with cause 3; START_CMD 2 begins a shutdown of cause 2, as ZG_PWRFAIL_N begins one of cause 1: the phase reads
shutdown, event 0x0202, the stack in self-refresh, the key slots empty, PD12 to PD28 off. -/
def Claims.RestartAndShutdown : Prop :=
  ∀ (s : State) (h : Path), s.boot.st = 2 → s.boot.prog = none → s.boot.hmErasing = false → s.dictOn = true →
    let down := fun (cause : Nat) (t : State) =>
      t.phase = 4 ∧ t.boot.st = 5 ∧ t.boot.shutCause = cause ∧ t.boot.shutAt = s.ns ∧ LogsOne s t 0x0202 [w16 cause] ∧ t.cipher.slots = [] ∧
      (∀ k, 12 ≤ k → k ≤ 28 → t.dom k = false) ∧ (s.store.ready = true → s.pins.stackResetN = true → t.store.selfRef = true) ∧
      t.nor = s.nor ∧ t.clk = s.clk
    (s.guardOk h = true → Completes (.startCmdRestart h) s fun t =>
      t.boot.st = 1 ∧ t.boot.cause = 3 ∧ t.phase = 0 ∧ t.pd.status = s.pd.status &&& 3 ∧ t.clk = s.clk ∧ t.nor = s.nor) ∧
    (s.guardOk h = true → Completes (.startCmdShutdown h false) s (down 2)) ∧
    Completes (.startCmdShutdown h true) s (down 2) ∧
    (∀ ns, 1000 ≤ ns → Completes (.pwrfailFall ns) s fun t => down 1 t ∧ t.pins.pwrfailN = false)

/-- The hourly tally: an hour of the powered time of the anchor, which is not fenced, after the last one, TSEQ rises by 1 and the counts stand; no byte of
the store outside the two tally areas has changed. -/
def Claims.HourlyTally : Prop :=
  ∀ s : State, s.boot.st = 2 → s.isAnchor = true → s.boot.usable = true → s.repair.fenced = none → Completes .tallyHourly s fun t =>
    t.boot.tallySeq = s.boot.tallySeq + 1 ∧ t.boot.tallyAt = t.ns ∧ s.boot.tallyAt + 3600000000000 ≤ t.ns ∧ t.boot.failed = s.boot.failed ∧
    t.boot.cycles = s.boot.cycles ∧
    (∀ a, a < tallyArea 0 ∨ (tallyArea 0 + 0x8000 ≤ a ∧ a < tallyArea 1) ∨ tallyArea 1 + 0x8000 ≤ a → t.norByte a = s.norByte a) ∧
    OnlyChanges [.clk, .boot, .nor] s t

/-! ### The store's image and the repair map -/

/-- HM_CMD 1 at the tile that writes images opens a copy and erases its sector 0, which is done when HM_ERASE_DONE says so; until then no page is taken. -/
def Claims.ImageOpens : Prop :=
  ∀ (s : State) (h : Path), s.dictOn = true → s.guardOk h = true → s.hmMay = true → s.boot.hmOpen = false → s.boot.hmErasing = false →
    Completes (.hmOpen h) s fun t =>
      t.boot.hmOpen = true ∧ t.boot.hmReady = false ∧ t.boot.hmErasing = true ∧ t.boot.hmPages = 0 ∧ (t.boot.hmCopy = 1 ∨ t.boot.hmCopy = 2) ∧
      (t.boot.hmCopy = 1 → t.boot.aOk = false) ∧ (t.boot.hmCopy = 2 → t.boot.bOk = false) ∧ (t.path h).armedAt = none ∧
      t.out = s.out ++ [.store 0 (imageAt (t.boot.hmCopy - 1))] ∧ t.nor = s.nor ∧ OnlyChanges [.boot, .out, pathField h] s t

/-- The erase's end: the sector reads 0xFF throughout and no other byte of the store has changed; the copy takes its first page. -/
def Claims.ImageErased : Prop :=
  ∀ s : State, s.boot.hmErasing = true → Completes (.hmEraseDone true) s fun t =>
    t.boot.hmErasing = false ∧ t.boot.hmReady = s.boot.hmOpen ∧
    (∀ a, imageAt s.hmTarget ≤ a → a < imageAt s.hmTarget + 4096 → t.norByte a = 0xFF) ∧
    (∀ a, a < imageAt s.hmTarget ∨ imageAt s.hmTarget + 4096 ≤ a → t.norByte a = s.norByte a) ∧ OnlyChanges [.boot, .nor] s t

/-- HM_PAGE written whole gives one page to the store, at the place after those written, where the page reads erased or, as the first of its sector, has the
sector erased for it: then the sector reads 0xFF and no other byte has changed, else none has; when its program is done the page's bytes stand there, and no byte
outside has changed. -/
def Claims.ImagePageProgrammed : Prop :=
  ∀ (s : State) (h : Path) (page : List Word), page.length = 128 → s.dictOn = true → s.hmMay = true → s.boot.hmOpen = true → s.boot.hmReady = true →
    s.boot.hmPages < 4095 → s.boot.hmClosing = false → s.boot.st ≠ 5 →
    let a := imageAt s.hmTarget + 256 * (s.boot.hmPages + 1)
    (a % 4096 = 0 ∨ s.blank a 256 = true) →
    Completes (.hmPageProgram h page) s fun t =>
      t.boot.prog = some (a, page.flatMap wordBytes) ∧ t.boot.hmReady = false ∧ t.out.getLast? = some (.store 1 a) ∧
      (a % 4096 ≠ 0 → t.nor = s.nor) ∧
      (a % 4096 = 0 → (∀ b, a ≤ b → b < a + 4096 → t.norByte b = 0xFF) ∧ ∀ b, b < a ∨ a + 4096 ≤ b → t.norByte b = s.norByte b) ∧
      OnlyChanges [.boot, .out, .nor, pathField h] s t ∧
      Completes (.pageProgramDone true) t fun u =>
        u.boot.hmPages = s.boot.hmPages + 1 ∧ u.boot.hmReady = true ∧ u.boot.prog = none ∧
        (∀ k, k < 256 → u.norByte (a + k) = nth (page.flatMap wordBytes) k 0) ∧ (∀ b, b < a ∨ a + 256 ≤ b → u.norByte b = t.norByte b) ∧
        OnlyChanges [.boot, .nor] t u

/-- HM_CMD 2 with the length of the pages written gives the Hallmark to the store last; its program done, its 32 bytes stand in the
store, no other byte has changed, the copy is valid and event 0x010A is logged.
HM_CMD 3 abandons the copy. -/
def Claims.ImageCloses : Prop :=
  ∀ (s : State) (h : Path), s.dictOn = true → s.guardOk h = true → s.hmMay = true → s.boot.hmOpen = true → s.boot.hmClosing = false →
    (s.boot.hmReady = true → ceilDiv (s.regs 0x1110 3 2) 256 = s.boot.hmPages → s.boot.st ≠ 5 → s.blank (imageAt s.hmTarget) 256 = true → Completes (.hmClose h) s fun t =>
      t.boot.hmClosing = true ∧ t.boot.hmReady = false ∧ (∃ bs, t.boot.prog = some (imageAt s.hmTarget, bs) ∧ bs.length = 32) ∧ t.nor = s.nor ∧
      OnlyChanges [.boot, .out, pathField h] s t ∧
      Completes (.pageProgramDone true) t fun u =>
        u.boot.hmOpen = false ∧ u.boot.hmDone = true ∧ (s.hmTarget = 0 → u.boot.aOk = true) ∧ (s.hmTarget ≠ 0 → u.boot.bOk = true) ∧
        LogsOne t u 0x010A (Config.regionCode s.hmTarget :: two (s.boot.imgSeq + 1).toNat) ∧
        (∀ a bs, t.boot.prog = some (a, bs) → ∀ k, k < 32 → u.norByte (a + k) = nth bs k 0) ∧
        (∀ a, a < imageAt s.hmTarget ∨ imageAt s.hmTarget + 32 ≤ a → u.norByte a = s.norByte a) ∧
        OnlyChanges [.boot, .nor, .log, .maint, .out] t u) ∧
    Completes (.hmAbandon h) s fun t =>
      t.boot = { s.boot with hmOpen := false, hmReady := false } ∧ (t.path h).armedAt = none ∧ OnlyChanges [.boot, pathField h] s t

/-- The repair map is written at the anchor, unless it is fenced: the ledger's sequence rises by 1, event 0x0E15, and nothing outside the two body areas of the store changes. -/
def Claims.RepairMapWritten : Prop :=
  ∀ s : State, s.dom 1 = true → s.repair.mapDue = true → s.isAnchor = true → s.boot.usable = true → s.repair.fenced = none → s.repair.map.length ≤ 4064 →
    Completes .repairMapWrite s fun t =>
      t.repair = { s.repair with mapDue := false } ∧ t.boot.ledSeq = s.boot.ledSeq + 1 ∧ LogsOne s t 0x0E15 (two (s.boot.ledSeq + 1).toNat) ∧
      (∀ a, a < bodyAt 0 ∨ (bodyAt 0 + 0x8000 ≤ a ∧ a < bodyAt 1) ∨ bodyAt 1 + 0x8000 ≤ a → t.norByte a = s.norByte a) ∧
      OnlyChanges [.boot, .repair, .nor, .log, .maint, .out] s t

/-! ### Key slots -/

/-- A KEY word goes into its path's buffer, which a word for another slot first clears; no slot changes. -/
def Claims.KeyWordBuffered : Prop :=
  ∀ (s : State) (h : Path) (k : Fin 1024) (w : Fin 32) (v : Word), s.dictOn = true → s.avail 0x6000 = true →
    Completes (.keyWrite h k w v) s fun t =>
      (t.path h).keySlot = some k.val ∧ (t.path h).keyFrame = s.frame ∧ SMap.look (t.path h).keyWords w.val = some v ∧
      (∀ j, j ≠ w.val → SMap.look (t.path h).keyWords j = if (s.path h).keySlot = some k.val then SMap.look (s.path h).keyWords j else none) ∧
      OnlyChanges [pathField h] s t

/-- A load whose buffer is tagged with the slot, holds every word of the kind, names two different keys under kinds 1 and 2, and whose slot has nothing
pending: the load is pending with the buffer's key, low word first, and the buffer is cleared. -/
def Claims.SlotLoadPends : Prop :=
  ∀ (s : State) (h : Path) (k : Fin 1024), s.dictOn = true → s.avail 0x6000 = true → (s.path h).keySlot = some k.val →
    (s.slot k).st ≠ 2 → (s.slot k).st ≠ 3 →
    let word := fun j => SMap.look (s.path h).keyWords j
    let key := fun n => ofWords ((List.range n).map (fun j => (word j).getD 0))
    let done := fun (kind n : Nat) (t : State) =>
      t.slot k = { s.slot k with st := 2, newKind := kind, newKey := BitVec.ofNat 512 (key n), applied := false } ∧ OnlySlot s t k ∧
      (t.path h).keySlot = none ∧ (t.path h).keyWords = [] ∧ OnlyChanges [.cipher, pathField h] s t
    ((∀ j, j < 16 → (word j).isSome = true) → (∃ j, j < 8 ∧ word j ≠ word (8 + j)) → Completes (.slotLoadKind1 h k) s (done 1 16)) ∧
    ((∀ j, j < 32 → (word j).isSome = true) → (∃ j, j < 16 ∧ word j ≠ word (16 + j)) → Completes (.slotLoadKind2 h k) s (done 2 32)) ∧
    ((∀ j, j < 16 → (word j).isSome = true) → Completes (.slotLoadKind3 h k) s (done 3 16))

/-- A load without every word of its kind, or from a buffer tagged with another slot, is refused with event 0x0B05; the buffer is cleared and no slot
changes. -/
def Claims.SlotLoadRefused : Prop :=
  ∀ (s : State) (h : Path) (k : Fin 1024), s.dictOn = true → s.avail 0x6000 = true →
    ((s.path h).keySlot ≠ some k.val ∨ ∃ j, j < 16 ∧ SMap.look (s.path h).keyWords j = none) →
    ∃ why : Nat, (why = 1 ∨ why = 2) ∧ Completes (.slotLoadKind3 h k) s fun t =>
      LogsOne s t 0x0B05 [w16 k.val, Config.pathCode h, w16 why] ∧ t.cipher = s.cipher ∧ (t.path h).keySlot = none ∧ (t.path h).keyWords = [] ∧
      OnlyChanges [.log, .maint, .out, pathField h] s t

/-- An erase is pending, for one slot or for all, and applies once the slot has no open cipher request: the slot is empty, with event 0x0B09. -/
def Claims.SlotErases : Prop :=
  ∀ (s : State) (h : Path) (k : Fin 1024), s.dictOn = true → s.avail 0x6000 = true →
    (Completes (.slotErase h k) s fun t =>
      t.slot k = { s.slot k with st := 3, applied := false } ∧ OnlySlot s t k ∧ OnlyChanges [.cipher, pathField h] s t) ∧
    (Completes (.eraseAll h) s fun t =>
      (∀ j, j < 1024 → t.slot j = { s.slot j with st := 3, applied := false }) ∧ OnlyChanges [.cipher, pathField h] s t) ∧
    ((s.slot k).st = 3 → s.slotOpen k = 0 → Completes (.slotCmdApply k) s fun t =>
      t.slot k = ({} : Slot) ∧ OnlySlot s t k ∧ LogsOne s t 0x0B09 [w16 k.val, w16 (s.slot k).kind] ∧ OnlyChanges [.cipher, .log, .maint, .out] s t)

/-- A pending load applies once the slot has no open cipher request, and is complete when its key check value stands: the slot then reads loaded, with
event 0x0B09; one whose parity fails reads state 4, with event 0x0B05. -/
def Claims.SlotLoadCompletes : Prop :=
  ∀ (s : State) (k : Fin 1024), s.dom 1 = true → (s.slot k).st = 2 →
    ((s.slot k).applied = false → s.slotOpen k = 0 → Completes (.slotCmdApply k) s fun t =>
      (t.slot k).key = (s.slot k).newKey ∧ (t.slot k).kind = (s.slot k).newKind ∧ (t.slot k).st = 2 ∧ (t.slot k).applied = true ∧ OnlySlot s t k ∧
      OnlyChanges [.cipher] s t) ∧
    ((s.slot k).applied = true → s.cipher.badSlots.contains k.val = true → Completes (.kcvDone k) s fun t =>
      t.slot k = { s.slot k with st := 4 } ∧ OnlySlot s t k ∧ LogsOne s t 0x0B05 [w16 k.val, 0, 5] ∧ OnlyChanges [.cipher, .log, .maint, .out] s t) ∧
    ((s.slot k).applied = true → s.cipher.badSlots.contains k.val = false → Completes (.kcvDone k) s fun t =>
      (t.slot k).st = 1 ∧ (t.slot k).key = (s.slot k).key ∧ (t.slot k).kcv = (s.slot k).checkValue ∧ OnlySlot s t k ∧
      LogsOne s t 0x0B09 [w16 k.val, w16 (s.slot k).kind] ∧ OnlyChanges [.cipher, .log, .maint, .out] s t)

/-- A buffer without a KEY write for 65,536 frames is cleared. -/
def Claims.KeyBufferExpires : Prop :=
  ∀ (s : State) (h : Path), (s.path h).keySlot.isSome = true → (s.path h).keyFrame + 65536 ≤ s.frame →
    Completes (.keyBufferTimeout h) s fun t =>
      (t.path h).keySlot = none ∧ (t.path h).keyWords = [] ∧ (t.path h).armedAt = (s.path h).armedAt ∧ OnlyChanges [pathField h] s t

/-! ### REPAIR_CMD -/

/-- REPAIR_CMD codes that act on a unit of this tile, let through by the latch on a unit that is in service: rung 1 waits as a fault, and a retirement of
a bank, a pseudo-channel or the stack is due at the next tick. Nothing is retired before. -/
def Claims.RepairCommandsAwaitTick : Prop :=
  ∀ (s : State) (h : Path), s.dictOn = true → s.guardOk h = true → s.repair.stackRetired = false →
    let c := fld (s.reg 0x7801 2) 11 6
    let b := fld (s.reg 0x7801 2) 5 0
    (s.pc c).retired = false →
    ((s.repair.waiting = [] → Completes (.repairLane h) s fun t =>
      (∃ w, t.repair = { s.repair with waiting := [w] } ∧ w.rung = 1 ∧ w.u.pc = c) ∧ (t.path h).armedAt = none ∧
      OnlyChanges [.repair, pathField h] s t)) ∧
    (b ∉ (s.pc c).rbanks → Completes (.repairRetireBank h) s fun t =>
      t.repair = { s.repair with due := s.repair.due ++ [.bank c b] } ∧ (t.path h).armedAt = none ∧ OnlyChanges [.repair, pathField h] s t) ∧
    (Completes (.repairRetirePc h) s fun t =>
      t.repair = { s.repair with due := s.repair.due ++ [.pc c .pc] } ∧ (t.path h).armedAt = none ∧ OnlyChanges [.repair, pathField h] s t) ∧
    (Completes (.repairRetireStack h) s fun t =>
      t.repair = { s.repair with due := s.repair.due ++ [.stack .stack] } ∧ (t.path h).armedAt = none ∧ OnlyChanges [.repair, pathField h] s t)

/-- REPAIR_CMD codes of the anchor, and the clearing of the map: code 6 sends the fence over the ring, and fences this tile at its next tick or has
another one's fostering due here; code 7 makes the restart of the tile named due at the tick; code 8 fosters each tile of the view across the split; code 0xE is noted for the next start. -/
def Claims.RepairCommandsOfAnchor : Prop :=
  ∀ (s : State) (h : Path) (u : BitVec 4), s.dictOn = true → s.guardOk h = true → s.isAnchor = true →
    (u.toNat < s.n → bit s.repair.view u.toNat = true → Completes (.repairFenceTile h u) s fun t =>
      t.repair = { s.repair with due := s.repair.due ++ [if u.toNat = s.t then .fence .command else .foster u.toNat] } ∧
      t.out = s.out ++ [.ring (.fence u.toNat)] ∧
      OnlyChanges [.repair, .out, pathField h] s t) ∧
    (u.toNat < s.n → Completes (.repairRestartTile h u false) s fun t =>
      t.repair = { s.repair with due := s.repair.due ++ [.restart u.toNat] } ∧ OnlyChanges [.repair, pathField h] s t) ∧
    (s.repair.split.isSome = true → Completes (.repairFosterSplit h) s fun t =>
      (∀ k, k < s.n → s.across k = true → bit s.repair.view k = true → RungAct.foster k ∈ t.repair.due ∧ Out.ring (.foster k) ∈ t.out) ∧
      OnlyChanges [.repair, .out, pathField h] s t) ∧
    (Completes (.repairMapClear h) s fun t =>
      t.repair = { s.repair with clearDue := true } ∧ (t.path h).armedAt = none ∧ OnlyChanges [.repair, pathField h] s t)

/-- A fenced tile that the anchor restarts begins a start of cause 3. -/
def Claims.FencedTileRestarts : Prop :=
  ∀ (s : State) (h : Path) (u : BitVec 4), s.repair.fenced.isSome = true → s.boot.prog = none → s.boot.hmErasing = false →
    Completes (.repairRestartTile h u true) s fun t =>
      t.boot.st = 1 ∧ t.boot.cause = 3 ∧ t.repair.fenced = none ∧ t.phase = 0 ∧ t.clk = s.clk ∧ t.nor = s.nor

/-! ### Commits and power domains -/

/-- A commit armed for a frame that is 6 to 2^20 frames ahead, with none armed: COMMIT reads its kind and its tick is kept; a package commit sends
PREPARE with the next generation and the digest of the staged set. -/
def Claims.CommitArms : Prop :=
  ∀ (s : State) (h : Path), s.dictOn = true → s.commit.armed = 0 →
    let at_ := s.regs 0x1500 3 4
    let f := if at_ = 0 then s.frame + (s.reg 0x1500 2).toNat else at_
    s.frame + 6 ≤ f → f ≤ s.frame + 2 ^ 20 →
    (Completes (.commitArmTile h) s fun t =>
      t.commit = { s.commit with armed := 1, f := BitVec.ofNat 64 f, decided := false } ∧ OnlyChanges [.commit, pathField h] s t) ∧
    (s.isAnchor = true → Completes (.commitArmPackage h) s fun t =>
      t.commit = { s.commit with armed := 2, f := BitVec.ofNat 64 f, decided := false, votes := [] } ∧
      t.out = s.out ++ [.ring (.prepare (BitVec.ofNat 64 f) (s.anvil.gen + 1) (s.digest true))] ∧ OnlyChanges [.commit, .out, pathField h] s t)

/-- A commit armed less than 6 or more than 2^20 frames ahead, or while one is armed, is refused: result 3 and event 0x0311, and what is armed stands. -/
def Claims.CommitRefusedAtArming : Prop :=
  ∀ (s : State) (h : Path), s.dictOn = true →
    let at_ := s.regs 0x1500 3 4
    let f := if at_ = 0 then s.frame + (s.reg 0x1500 2).toNat else at_
    (f < s.frame + 6 ∨ s.frame + 2 ^ 20 < f ∨ s.commit.armed ≠ 0) →
    Completes (.commitArmTile h) s fun t =>
      t.commit = { s.commit with result := 3 } ∧ (∃ args, LogsOne s t 0x0311 args) ∧ OnlyChanges [.commit, .log, .maint, .out, pathField h] s t

/-- A PD_ENABLE write that keeps the rules of the domains awaits the tick, with bits 0 and 1 reading 1; one that breaks them is ignored with event 0x0201.
No domain changes at the write. -/
def Claims.PowerWriteAwaitsTick : Prop :=
  ∀ (s : State) (h : Path) (v : BitVec 32), s.dictOn = true → s.guardOk h = true →
    let w := (v &&& 0x3FFFFFFF) ||| 3
    (s.pdBad w = false → Completes (.pdEnableWrite h v) s fun t =>
      t.pd = { s.pd with due := some w } ∧ (t.path h).armedAt = none ∧ OnlyChanges [.pd, pathField h] s t) ∧
    (s.pdBad w = true → Completes (.pdEnableWrite h v) s fun t =>
      LogsOne s t 0x0201 [] ∧ t.pd = s.pd ∧ (t.path h).armedAt = none ∧ OnlyChanges [.log, .maint, .out, pathField h] s t)

/-- A domain that was switched on is usable once it is powered; with no request waiting for it, nor, for PD11, any work of the Seam engine, nothing else
changes. -/
def Claims.DomainBecomesUsable : Prop :=
  ∀ (s : State) (d : Fin 30), bit s.pd.rising d.val = true → s.ha.held = [] →
    (d.val = 11 → s.seam.updates = [] ∧ s.seam.writes = [] ∧ s.sched.parts = []) → Completes (.domainPowered d) s fun t =>
    t.dom d.val = true ∧ bit t.pd.rising d.val = false ∧ (∀ k : Fin 30, k ≠ d → t.dom k.val = s.dom k.val) ∧ t.pd.due = s.pd.due ∧
    OnlyChanges [.pd] s t

/-- PREPARE freezes the staged set of a tile that is not fenced, for the frame it names; no register changes. -/
def Claims.PrepareFreezes : Prop :=
  ∀ (s : State) (f : BitVec 64) (gen d : BitVec 32), s.repair.fenced = none → s.commit.prepared = false → s.isAnchor = false →
    Completes (.commitPrepare f gen d) s fun t =>
      t.commit.prepared = true ∧ t.commit.pf = f ∧ t.commit.gen = gen ∧ t.commit.digest = d ∧ t.commit.go = none ∧ t.commit.armed = s.commit.armed ∧
      t.out.getLast? = some (.ring (.vote s.t (s.digest true))) ∧ OnlyChanges [.commit, .log, .maint, .out] s t

/-- At the anchor the vote of a tile that the ring reaches is kept; the decision at tick F − 2 is GO when every tile of the view has voted with the anchor's digest, and
ABORT with event 0x0310 otherwise. -/
def Claims.AnchorDecides : Prop :=
  ∀ s : State, s.dom 1 = true → s.isAnchor = true → s.commit.armed = 2 →
    (∀ (u : TileNo) (d : BitVec 32), u.val < s.n → s.across u.val = false → Completes (.commitVote u d) s fun t =>
      SMap.look t.commit.votes u.val = some d ∧ (∀ k, k ≠ u.val → SMap.look t.commit.votes k = SMap.look s.commit.votes k) ∧
      t.commit.prepared = s.commit.prepared ∧ OnlyChanges [.commit] s t) ∧
    (s.commit.prepared = true → s.commit.decided = false → s.commit.pf.toNat ≤ s.frame + 2 →
      ((∀ u ∈ s.viewTiles, SMap.look s.commit.votes u = some s.commit.digest) → Completes .commitDecide s fun t =>
        t.commit = { s.commit with decided := true, go := some s.anvil.frameNo } ∧ t.out = s.out ++ [.ring (.go s.commit.pf)] ∧
        OnlyChanges [.commit, .out] s t) ∧
      (∀ u ∈ s.viewTiles, u < 8 → SMap.look s.commit.votes u ≠ some s.commit.digest → Completes .commitDecide s fun t =>
        t.commit.prepared = false ∧ t.commit.armed = 0 ∧ t.commit.result = 2 ∧ t.commit.go = none ∧ (∃ args, LogsOne s t 0x0310 args) ∧
        OnlyChanges [.commit, .log, .maint, .out] s t))

/-- GO is kept until the tick applies the commit; ABORT applies nothing, keeps the staged set and logs event 0x0310 with the tiles it names. -/
def Claims.GoAndAbort : Prop :=
  ∀ (s : State) (m d : BitVec 8), s.commit.prepared = true → s.commit.go = none → s.dom 1 = true →
    (Completes .commitGo s fun t =>
      t.commit = { s.commit with go := some s.anvil.frameNo, decided := true } ∧ OnlyChanges [.commit] s t) ∧
    (Completes (.commitAbort m d) s fun t =>
      t.commit.prepared = false ∧ t.commit.result = 2 ∧ t.commit.go = none ∧ t.dict = s.dict ∧
      LogsOne s t 0x0310 (two s.commit.pf.toNat ++ [m.setWidth 16, d.setWidth 16]) ∧ OnlyChanges [.commit, .log, .maint, .out] s t)

/-- At its tick an armed tile commit with nothing staged raises CONFIG_GEN by 1, reads as applied and is no longer armed. -/
def Claims.TileCommitApplies : Prop :=
  ∀ s : State, s.commit.prepared = false → s.commit.armed = 1 → s.commit.f.toNat ≤ s.frame → s.dict.staged = [] → s.phy.ovrDue = [] → s.dom 1 = true →
    Completes .commitApply s fun t =>
      t.anvil.gen = s.anvil.gen + 1 ∧ t.commit.armed = 0 ∧ t.commit.result = 1 ∧ t.commit.refused = 0 ∧ t.dict = s.dict ∧
      t.log.entries.getLast? = some (s.event 0x0313 (two (s.anvil.gen + 1).toNat ++ two s.commit.f.toNat ++ [0])) ∧
      t.store = s.store ∧ t.ports = s.ports ∧ t.pcs = s.pcs

/-- A commit applies a staged per-tile word outside the checked groups: it becomes the applied value and is no longer staged. -/
def Claims.CommitAppliesStagedWord : Prop :=
  ∀ (s : State) (v : Word), s.commit.prepared = false → s.commit.armed = 1 → s.commit.f.toNat ≤ s.frame → s.phy.ovrDue = [] →
    s.dict.staged = [(wkey 0x3410 1, v)] →
    Completes .commitApply s fun t =>
      t.reg 0x3410 1 = v ∧ t.dict.staged = [] ∧ OnlyWord s t 0x3410 1 ∧ t.anvil.gen = s.anvil.gen + 1

/-- Neither GO nor ABORT for 64 frames of holding is a tile fault: counted, logged as event 0x0E02, and its fence is due at the next tick. -/
def Claims.CommitHoldFences : Prop :=
  ∀ (s : State) (f : BitVec 64), s.commit.holdSince = some f → f.toNat + 64 ≤ s.frame → s.repair.fenced = none → .fence .commitHold ∉ s.repair.due →
    Completes .commitHoldTimeout s fun t =>
      t.repair = { s.repair with due := s.repair.due ++ [.fence .commitHold] } ∧ s.tileFaultSeen t ∧ OnlyChanges [.repair, .ctr, .log, .maint, .out] s t

/-- The initialisation of the stack's lines ends, and with it the wait of the requests. -/
def Claims.MapInitEnds : Prop :=
  ∀ s : State, Completes .mapInitDone s fun t => t.store = { s.store with initing := false } ∧ OnlyChanges [.store] s t

/-! ### Anvil -/

/-- The frame tick: FRAME_NO rises by one, the next frame begins at the next multiple of 1024 cycles, and the descriptor moves on, at the last one back to 0
with ROUND_NO one up. Slot 0 of that descriptor is presented. (The tile's own restart, where it is fenced and told to, and the end of a heal's copy, which
brings the anchor's CONFIG_GEN, stand apart.) -/
def Claims.FrameTick : Prop :=
  ∀ s : State, s.dom 2 = true → s.repair.fenced = none ∨ .restart s.t ∉ s.repair.due → s.repair.copying = none → Completes .frameTick s fun t =>
    t.anvil.frameNo = s.anvil.frameNo + 1 ∧ t.clk.now = (s.clk.now / 1024 + 1) * 1024 ∧
    (if s.anvil.descr + 1 < (s.reg 0x2100 1).toNat then t.anvil.descr = s.anvil.descr + 1 ∧ t.anvil.roundNo = s.anvil.roundNo
     else t.anvil.descr = 0 ∧ t.anvil.roundNo = s.anvil.roundNo + 1) ∧
    t.anvil.slot = 0 ∧ t.anvil.slotWord = s.reg (0x2200 + t.anvil.descr) 1 ∧ t.anvil.gen = s.anvil.gen

/-- With its outputs suppressed the tick moves time and the sequence alone, but for a fence that is due: the tile is fenced, its stack in self-refresh, its key
slots and cipher queue empty, ZG_ALERT_N low, with event 0x0E0B. A fenced tile that is told to restart begins a start of cause 3 at the tick. -/
def Claims.FrameTickSuppressed : Prop :=
  ∀ s : State, s.dom 2 = true → s.anvil.lockstepOk = false →
    (s.repair.due = [] → Completes .frameTick s fun t =>
      t.anvil.frameNo = s.anvil.frameNo + 1 ∧ OnlyChanges [.anvil, .clk] s t) ∧
    (∀ c, s.repair.due = [.fence c] → s.repair.fenced = none → s.repair.recov = none → s.dom 1 = true → Completes .frameTick s fun t =>
      t.anvil.frameNo = s.anvil.frameNo + 1 ∧ t.repair = { s.repair with fenced := some c, waiting := [] } ∧ t.store.selfRef = true ∧
      t.store.data = s.store.data ∧ t.cipher.slots = [] ∧ t.cipher.ents = [] ∧ t.pins = { s.pins with alertLow := true } ∧
      (∃ e, t.log = s.log.push e ∧ e.code = 0x0E0B ∧ e.args = [Config.fenceCode c]) ∧
      OnlyChanges [.anvil, .clk, .repair, .store, .pcs, .cipher, .pins, .log, .maint, .out] s t) ∧
    (s.repair.fenced.isSome = true → .restart s.t ∈ s.repair.due → s.boot.prog = none → s.boot.hmErasing = false → Completes .frameTick s fun t =>
      t.boot.st = 1 ∧ t.boot.cause = 3 ∧ t.repair.fenced = none ∧ t.anvil.frameNo = s.anvil.frameNo + 1 ∧ t.nor = s.nor)

/-- A slot starts 64 cycles after the one before: its word of the descriptor is presented, and Anvil, the pseudo-channels' due maintenance and the stack's
command buses are all that changes. -/
def Claims.SlotStart : Prop :=
  ∀ s : State, s.dom 2 = true → s.anvil.lockstepOk = true → s.anvil.slot < 16 → Completes .slotStart s fun t =>
    t.anvil = { s.anvil with slot := s.anvil.slot + 1, slotWord := s.reg (0x2200 + s.anvil.descr) (s.anvil.slot + 1) } ∧
    t.clk.now = max s.clk.now (s.clk.now - s.cyc + 64 * s.anvil.slot) ∧ OnlyChanges [.anvil, .clk, .pcs, .out, .ctr] s t

/-- A bank's debt rises by 1 at its instant; no other bank and no other pseudo-channel is touched. -/
def Claims.DebtAccrues : Prop :=
  ∀ (s : State) (c b : Pc), s.refreshes c = true → b.val < s.banks → s.tim 11 ≠ 0 → s.nextAccrual c b ≤ s.clk.now →
    Completes (.refreshDebtAccrue c b) s fun t =>
      (t.pc c).debt b = (s.pc c).debt b + 1 ∧ (∀ k, k ≠ b.val → (t.pc c).debt k = (s.pc c).debt k) ∧ OnlyPc s t c ∧ OnlyChanges [.pcs, .out, .ctr] s t

/-- The one forced refresh due on a pseudo-channel whose bank is ready and above the pull-in limit: its debt falls by 1, it is counted, and the command goes out. -/
def Claims.ForcedRefreshIssues : Prop :=
  ∀ (s : State) (c : Pc) (b : Nat), s.refreshes c = true → (s.pc c).forced = [b] → -((s.reg 0x2100 6).toNat : Int) < (s.pc c).debt b →
    (s.pc c).bankReady.getD b 0 ≤ s.clk.now →
    (s.pc c).rowFree ≤ s.clk.now → s.clk.now + s.tim 12 ≤ (s.clk.now / 1024 + 1) * 1024 → (s.pc c).down = none →
    Completes (.forcedRefresh c) s fun t =>
      (t.pc c).debt b = (s.pc c).debt b - 1 ∧ (∀ k, k ≠ b → (t.pc c).debt k = (s.pc c).debt k) ∧ (t.pc c).forced = [] ∧
      s.counted t 0x2104 1 1 ∧ Out.stack c s.clk.now (.refPb b true) ∈ t.out ∧ OnlyPc s t c ∧
      OnlyChanges [.pcs, .out, .ctr, .anvil, .log, .maint] s t

/-- The last per-bank refresh of a slot's batch, of which none has gone before: the bank of the highest debt is refreshed. -/
def Claims.PerBankRefreshIssues : Prop :=
  ∀ (s : State) (c : Pc), s.refreshes c = true → (s.pc c).refpb = 1 → (s.pc c).refab = false → (s.pc c).forced = [] → (s.pc c).bankReady = [] →
    (s.pc c).refpbFrom ≤ s.clk.now → (s.pc c).refpbDone = [] →
    (∃ b, b < s.banks ∧ -((s.reg 0x2100 6).toNat : Int) < (s.pc c).debt b) →
    max s.clk.now (s.pc c).rowFree + s.tim 12 ≤ (s.clk.now / 1024 + 1) * 1024 →
    Completes (.perBankRefresh c) s fun t =>
      (∃ b, b < s.banks ∧ (∀ k, k < s.banks → (s.pc c).debt k ≤ (s.pc c).debt b) ∧ (t.pc c).debt b = (s.pc c).debt b - 1 ∧
        (∀ k, k ≠ b → (t.pc c).debt k = (s.pc c).debt k) ∧ t.out = s.out ++ [.stack c (max s.clk.now (s.pc c).rowFree) (.refPb b false)]) ∧
      (t.pc c).refpb = 0 ∧ OnlyPc s t c ∧ OnlyChanges [.pcs, .out] s t

/-- An all-bank refresh that ends within the frame, with no forced refresh pending before it: every bank above the pull-in limit has its debt lowered by 1. -/
def Claims.AllBankRefreshIssues : Prop :=
  ∀ (s : State) (c : Pc), s.refreshes c = true → (s.pc c).refab = true → (s.pc c).forced = [] → (s.pc c).bankReady = [] →
    max s.clk.now (s.pc c).rowFree + s.tim 13 ≤ (s.clk.now / 1024 + 1) * 1024 →
    Completes (.allBankRefresh c) s fun t =>
      (∀ b, b < s.banks → (t.pc c).debt b =
        if -((s.reg 0x2100 6).toNat : Int) < (s.pc c).debt b then (s.pc c).debt b - 1 else (s.pc c).debt b) ∧
      (t.pc c).refab = false ∧ t.out = s.out ++ [.stack c (max s.clk.now (s.pc c).rowFree) .refAb] ∧ OnlyPc s t c ∧ OnlyChanges [.pcs, .out] s t

/-- The two copies of Anvil disagree: outputs suppressed, the stack in self-refresh, the notice sent, event 0x0301, and the tile's fence due at the next
tick. -/
def Claims.LockstepMismatchFences : Prop :=
  ∀ s : State, s.dom 1 = true → s.dom 2 = true → s.anvil.lockstepOk = true → s.repair.fenced = none → .fence .lockstep ∉ s.repair.due →
    Completes .lockstepMismatch s fun t =>
      t.anvil = { s.anvil with lockstepOk := false } ∧ t.repair = { s.repair with due := s.repair.due ++ [.fence .lockstep] } ∧ t.store.selfRef = true ∧
      t.store.data = s.store.data ∧ Out.ring (.fence s.t) ∈ t.out ∧ s.event 0x0301 (two s.frame ++ [w16 s.cyc]) ∈ t.log.entries ∧
      OnlyChanges [.anvil, .repair, .store, .pcs, .ctr, .log, .maint, .out] s t

/-- The first heartbeat of another tile in the frame is noted with what it says; a tile in service that names itself holds the anchor duties, for a tile that does
not hold them; the anchor's brings the offset measured. Four frames without one, and the tile is fostered at the following tick. -/
def Claims.Heartbeats : Prop :=
  ∀ s : State,
    (∀ hb : Heartbeat, hb.tile.val < s.n → hb.tile.val ≠ s.t → bit s.anvil.hbNow hb.tile.val = false → -2 ≤ hb.offset → hb.offset ≤ 2 →
      Completes (.heartbeatReceive hb) s fun t =>
        bit t.anvil.hbNow hb.tile.val = true ∧ SMap.look t.anvil.hb hb.tile.val = some { missed := 0, gen := hb.gen, st := hb.st, got := true } ∧
        t.repair.anchor = (if hb.anchor = hb.tile ∧ hb.st ≠ .fenced ∧ s.across hb.tile = false ∧ (s.repair.fenced.isSome = true ∨ s.isAnchor = false)
          then hb.tile.val else s.repair.anchor) ∧
        (∀ v, hb.life = some v → SMap.look t.repair.lives hb.tile.val = some v) ∧ (hb.life = none → t.repair.lives = s.repair.lives) ∧
        (hb.tile.val = t.repair.anchor → s.repair.fenced = none → t.anvil.tickOff = hb.offset ∧ t.anvil.offBad = false) ∧
        OnlyChanges [.anvil, .repair] s t) ∧
    (∀ (u : TileNo) (h : HbRec), SMap.look s.anvil.hb u.val = some h → 3 ≤ h.missed → bit s.anvil.hbNow u.val = false →
      bit s.repair.view u.val = true → s.cutFrom u.val = false → RungAct.foster u.val ∉ s.repair.due →
      Completes (.heartbeatLoss u) s fun t =>
        t.repair = { s.repair with due := s.repair.due ++ [.foster u.val] } ∧ OnlyChanges [.repair] s t)

/-- An anchor's heartbeat beyond ±2 cycles in a second frame running: not aligned, event 0x0306, and a clock fault, whose fence is due at the next tick. -/
def Claims.ClockFault : Prop :=
  ∀ (s : State) (hb : Heartbeat), hb.tile.val < s.n → hb.tile.val ≠ s.t → hb.tile.val = s.repair.anchor → s.repair.fenced = none →
    bit s.anvil.hbNow hb.tile.val = false → s.anvil.offBad = true → (2 < hb.offset ∨ hb.offset < -2) → s.dom 1 = true →
    Completes (.heartbeatReceive hb) s fun t =>
      t.anvil.aligned = false ∧ t.anvil.tickOff = hb.offset ∧ RungAct.fence .clock ∈ t.repair.due ∧ t.repair.fenced = none ∧
      s.event 0x0306 [ofI16 s.anvil.tickOff, ofI16 hb.offset] ∈ t.log.entries ∧ t.anvil.frameNo = s.anvil.frameNo ∧
      OnlyChanges [.anvil, .repair, .ctr, .log, .maint, .out] s t

/-! ### Ports -/

/-- The four port controls, on a word as PORT_CTRL keeps it. ENABLE set in service sends the initialisation word with the next epoch and CREDITS; ENABLE
cleared flushes the port and withholds the word; FLUSH flushes it; PULL and XOFF_PIN change their own bits. -/
def Claims.PortControls : Prop :=
  ∀ (s : State) (h : Path) (p : Port), s.dictOn = true → p.val ≠ 28 → p.val ≠ 29 → portCtrlKept (s.reg (0x3000 + p) 1) = true →
    (s.port p).flush = none → 1 ≤ fld (s.reg (0x3000 + p) 4) 15 8 →
    let old := s.reg (0x3000 + p) 1
    let flushed := fun (cause : Nat) (t : State) =>
      (t.port p).flush = some cause ∧ (t.port p).queue = [] ∧ (t.port p).early = [] ∧ (t.port p).fifo = [] ∧ (t.port p).xoff = false ∧
      (t.port p).panic = false ∧ (t.port p).epoch = (s.port p).epoch ∧ (∀ o ∈ (t.port p).onward, o.dropped = true ∧ o.reserved = 0) ∧
      LogsOne s t 0x0404 [w16 p, w16 cause, w16 ((s.port p).epoch + 1).toNat] ∧ OnlyPort s t p ∧
      OnlyChanges [.dict, .ports, .out, .log, .maint, .cipher, .budget, .snoops, .agents, pathField h] s t
    (bit old 15 = false → s.portsUp = true → s.boot.st = 2 → s.anvil.aligned = true → s.nextBusy p = false → Completes (.portEnable h p) s fun t =>
      t.reg (0x3000 + p) 1 = old ||| 0x8000 ∧ (t.port p).epoch = (s.port p).epoch + 1 ∧ (t.port p).live = true ∧
      (t.port p).reqCred = fld (s.reg (0x3000 + p) 3) 15 8 ∧ (t.port p).wrCred = fld (s.reg (0x3000 + p) 3) 7 0 ∧
      (let word := Out.initWord p ((s.port p).epoch + 1) (fld (s.reg (0x3000 + p) 3) 15 8) (fld (s.reg (0x3000 + p) 3) 7 0)
       t.out = s.out ++ [word] ∨ ∃ on, t.out = s.out ++ [word, .ring (.panic p on)]) ∧
      OnlyWord s t (0x3000 + p) 1 ∧ OnlyPort s t p ∧ OnlyChanges [.dict, .ports, .out, pathField h] s t) ∧
    (bit old 15 = true → Completes (.portDisable h p) s fun t =>
      t.reg (0x3000 + p) 1 = old &&& 0x7FFF ∧ (t.port p).flushOff = true ∧ flushed 4 t ∧ OnlyWord s t (0x3000 + p) 1) ∧
    (Completes (.portFlush h p) s fun t =>
      t.reg (0x3000 + p) 1 = old ∧ (t.port p).flushOff = false ∧ flushed 1 t ∧ OnlyWord s t (0x3000 + p) 1) ∧
    (∀ on, Completes (.portPullSet h p on) s fun t =>
      t.reg (0x3000 + p) 1 = setBit old 13 on ∧ portCtrlKept (t.reg (0x3000 + p) 1) = true ∧ OnlyWord s t (0x3000 + p) 1 ∧
      OnlyChanges [.dict, pathField h] s t) ∧
    (∀ pin : BitVec 4, pin.toNat ≤ 7 ∨ pin.toNat = 15 → Completes (.portXoffPinSet h p pin) s fun t =>
      t.reg (0x3000 + p) 1 = (old &&& 0xFF0F) ||| (pin.setWidth 16 <<< 4) ∧ portCtrlKept (t.reg (0x3000 + p) 1) = true ∧
      OnlyWord s t (0x3000 + p) 1 ∧ OnlyChanges [.dict, pathField h] s t)

/-- XOFF_PIN keeps its value where 8 to 14 is written, with event 0x0405. -/
def Claims.BadXoffPin : Prop :=
  ∀ (s : State) (h : Path) (p : Port) (pin : BitVec 4), s.dictOn = true → p.val ≠ 28 → p.val ≠ 29 → portCtrlKept (s.reg (0x3000 + p) 1) = true →
    8 ≤ pin.toNat → pin.toNat ≤ 14 →
    Completes (.portXoffPinSet h p pin) s fun t =>
      t.reg (0x3000 + p) 1 = s.reg (0x3000 + p) 1 ∧ (∃ args, LogsOne s t 0x0405 args) ∧ OnlyWord s t (0x3000 + p) 1 ∧
      OnlyChanges [.dict, .log, .maint, .out, pathField h] s t

/-- A well-formed request of the epoch in force, with a credit, joins the port's queue and spends the credit, whatever its opcode; nothing leaves the
port for it yet. -/
def Claims.RequestAccepted : Prop :=
  ∀ (s : State) (p : Port) (op : Op) (w : ReqWord), op ≠ .masterReset → s.portsUp = true → internalPort p = false → s.epochOk p w.epoch = true →
    (s.port p).reqCred ≠ 0 → formatCause p op w = 0 → (s.port p).early = [] →
    Completes (requestOf op p w) s fun t =>
      (t.port p).queue = (s.port p).queue ++ [{ op := op, w := w }] ∧ (t.port p).reqCred = (s.port p).reqCred - 1 ∧
      (t.port p).wrCred = (s.port p).wrCred ∧ (t.port p).fifo = (s.port p).fifo ∧ (t.port p).onward = (s.port p).onward ∧
      OnlyPort s t p ∧ OnlyChanges [.ports, .out] s t

/-- A request of a malformed word, or of a code that R89 does not list, is answered with one FORMAT_FAULT beat of its TAG and event 0x0403, and its credit
returns. A malformed write request waits in the queue for the lines it owns (R90, R96), and is answered so with its last: its credit and theirs return. One
with LAST 1 on a failed stream closes the stream besides (R257). -/
def Claims.MalformedRequestAnswered : Prop :=
  ∀ (s : State) (p : Port) (w : ReqWord), s.dom 1 = true → s.portsUp = true → internalPort p = false → s.epochOk p w.epoch = true →
    (s.port p).reqCred ≠ 0 → (s.port p).early = [] → (s.port p).respLevel < 64 → (s.port p).flush = none →
    let answered := fun (code : Nat) (cause : Nat) (t : State) =>
      (t.port p).fifo = (s.port p).fifo ++ [(statusBeat .formatFault w.tag .none 0, 0)] ∧ (t.port p).queue = (s.port p).queue ∧
      (t.port p).reqCred = (s.port p).reqCred ∧ LogsOne s t 0x0403 [w16 p, w16 code, w16 w.tag.toNat, w16 cause] ∧ OnlyPort s t p ∧
      OnlyChanges [.ports, .out, .log, .maint] s t
    let closes := fun (x : ReqWord) (k : Nat) => ∃ d e, x.desc = some d ∧ d.cv = true ∧ d.first = false ∧ d.last = true ∧
      s.stream p d.stream.toNat = some (k, e) ∧ e.failed.isSome = true
    (∀ op, isWrite op = false → formatCause p op w ≠ 0 → (∀ k, ¬ closes w k) →
      Completes (requestOf op p w) s (answered (opCode op) (formatCause p op w))) ∧
    (∀ op k, isWrite op = false → formatCause p op w ≠ 0 → closes w k → Completes (requestOf op p w) s fun t =>
      SMap.look t.cipher.ents k = none ∧ (t.port p).fifo = (s.port p).fifo ++ [(statusBeat .formatFault w.tag .none 0, 0)] ∧
      LogsOne s t 0x0403 [w16 p, w16 (opCode op), w16 w.tag.toNat, w16 (formatCause p op w)] ∧ OnlyPort s t p ∧
      OnlyChanges [.ports, .out, .log, .maint, .cipher, .freeCount] s t) ∧
    (∀ op, isWrite op = true → formatCause p op w ≠ 0 → Completes (requestOf op p w) s fun t =>
      (t.port p).queue = (s.port p).queue ++ [{ op := op, w := w, bad := some (BitVec.ofNat 4 (opCode op), formatCause p op w) }] ∧
      (t.port p).reqCred = (s.port p).reqCred - 1 ∧ (t.port p).fifo = (s.port p).fifo ∧ OnlyPort s t p ∧ OnlyChanges [.ports, .out] s t) ∧
    (∀ (r : QReq) (code : BitVec 4) (cause : Nat), (s.port p).queue = [r] → r.bad = some (code, cause) → (s.port p).resets = [] →
      (isWrite r.op = true → r.w.count ≤ r.got.length) → r.w.epoch = (s.port p).epoch → (∀ k, ¬ closes r.w k) → Completes (.requestLeaveQueue p) s fun t =>
        (t.port p).queue = [] ∧ (t.port p).fifo = (s.port p).fifo ++ [(statusBeat .formatFault r.w.tag .none 0, 0)] ∧
        (t.port p).reqCred = (s.port p).reqCred + 1 ∧ (t.port p).wrCred = (s.port p).wrCred + r.got.length ∧
        LogsOne s t 0x0403 [w16 p, w16 code.toNat, w16 r.w.tag.toNat, w16 cause] ∧ OnlyPort s t p ∧ OnlyChanges [.ports, .out, .log, .maint] s t) ∧
    (∀ code : BitVec 4, 7 ≤ code.toNat → code.toNat ≤ 14 → (∀ k, ¬ closes w k) → Completes (.unlistedOpcode p code w) s (answered code.toNat 1))

/-- R97: a request, of whatever opcode, or a line whose EPOCH differs from the epoch in force is dropped, and so is every one at a port whose ENABLE is 0
or that has no epoch in force. No credit returns, no response is sent and no port changes (it is no credit overrun); it counts in EPOCH_DROPS, and event
0x0401 is logged at most once in 8192 frames. -/
def Claims.OtherEpochDropped : Prop :=
  ∀ (s : State) (c : Instr) (p : Port) (e : BitVec 2), s.dom 1 = true → s.portsUp = true → internalPort p = false →
    (s.enabled p = false ∨ (s.port p).live = false ∨ e ≠ (s.port p).epoch) →
    ((∃ op w, c = requestOf op p w ∧ w.epoch = e) ∨ (∃ code w, c = .unlistedOpcode p code w ∧ w.epoch = e) ∨
      (∃ l, c = .writeLine p l ∧ l.epoch = e)) →
    Completes c s fun t =>
      s.counted t (0x3100 + p) 8 1 ∧
      (if ∀ f, SMap.look s.log.seen (limKey 0x0401 0) = some f → f + 8192 ≤ s.frame then ∃ held, t.log.entries.getLast? = some (s.event 0x0401 [w16 p, held])
       else t.log.entries = s.log.entries) ∧
      (t.out = s.out ∨ ∃ b, t.out = s.out ++ [.ibi b]) ∧ OnlyChanges [.ctr, .log, .maint, .out] s t

/-- A request or line sent without a credit is a credit overrun: it is dropped, event 0x0402 is logged with the port and the channel, and the port is
flushed; a flush in progress absorbs it. -/
def Claims.OverrunFlushes : Prop :=
  ∀ (s : State) (c : Instr) (p : Port) (e : BitVec 2) (channel : Word), s.dom 1 = true → s.portsUp = true → internalPort p = false →
    s.epochOk p e = true →
    ((∃ op w, c = requestOf op p w ∧ w.epoch = e ∧ (s.port p).reqCred = 0 ∧ channel = 0) ∨
      (∃ l, c = .writeLine p l ∧ l.epoch = e ∧ (s.port p).wrCred = 0 ∧ channel = 1)) →
    ((s.port p).flush = none → Completes c s fun t =>
      t.log = (s.log.push (s.event 0x0402 [w16 p, channel])).push (s.event 0x0404 [w16 p, 2, w16 ((s.port p).epoch + 1).toNat]) ∧
      (t.port p).flush = some 2 ∧ (t.port p).queue = [] ∧ (t.port p).early = [] ∧ (t.port p).fifo = [] ∧ OnlyPort s t p ∧
      OnlyChanges [.ports, .out, .log, .maint, .cipher, .budget, .snoops, .agents] s t) ∧
    ((s.port p).flush.isSome = true → Completes c s fun t =>
      LogsOne s t 0x0402 [w16 p, channel] ∧ OnlyChanges [.log, .maint, .out] s t)

/-- MASTER_RESET on a port with nothing of the master's, from a master that is enabled, while no commit holds the checks: one RESET_DONE beat with the request's TAG and the master in its
data, event 0x0406, and the request's credit returned. -/
def Claims.MasterResetDone : Prop :=
  ∀ (s : State) (p : Port) (w : ReqWord), s.dom 1 = true → s.portsUp = true → internalPort p = false → s.epochOk p w.epoch = true →
    (s.port p).reqCred ≠ 0 → formatCause p .masterReset w = 0 → bit (s.masterWord w.master) 15 = true →
    s.restoringKey (masterKey w.master.toNat) = false → s.checkHeld = false → (s.port p).respLevel < 64 → (s.port p).queue = [] → (s.port p).onward = [] →
    (s.port p).resets = [] → (s.port p).flush = none → s.cipher.ents = [] →
    Completes (.masterReset p w) s fun t =>
      (t.port p).fifo = (s.port p).fifo ++ [({ statusBeat .resetDone w.tag .none 0 with data := w.master.setWidth 512 }, 0)] ∧
      (t.port p).reqCred = (s.port p).reqCred ∧ LogsOne s t 0x0406 [w16 p, w16 w.master.toNat, w16 w.tag.toNat] ∧ OnlyPort s t p ∧
      (bit (s.masterWord w.master) 13 = true → coherentPort p = true → Out.ring (.deadAgent (agentOf s.t p) .reset) ∈ t.out) ∧
      OnlyChanges [.ports, .out, .log, .maint, .snoops, .agents] s t

/-- A write line spends a write credit and goes to the oldest write request whose lines are not all received; with none waiting it is held for the next. -/
def Claims.WriteLineTaken : Prop :=
  ∀ (s : State) (p : Port) (l : WLine), s.portsUp = true → internalPort p = false → s.epochOk p l.epoch = true → (s.port p).wrCred ≠ 0 →
    (s.port p).early = [] →
    (∀ r, (s.port p).queue = [r] → isWrite r.op = true → r.got.length < r.w.count →
      l.last = (r.got.length + 1 == r.w.count) → Completes (.writeLine p l) s fun t =>
        (t.port p).queue = [{ r with got := r.got ++ [l] }] ∧ (t.port p).early = [] ∧ (t.port p).wrCred = (s.port p).wrCred - 1 ∧
        (t.port p).fifo = (s.port p).fifo ∧ OnlyPort s t p ∧ OnlyChanges [.ports, .out] s t) ∧
    ((s.port p).queue = [] → Completes (.writeLine p l) s fun t =>
      (t.port p).queue = [] ∧ (t.port p).early = [l] ∧ (t.port p).wrCred = (s.port p).wrCred - 1 ∧ OnlyPort s t p ∧
      OnlyChanges [.ports, .out] s t)

/-- The one request of a port's queue, a READ or write with all its lines that passes the check to ordinary service, leaves: it is charged, counted for its
master and its home's share, its response entries are reserved, and it goes to the tile that serves its address. -/
def Claims.RequestLeaves : Prop :=
  ∀ (s : State) (p : Port) (r : QReq), s.portsUp = true → (s.port p).queue = [r] → r.bad = none → r.op ≠ .masterReset →
    (s.port p).flush = none → (s.port p).resets = [] → s.checkHeld = false → s.inLanes p r.w = false →
    (isWrite r.op = true → r.w.count ≤ r.got.length) → s.underCap r.w.master = true →
    (∃ coh, s.check p r.op r.w = .pass false coh) → s.store.initing = false → s.room p r.need = true →
    (∀ coh, s.here r.op coh r.w.byteAddr r.w.count = none) →
    let home := s.serves r.w.byteAddr r.w.count
    s.hasShare home = true →
    Completes (.requestLeaveQueue p) s fun t =>
      (t.port p).queue = [] ∧ (t.port p).fifo = (s.port p).fifo ∧
      (∃ o, (t.port p).onward = (s.port p).onward ++ [o] ∧ o.op = r.op ∧ o.addr = r.w.byteAddr ∧ o.lines = r.w.count ∧ o.tag = r.w.tag ∧
        o.master = r.w.master ∧ o.home = home ∧ o.reserved = r.need ∧ o.txid = s.sched.txid + 1 ∧ o.dropped = false) ∧
      t.budget.used.getD r.w.master.toNat 0 = s.budget.used.getD r.w.master.toNat 0 + chargeOf r.op r.w.count ∧
      t.budget.outst.getD r.w.master.toNat 0 = s.budget.outst.getD r.w.master.toNat 0 + 1 ∧
      t.budget.shareHeld.getD home 0 = s.budget.shareHeld.getD home 0 + 1 ∧
      (∃ (l : List Out) (q : HReq), t.out = s.out ++ l ∧ Out.ring (.request home (s.arcTo home) q) ∈ l ∧ q.tile = s.t ∧ q.port = p ∧
        q.txid = s.sched.txid + 1 ∧ q.op = r.op ∧ q.addr = r.w.byteAddr ∧ q.lines = r.w.count ∧
        q.master = r.w.master ∧ q.data = r.data) ∧
      OnlyPort s t p ∧ OnlyChanges [.ports, .out, .budget, .sched, .ctr, .log, .maint] s t

/-- A request that the access check refuses is answered at its port with the refusal's status and its TAG; it is counted, and goes to no home. -/
def Claims.RefusedRequestAnswered : Prop :=
  ∀ (s : State) (p : Port) (r : QReq) (st : Status) (code entry : Nat), s.portsUp = true → (s.port p).queue = [r] → r.bad = none →
    r.op = .read ∨ r.op = .writeAck → (isWrite r.op = true → r.w.count ≤ r.got.length) → r.w.spec = false → r.w.desc = none →
    (s.port p).flush = none → (s.port p).resets = [] → s.checkHeld = false → s.underCap r.w.master = true → s.check p r.op r.w = .refuse st code entry → s.room p 1 = true →
    Completes (.requestLeaveQueue p) s fun t =>
      (t.port p).queue = [] ∧ (t.port p).fifo = (s.port p).fifo ++ [(statusBeat st r.w.tag .none 0, 0)] ∧
      s.counted t 0x3403 5 1 ∧ (t.port p).onward = (s.port p).onward ∧ t.budget = s.budget ∧ t.store = s.store ∧
      (∀ u arc q, Out.ring (.request u arc q) ∈ t.out → Out.ring (.request u arc q) ∈ s.out) ∧ OnlyPort s t p ∧
      OnlyChanges [.ports, .out, .ctr, .log, .maint] s t

/-- The head of a port moves to its consumer, a mailbox record before any beat: in push mode as RESPONSE_PUSH, in pull mode at the strobe; a strobe on an
empty port is answered NOT_VALID. -/
def Claims.BeatsMove : Prop :=
  ∀ (s : State) (p : Port), s.portsUp = true →
    let moved := fun (b : Beat) (t : State) =>
      t.out = s.out ++ [.beat p b] ∨ ∃ on, t.out = s.out ++ [.beat p b, .ring (.panic p on)]
    let c := fun (pull : Bool) => if pull then Instr.pullStrobe p else .responsePush p
    (∀ r rest, (s.port p).mbox = r :: rest → Completes (c (s.port p).pull) s fun t =>
      t.out = s.out ++ [.beat p (mboxBeat r)] ∧ (t.port p).mbox = rest ∧ (t.port p).fifo = (s.port p).fifo ∧ OnlyPort s t p ∧
      OnlyChanges [.ports, .out] s t) ∧
    (∀ b rest, (s.port p).mbox = [] → (s.port p).fifo = b :: rest → Completes (c (s.port p).pull) s fun t =>
      moved b.1 t ∧ (t.port p).fifo = rest ∧ (t.port p).queue = (s.port p).queue ∧ OnlyPort s t p ∧ OnlyChanges [.ports, .out] s t) ∧
    ((s.port p).mbox = [] → (s.port p).fifo = [] → (s.port p).pull = true → Completes (.pullStrobe p) s fun t =>
      (∃ b : Beat, t.out = s.out ++ [.beat p b] ∧ b.status = .notValid ∧ b.data = 0) ∧ OnlyChanges [.out, .freeCount] s t)

/-- The home's answer to a WRITE_ACK: one beat with its status and TAG, and the request is no longer outstanding. A one-line READ's line takes the entry
reserved for it. -/
def Claims.ResponsesReturn : Prop :=
  ∀ (s : State) (p : Port) (o : Onward) (a : LineAns), s.portsUp = true → (s.port p).onward = [o] → o.dropped = false → o.cent = none →
    (s.port p).resets = [] →
    let m : RespMsg := { port := p, txid := o.txid, cresp := .none, lines := [a] }
    (o.op = .writeAck → o.st = .ok → Completes (.responseReturn m) s fun t =>
      (t.port p).fifo = (s.port p).fifo ++ [(statusBeat a.status o.tag .none o.cstat, o.addr)] ∧ (t.port p).onward = [] ∧
      t.budget.outst.getD o.master.toNat 0 = s.budget.outst.getD o.master.toNat 0 - 1 ∧ OnlyPort s t p ∧ OnlyChanges [.ports, .out, .budget] s t) ∧
    (o.op = .read → o.lines = 1 → o.reserved = 1 → o.beats = [] → a.line = 0 → a.status = .ok → Completes (.responseReturn m) s fun t =>
      (∃ b : Beat, (t.port p).fifo = (s.port p).fifo ++ [(b, o.addr)] ∧ b.status = .ok ∧ b.line = 0 ∧ b.last = true ∧ b.tag = o.tag ∧
        b.data = a.data ∧ b.corrected = a.corrected) ∧ (t.port p).onward = [] ∧
      t.budget.outst.getD o.master.toNat 0 = s.budget.outst.getD o.master.toNat 0 - 1 ∧ OnlyPort s t p ∧ OnlyChanges [.ports, .out, .budget] s t)

/-- A flush ends once the next epoch has no onward request outstanding, with the initialisation word of that epoch; after a disable the word is withheld,
the port has no epoch in force and FLUSH reads 1 still. -/
def Claims.FlushEnds : Prop :=
  ∀ (s : State) (p : Port), s.portsUp = true → s.nextBusy p = false → (s.port p).flush.isSome = true →
    let c := s.reg (0x3000 + p) 3
    ((s.port p).flushOff = false → s.enabled p = true → Completes (.flushComplete p) s fun t =>
      (t.port p).flush = none ∧ (t.port p).epoch = (s.port p).epoch + 1 ∧ (t.port p).live = true ∧ (t.port p).reqCred = fld c 15 8 ∧
      (t.port p).wrCred = fld c 7 0 ∧
      (let word := Out.initWord p ((s.port p).epoch + 1) (fld c 15 8) (fld c 7 0)
       t.out = s.out ++ [word] ∨ ∃ on, t.out = s.out ++ [word, .ring (.panic p on)]) ∧ OnlyPort s t p ∧
      OnlyChanges [.ports, .out] s t) ∧
    ((s.port p).flushOff = true → Completes (.flushComplete p) s fun t =>
      (t.port p).flush = (s.port p).flush ∧ (t.port p).live = false ∧ (t.port p).epoch = (s.port p).epoch ∧ t.out = s.out ∧ OnlyPort s t p ∧
      OnlyChanges [.ports] s t)

/-- The notice of a posted write's completion: it is no longer outstanding at its port, for its master or for its home's share. Of another request the notice
says that its last access is issued: its entry of the home's share is free (log entry 72: that the home sends it is the model's choice), and nothing else
changes. -/
def Claims.PostedWriteCompletes : Prop :=
  ∀ (s : State) (p : Port) (o : Onward), (s.port p).onward = [o] → o.share = true →
    (o.op ≠ .writePosted → Completes (.completionNotice p o.txid) s fun t =>
      (t.port p).onward = [{ o with share := false }] ∧ t.budget.shareHeld.getD o.home 0 = s.budget.shareHeld.getD o.home 0 - 1 ∧
      t.budget.outst = s.budget.outst ∧ (t.port p).queue = (s.port p).queue ∧ (t.port p).fifo = (s.port p).fifo ∧ OnlyPort s t p ∧
      OnlyChanges [.ports, .budget] s t) ∧
    (o.op = .writePosted → (s.port p).resets = [] → Completes (.completionNotice p o.txid) s fun t =>
      (t.port p).onward = [] ∧ t.budget.outst.getD o.master.toNat 0 = s.budget.outst.getD o.master.toNat 0 - 1 ∧
      t.budget.shareHeld.getD o.home 0 = s.budget.shareHeld.getD o.home 0 - 1 ∧ (t.port p).queue = (s.port p).queue ∧
      (t.port p).fifo = (s.port p).fifo ∧ (o.cent = none → t.cipher = s.cipher) ∧ OnlyPort s t p ∧ OnlyChanges [.ports, .out, .budget, .cipher] s t)

/-- A window begins once at a tick whose FRAME_NO is a multiple of WINDOW: the master's charged amount is 0, and no other master's has changed. -/
def Claims.WindowBegins : Prop :=
  ∀ (s : State) (m : BitVec 8), s.frame % (s.reg (0x3412 + m.toNat / 128) (m.toNat % 128 + 1)).toNat = 0 → m.toNat ∉ s.budget.rewind →
    s.cyc = 0 → SMap.look s.budget.began m.toNat ≠ some s.frame →
    Completes (.budgetWindowStart m) s fun t =>
      t.budget.used.getD m.toNat 0 = 0 ∧ (∀ k, k ≠ m.toNat → t.budget.used.getD k 0 = s.budget.used.getD k 0) ∧
      t.budget.outst = s.budget.outst ∧ OnlyChanges [.budget] s t

/-! ### The access check -/

/-- The order of the access check: an address at or beyond MAP_END is an address fault whatever else fails; then a master that is not enabled; then, with no
entry that matches, an unprivileged request has none; and the lowest-numbered entry that matches decides alone, refusing a group without the right to write. -/
def Claims.AccessCheckOrder : Prop :=
  ∀ (s : State) (p : Port) (op : Op) (w : ReqWord), op ≠ .masterReset →
    (s.map.mapEnd ≤ w.byteAddr → s.check p op w = .refuse .addrFault 0x0503 0xFFFF) ∧
    (w.byteAddr < s.map.mapEnd → bit (s.masterWord w.master) 15 = false → s.check p op w = .refuse .accessFault 0x0502 0xFFFF) ∧
    (w.byteAddr < s.map.mapEnd → bit (s.masterWord w.master) 15 = true → s.restoringKey (masterKey w.master.toNat) = false →
      ((∀ e, e < 512 → s.entryMatches e (w.addr.toNat / 64) w.tenant = false) → w.priv = false →
        s.check p op w = .refuse .accessFault 0x0501 0xFFFF) ∧
      (∀ e, e < 512 → s.entryMatches e (w.addr.toNat / 64) w.tenant = true →
        (∀ k, k < e → s.entryMatches k (w.addr.toNat / 64) w.tenant = false) → s.entryFailed e = false →
        bit (s.reg (0x3200 + e) 7) 11 = false → w.spec = false →
        (isWrite op = true → isCoherent op = false → bit (s.reg (0x3200 + e) 6) (fld (s.masterWord w.master) 3 0) = false →
          s.check p op w = .refuse .accessFault 0x0504 e) ∧
        (op = .read → bit (s.reg (0x3200 + e) 5) (fld (s.masterWord w.master) 3 0) = true → bit (s.reg (0x3200 + e) 7) 14 = false →
          s.check p op w = .pass false (bit (s.reg (0x3200 + e) 7) 13))))

/-! ### Queues and schedulers -/

/-- A request to the ordinary part, of one to four lines of one pseudo-channel, bank and row and of a mapped tenant, joins the queue of its tenant (with the
role group added where the map word says so) as one part with its lines, in its class or in P while its port is in panic, with the start and finish tags of
its queue. Nothing but the queues and what waits in them changes. -/
def Claims.HomeRequestQueued : Prop :=
  ∀ (s : State) (r : HReq), s.repair.fenced = none → s.mustWait r = false → internalPort r.port = false → r.coherent = false → 1 ≤ r.lines →
    isCoherent r.op = false → r.op ≠ .masterReset → SMap.look s.sched.tags (reqKey r) = none → r.total = 0 → r.stamped = none →
    (∀ x ∈ s.sched.parts, sameReq x.req r = false) →
    let h := s.map.home r.addr
    let pl := s.map.place h.loc
    let m := s.tenantWord r.tenant
    let q := if bit m 14 then fld m 9 0 + roleGroup r.port else fld m 9 0
    h.parity = none → h.tile = s.t → bit m 15 = true → q < 1024 →
    (∀ l ∈ s.reqLines r, s.ownRetired (s.map.place l.addr) = false ∧ (s.map.place l.addr).pc = pl.pc ∧ (s.map.place l.addr).bank = pl.bank ∧
      (s.map.place l.addr).row = pl.row) →
    Completes (.homeRequestArrive r) s fun t =>
      (∃ p : Part, t.sched.parts = s.sched.parts ++ [p] ∧ p.req = r ∧ p.origin = .req ∧ p.queue = q ∧ p.pc = pl.pc ∧ p.bank = pl.bank ∧
        p.row = pl.row ∧ p.lns = s.reqLines r ∧ p.write = isWrite r.op ∧ p.rel = none ∧ p.promoted = r.promoted ∧
        p.calm = r.cls ∧ p.age = r.age ∧ p.joined = s.clk.now ∧
        p.cls = (if (r.tile, r.port.val) ∈ s.sched.panics ∧ r.demoted = false then .p else r.cls) ∧ p.k = clockOf p.cls ∧
        p.start = serMax (s.vclock p.k) ((s.q q).last p.k) ∧
        p.finish = p.start + BitVec.ofNat 32 (r.lines * 4096 / max (s.q q).weight.toNat 1) ∧ (t.q q).last p.k = p.finish) ∧
      (∀ k, k ≠ q → t.q k = s.q k) ∧ OnlyChanges [.sched, .queues] s t

/-- A part that waits alone for a pseudo-channel whose domains are up is taken into its queue where its bucket holds its lines, or its class is P, or its
queue is not shaped; the bucket of a shaped queue falls by 16 for each line, never below −16 × BURST. A bucket too low holds it back, and then nothing
changes. -/
def Claims.RequestReleased : Prop :=
  ∀ (s : State) (c : Pc) (p : Part), s.dom 4 = true → s.pcPowered c = true → (s.pc c).retired = false → s.seam.writes = [] → s.seam.recons = [] →
    s.sched.parts = [p] → p.pc = c.val → p.rel = none → p.queue < 1024 →
    let q := s.q p.queue
    (p.cls = .p ∨ q.rate = 0xFFFF ∨ 16 * (p.lns.length : Int) ≤ q.level → Completes (.requestRelease c) s fun t =>
      (∃ p', t.sched.parts = [p'] ∧ p'.rel = some (s.sched.seq + 1) ∧ { p' with rel := none, pSince := p.pSince } = p ∧
        p'.pSince = (if p.cls = .p then some s.clk.now else none)) ∧
      (t.q p.queue).level = (if q.rate = 0xFFFF then q.level else max (q.level - 16 * (p.lns.length : Int)) (-16 * (q.burst.toNat : Int))) ∧
      (∀ k, k ≠ p.queue → t.q k = s.q k) ∧ (t.pc c).down = none ∧ OnlyPc s t c ∧ OnlyChanges [.sched, .queues, .pcs, .out, .ctr] s t) ∧
    (p.cls ≠ .p → q.rate ≠ 0xFFFF → q.level < 16 * (p.lns.length : Int) → Completes (.requestRelease c) s fun t => t = s)

/-- A latency sample, once at each frame whose number is a multiple of SAMPLE_PERIOD: every queue in sampling mode records the requests that joined it before
the tick and the age of the oldest in units of 16 cycles, and SAMPLE_SEQ rises by 1. Queues in the other mode keep their marks. -/
def Claims.LatencySampled : Prop :=
  ∀ s : State, s.frame % s.sched.samplePeriod.toNat = 0 → s.sched.sampledAt ≠ some s.frame → Completes .latencySample s fun t =>
    t.sched.sampleSeq = s.sched.sampleSeq + 1 ∧ t.sched.sampledAt = some s.frame ∧ t.sched.parts = s.sched.parts ∧
    (∀ q, q < 1024 → if (s.q q).latMode = 0 then (t.q q).latDepth = (s.sampleOf q).1 ∧ (t.q q).latDelay = (s.sampleOf q).2 else t.q q = s.q q) ∧
    OnlyChanges [.sched, .queues] s t

/-- Ageing: a part whose age is beyond the limit of its class, and that may rise, moves one class up with its age 0 and takes the next promotion number; every
other part stands as it stood. Requests that a port has passed onward rise in the same way. -/
def Claims.AgePromotes : Prop :=
  ∀ s : State, Completes .agePromotion s fun t =>
    t.sched.parts.length = s.sched.parts.length ∧ t.sched.promos = s.sched.promos + 1 ∧
    (∀ (i : Nat) (p : Part), s.sched.parts[i]? = some p → ∃ p', t.sched.parts[i]? = some p' ∧
      (p.age ≤ s.ageLimit p.calm ∨ atCeiling p.calm p.req.demoted p.internal = true → p' = p) ∧
      (s.ageLimit p.calm < p.age → atCeiling p.calm p.req.demoted p.internal = false →
        p'.calm = clsUp p.calm ∧ p'.cls = (if p.cls = .p then .p else clsUp p.calm) ∧ p'.age = 0 ∧ p'.promoted = some (s.sched.promos + 1) ∧
        p'.seq = p.seq ∧ p'.lns = p.lns ∧ p'.queue = p.queue ∧ p'.rel = p.rel ∧ p'.finish = p.finish)) ∧
    (∀ k, t.port k = { s.port k with onward := (t.port k).onward } ∧ (t.port k).onward.length = (s.port k).onward.length ∧
      ∀ (i : Nat) (o : Onward), (s.port k).onward[i]? = some o → ∃ o', (t.port k).onward[i]? = some o' ∧
        (o.age ≤ s.ageLimit o.cls ∨ atCeiling o.cls o.demoted false = true → o' = o) ∧
        (s.ageLimit o.cls < o.age → atCeiling o.cls o.demoted false = false →
          o' = { o with cls := clsUp o.cls, age := 0, promoted := some (s.sched.promos + 1) })) ∧
    OnlyChanges [.sched, .ports, .ha, .seam] s t

/-- A panic notice gives the port's parts class P, but for those demoted; its end returns each to the class it would hold; no other part changes. -/
def Claims.PanicNotices : Prop :=
  ∀ (s : State) (u : TileNo) (p : Port) (on : Bool), Completes (.panicNotice u p on) s fun t =>
    ((u.val, p.val) ∈ t.sched.panics ↔ on = true) ∧ t.sched.parts.length = s.sched.parts.length ∧
    (∀ (i : Nat) (x : Part), s.sched.parts[i]? = some x → ∃ x', t.sched.parts[i]? = some x' ∧
      (x.req.tile = u.val ∧ x.req.port = p ∧ x.req.demoted = false →
        x'.cls = (if on then .p else x.calm) ∧ x'.calm = x.calm ∧ x'.seq = x.seq ∧ x'.rel = x.rel ∧ x'.lns = x.lns) ∧
      (¬(x.req.tile = u.val ∧ x.req.port = p ∧ x.req.demoted = false) → x' = x)) ∧ OnlyChanges [.sched] s t

/-- A released one-line part of a port's work that stands alone on a pseudo-channel in service, with no refresh ahead of it, granted in the slot and free to
start: its ACT goes out now, its column command after tRCD with precharge, its line is in flight, and the row and bank times run from now. -/
def Claims.AccessIssues : Prop :=
  ∀ (s : State) (c : Pc) (p : Part) (l : PLn), s.pcServes c = true → s.refreshFirst c = false → s.pcStopped c = false → s.quench.on = false →
    (s.pc c).opp = 0 → s.seam.writes = [] → s.sched.parts = [p] → p.pc = c.val → p.rel.isSome = true → p.lns = [l] → l.col < 16 →
    s.granted p.cls = true → s.mayGo p = true → s.mayStart c p.bank 1 p.write (p.cls == .p) = true →
    p.origin ∉ [Origin.pickleWalk, .pickleFix, .rebuild, .rebuildW] →
    let col := s.clk.now + s.tim 1
    let lat := if p.write then s.tim 15 else s.tim 14
    Completes (.accessIssue c) s fun t =>
      (s.out ++ [.stack c s.clk.now (.act p.bank p.row), .stack c col (if p.write then .wr p.bank l.col true else .rd p.bank l.col true)]) <+: t.out ∧
      t.sched.flight = s.sched.flight ++ [⟨c, p.bank, p.row, p.write, p.origin.ofLine l, p.req, l, true, col + lat + 2, false⟩] ∧ t.sched.parts = [] ∧
      (t.pc c).rowFree = s.clk.now + s.tim 5 ∧ (t.pc c).bankRc.getD p.bank 0 = s.clk.now + s.tim 4 ∧
      (t.pc c).bankReady.getD p.bank 0 = s.clk.now + (if p.write then writeEnvelope s.tim 1 else readEnvelope s.tim 1) ∧
      (col + lat, col + lat + 2, p.write) ∈ (t.pc c).cal ∧ t.ctrOf (0x4100 + c) 7 = (s.ctrOf (0x4100 + c) 7 + 1) % 2 ^ 48 ∧
      t.ctrOf (0x4100 + c) 11 = (s.ctrOf (0x4100 + c) 11 + 1) % 2 ^ 48 ∧ OnlyPc s t c ∧
      OnlyChanges [.pcs, .sched, .out, .ctr, .queues, .ports, .budget, .log, .maint] s t

/-- While a refresh is to go first on a pseudo-channel no access is issued there (R63), and nothing changes. -/
def Claims.RefreshGoesFirst : Prop :=
  ∀ (s : State) (c : Pc), s.refreshFirst c = true → Completes (.accessIssue c) s fun t => t = s

/-- The next line of a port's read on a pseudo-channel's bus is answered by its decode: with its data where it is good; with its data and CORRECTED where one
symbol of a lane was corrected, counted for the lane and in LINES_CORRECTED and put into the correction queue; as POISON without data where it is poisoned,
counted in LINES_POISON, and where it does not decode in the ordinary part. A counter rises while its domain is available. -/
def Claims.ReadDataReturns : Prop :=
  ∀ (s : State) (c : Pc) (errs : List (Fin 36 × Word)) (f : Flight) (rest : List Flight), s.sched.flight = f :: rest → f.pc = c.val →
    f.write = false → f.origin = .req → f.req.port.val ≠ 28 →
    let d := s.decodeAt c f.ln.addr (errs.map (fun e => (e.1.val, e.2)))
    let answer := fun (a : LineAns) => answerOf s f.req .none [a]
    (d.res = .good → Completes (.readDataReturn c errs) s fun t =>
      t.out = s.out ++ [answer ⟨f.ln.idx, .ok, false, d.data⟩] ∧ t.sched.flight = rest ∧ t.sched.parts = s.sched.parts ∧
      (t.pc c).noData = none ∧ t.clk.now = max s.clk.now f.dataEnd ∧ OnlyChanges [.sched, .clk, .pcs, .out] s t) ∧
    (d.res = .poisoned → d.err = none → Completes (.readDataReturn c errs) s fun t =>
      t.out = s.out ++ [answer ⟨f.ln.idx, .poison, false, 0⟩] ∧ t.sched.flight = rest ∧ s.counted t 0x4801 9 1 ∧
      OnlyChanges [.sched, .clk, .pcs, .out, .ctr] s t) ∧
    (∀ k, d.res = .corrected → d.err = some k → k < 36 → (s.pc c).laneCnt.getD (posLane k) 0 + 1 ≠ (s.reg 0x4800 5).toNat →
      s.seam.fixQueue.length < 64 → f.ln.addr ∉ s.seam.fixQueue →
      Completes (.readDataReturn c errs) s fun t =>
        t.out = s.out ++ [answer ⟨f.ln.idx, .ok, true, d.data⟩] ∧ t.sched.flight = rest ∧ s.counted t 0x4801 1 1 ∧
        (t.pc c).laneCnt.getD (posLane k) 0 = (s.pc c).laneCnt.getD (posLane k) 0 + 1 ∧ OnlyPc s t c ∧
        t.seam.fixQueue = s.seam.fixQueue ++ [f.ln.addr] ∧ OnlyChanges [.sched, .clk, .pcs, .out, .ctr, .seam] s t) ∧
    (d.res = .uncorrectable → s.lineKind f.ln.addr = .ordinary → popCount (BitVec.ofNat 16 ((s.pc c).rowBad.getD (65536 * f.bank + f.row) 0 +
        2 ^ f.ln.col)) ≠ (s.reg 0x7800 5).toNat → Completes (.readDataReturn c errs) s fun t =>
      answer ⟨f.ln.idx, .poison, false, 0⟩ ∈ t.out ∧ t.sched.flight = rest ∧ s.counted t 0x4801 5 1 ∧
      OnlyChanges [.sched, .clk, .pcs, .out, .ctr, .log, .maint] s t)

/-- A read line of the ordinary part for which no data comes is answered as POISON and counts in no counter; the pseudo-channel remembers since when. -/
def Claims.ReadDataAbsent : Prop :=
  ∀ (s : State) (c : Pc) (f : Flight) (rest : List Flight), s.sched.flight = f :: rest → f.pc = c.val → f.write = false → f.origin = .req → f.req.port.val ≠ 28 →
    s.lineKind f.ln.addr = .ordinary → (s.pc c).noData = none → Completes (.readDataAbsent c) s fun t =>
      t.out = s.out ++ [answerOf s f.req .none [⟨f.ln.idx, .poison, false, 0⟩]] ∧
      t.sched.flight = rest ∧ (t.pc c).noData = some s.frame ∧ OnlyPc s t c ∧ OnlyChanges [.sched, .clk, .pcs, .out] s t

/-- A write reaches the stack: the line holds its data and its poison, or, where the write failed, is poisoned; every byte of every other line is as it was.
The last line of an acknowledged write sends its answer: POISON where it failed. -/
def Claims.WriteDataDone : Prop :=
  ∀ (s : State) (c : Pc) (ok : Bool) (f : Flight) (rest : List Flight), s.sched.flight = f :: rest → f.pc = c.val → f.write = true → f.origin = .req →
    f.req.op = .writeAck → (let z := { s with sched := { s.sched with flight := rest } }; z.busyReq f.req = false) →
    s.sched.wfail = [] → s.sched.wpart = [] → f.ln.addr % 64 = 0 →
    Completes (.writeDataDone c ok) s fun t =>
      t.store.line f.ln.addr = f.ln.d.data ∧ t.store.isPoison f.ln.addr = (f.ln.d.poison || !ok) ∧
      (∀ a, a / 64 ≠ f.ln.addr / 64 → t.store.byte a = s.store.byte a ∧ t.store.isPoison a = s.store.isPoison a) ∧
      t.out = s.out ++ [answerOf s f.req .none [⟨0, if ok then .ok else .poison, false, 0⟩]] ∧
      t.sched.flight = rest ∧ t.clk.now = max s.clk.now f.dataEnd ∧ OnlyChanges [.sched, .clk, .store, .out] s t

/-! ### Pickle and Seam -/

/-- A pseudo-channel's debt takes its next step while a pass runs: up by 1, held at 255. While a group of the walk waits for its read that is all; else the
next group of four lines, at the walk's position, joins as reads of Pickle's (no bank being retired). -/
def Claims.PickleDebtSteps : Prop :=
  ∀ (s : State) (c : Pc), s.seam.interval ≠ 0 → (s.pc c).pkStep < (s.frame - s.seam.stepBase.toNat) / s.seam.interval →
    s.seam.passOn = true → bit (s.reg 0x4800 2) 15 = true → (s.pc c).pkDone = false → (s.pc c).retired = false →
    let stepped := fun (t : State) =>
      (t.pc c).pkDebt = min ((s.pc c).pkDebt + 1) 255 ∧ (t.pc c).pkStep = (s.pc c).pkStep + 1 ∧ (t.pc c).pkPos = (s.pc c).pkPos ∧ OnlyPc s t c
    ((∃ p ∈ s.sched.parts, p.pc = c.val ∧ p.origin = .pickleWalk) → Completes (.pickleDebtStep c) s fun t =>
      stepped t ∧ OnlyChanges [.pcs] s t) ∧
    ((∀ p ∈ s.sched.parts, p.pc ≠ c.val ∨ p.origin ≠ .pickleWalk) → (s.pc c).rbanks = [] → (s.pc c).pkPos < s.walkEnd →
      Completes (.pickleDebtStep c) s fun t =>
        stepped t ∧ (∃ ps : List Part, t.sched.parts = s.sched.parts ++ ps ∧ (ps.flatMap (fun p => p.lns)).length = 4 ∧
          ∀ p ∈ ps, p.origin = .pickleWalk ∧ p.write = false ∧ p.calm = .bh ∧ p.rel = none) ∧ OnlyChanges [.pcs, .sched] s t)

/-- The pass ends when every pseudo-channel in service has walked it: PASS_COUNT rises by 1, event 0x0805 carries it, and the counts of lanes and rows begin
anew. -/
def Claims.PicklePassEnds : Prop :=
  ∀ s : State, s.seam.passOn = true → (∀ c, c < 64 → (s.pc c).retired = true ∨ (s.pc c).pkDone = true) → s.dom 1 = true →
    s.dom 10 = true → Completes .picklePassEnd s fun t =>
      t.seam = { s.seam with passOn := false, passCount := sat32 (s.seam.passCount + 1) } ∧
      (∀ c, (t.pc c).laneCnt = [] ∧ (t.pc c).rowBad = [] ∧ (t.pc c).pkPos = (s.pc c).pkPos ∧ (t.pc c).debts = (s.pc c).debts) ∧
      LogsOne s t 0x0805 (wordsOf 2 (sat32 (s.seam.passCount + 1))) ∧ OnlyChanges [.seam, .pcs, .log, .maint, .out] s t

/-- The parity or mirror tile takes a Seam update of a write at a home that has no other Seam write under way. A line that stands rebuilt there, or whose unit
is retired, has nothing to update and is acknowledged at once; in the row that is being rebuilt the update waits for the switch, and while PD11 is not up for its
domain; else it becomes a Seam write of its own, under the class, age and tags it carries. -/
def Claims.SeamUpdated : Prop :=
  ∀ (s : State) (home : TileNo) (u : SeamUpd) (whole : Option Line), s.seam.writes = [] → s.sched.parts = [] → u.no ≠ 0 →
    let v : SeamUpd := { u with home := home, whole := whole }
    ((s.rebuiltAt u.line).isSome = true ∨ s.ownRetired (s.map.place u.line) = true → Completes (.seamUpdate home u whole) s fun t =>
      t.out = s.out ++ [.ring (.seamAck home u.line u.no true)] ∧ OnlyChanges [.out] s t) ∧
    (s.rebuiltAt u.line = none → s.ownRetired (s.map.place u.line) = false → s.inRebuild u.line = true ∨ s.dom 11 = false →
      Completes (.seamUpdate home u whole) s fun t => t.seam = { s.seam with updates := s.seam.updates ++ [v] } ∧ OnlyChanges [.seam] s t) ∧
    (s.rebuiltAt u.line = none → s.ownRetired (s.map.place u.line) = false → s.inRebuild u.line = false → s.dom 11 = true →
      Completes (.seamUpdate home u whole) s fun t =>
      (∃ (p : Part) (w : SeamWr), t.sched.parts = [p] ∧ t.seam = { s.seam with writes := [w] } ∧ p.origin = .seamNew w.no ∧ p.write = true ∧
        p.rel = none ∧ p.calm = u.req.cls ∧ p.age = u.req.age ∧ p.start = u.start ∧ p.finish = u.finish ∧ p.lns.map (fun l => l.addr) = [u.line] ∧
        w.line = u.line ∧ w.kind = .parity v ∧ w.written = false ∧ w.acked = true ∧ w.failed = false) ∧
      OnlyChanges [.sched, .seam] s t)

/-- The parity line that an update of three tiles or more depends on has been read: where it decodes as good the new line is the old one XOR Δ, poisoned where
the update's line is. Where it does not decode, the data lines of its row are asked for, and the parity line is made anew from them: the XOR of all of them,
poisoned where the new line or any of them is poisoned or does not decode (the model's choice, log entry 72). -/
def Claims.ParityLineFormed : Prop :=
  ∀ (s : State) (c : Pc) (errs : List (Fin 36 × Word)) (f : Flight) (w : SeamWr) (u : SeamUpd), s.sched.flight = [f] → 2 < s.n →
    f.pc = c.val → f.write = false → f.origin = .seamOld w.no → s.seam.writes = [w] → w.line = f.ln.addr → w.kind = .parity u →
    u.whole = none →
    let d := s.decodeAt c f.ln.addr (errs.map (fun e => (e.1.val, e.2)))
    (d.res = .good → Completes (.readDataReturn c errs) s fun t =>
      t.seam.writes = [{ w with new := ⟨d.data ^^^ u.delta, u.newPoison⟩, old := some none }] ∧ t.sched.flight = [] ∧ t.out = s.out ∧ t.store = s.store ∧
      OnlyChanges [.sched, .clk, .pcs, .seam] s t) ∧
    (d.res = .uncorrectable → popCount (BitVec.ofNat 16 ((s.pc c).rowBad.getD (65536 * f.bank + f.row) 0 + 2 ^ f.ln.col)) ≠ (s.reg 0x7800 5).toNat →
      Completes (.readDataReturn c errs) s fun t =>
        t.seam.writes = [{ w with par := some ⟨d.data, .uncorrectable⟩ }] ∧
        Out.ring (.memberRead w.line ((List.range s.n).filter (fun v => v != s.t))) ∈ t.out ∧ t.sched.flight = [] ∧ t.store = s.store ∧
        OnlyChanges [.sched, .clk, .pcs, .seam, .ctr, .log, .maint, .out] s t) ∧
    (∀ (m : Member) (ms : List Member), w.par = some m → m.res = .uncorrectable → w.started = true → w.old = none → w.again = none → s.seam.recons = [] →
      Completes (.seamReconstructDone w.line ms m) s fun t =>
        t.seam.writes = [{ w with new := ⟨xorMembers ms, u.newPoison || ms.any (fun x => x.res == .poisoned || x.broken)⟩, old := some none }] ∧
        t.store = s.store ∧ OnlyChanges [.sched, .seam] s t)

/-- The parity line of an update is written: it holds what was formed, no other line changes, and the acknowledgement goes back to the home, saying whether the
update and the write went well. -/
def Claims.ParityLineWritten : Prop :=
  ∀ (s : State) (c : Pc) (ok : Bool) (f : Flight) (w : SeamWr) (u : SeamUpd), s.sched.flight = [f] → f.pc = c.val →
    f.write = true → f.origin = .seamNew w.no → s.seam.writes = [w] → w.line = f.ln.addr → w.kind = .parity u → w.acked = true → u.no ≠ 0 →
    f.ln.addr % 64 = 0 →
    Completes (.writeDataDone c ok) s fun t =>
      t.store.line f.ln.addr = f.ln.d.data ∧ t.store.isPoison f.ln.addr = (f.ln.d.poison || !ok) ∧
      (∀ a, a / 64 ≠ f.ln.addr / 64 → t.store.byte a = s.store.byte a ∧ t.store.isPoison a = s.store.isPoison a) ∧
      t.out = s.out ++ [.ring (.seamAck u.home u.line u.no (ok && !w.failed))] ∧ t.seam = { s.seam with writes := [] } ∧
      OnlyChanges [.sched, .clk, .store, .seam, .out] s t

/-- The acknowledgement of a Seam write's update at its home: before the line itself is written it only marks the write; after that the one write completes
and an acknowledged request is answered OK. An update that failed, its line written, has the line written again as poison. -/
def Claims.SeamAcknowledged : Prop :=
  ∀ (s : State) (w : SeamWr), s.seam.writes = [w] → w.kind = .data → w.acked = false → w.failed = false →
    (w.written = false → ∀ ok, Completes (.seamAck ⟨w.line, w.no⟩ ok) s fun t =>
      t.seam = { s.seam with writes := [{ w with acked := true, failed := !ok }] } ∧ OnlyChanges [.seam] s t) ∧
    (w.written = true → w.o = .req → w.req.op = .writeAck → s.sched.wfail = [] → s.sched.wpart = [] →
      (let z := { s with seam := { s.seam with writes := [] } }; z.busyReq w.req = false) →
      Completes (.seamAck ⟨w.line, w.no⟩ true) s fun t =>
        t.seam = { s.seam with writes := [] } ∧
        t.out = s.out ++ [answerOf s w.req .none [⟨0, .ok, false, 0⟩]] ∧
        t.store = s.store ∧ OnlyChanges [.seam, .out, .sched] s t) ∧
    (w.written = true → w.again = none → s.sched.parts = [] → Completes (.seamAck ⟨w.line, w.no⟩ false) s fun t =>
      (∃ p : Part, t.sched.parts = [p] ∧ p.origin = .seamPoison w.no ∧ p.write = true ∧ p.rel.isSome = true ∧
        p.lns.map (fun l => (l.addr, l.d)) = [(w.line, ⟨w.new.data, true⟩)]) ∧
      (∃ w', t.seam.writes = [w'] ∧ w'.failed = true ∧ w'.again = some 2 ∧ w'.new = w.new) ∧ t.store = s.store ∧ t.seam.job = s.seam.job ∧
      OnlyChanges [.seam, .sched, .pcs, .out, .ctr] s t)

/-- A Seam data line of this tile, of three tiles or more, is made again for a reader from the other members of its row: the XOR of the data lines and the
parity line, answered OK, counted in SEAM_RECONSTRUCTED with event 0x0901, and written back by Pickle. A member that does not decode leaves the reader POISON. -/
def Claims.SeamReconstructed : Prop :=
  ∀ (s : State) (x : Recon) (ms : List Member) (par : Member), s.n ≠ 2 → s.lineKind x.line = .data → s.dom 1 = true → s.seam.recons = [x] →
    x.o = .req → x.own.isSome = true → s.seam.writes = [] →
    let answer := fun (a : LineAns) => answerOf s x.req .none [a]
    let data := ms.foldl (fun a m => a ^^^ m.data) 0 ^^^ par.data
    ((∀ m ∈ par :: ms, m.res = .good ∨ m.res = .corrected) → x.stale = false → s.seam.readOnly = false →
      s.ownRetired (s.map.place x.line) = false → Completes (.seamReconstructDone x.line ms par) s fun t =>
        answer ⟨x.idx, .ok, false, data⟩ ∈ t.out ∧ t.seam = { s.seam with recons := [] } ∧
        s.counted t 0x4901 1 1 ∧ LogsOne s t 0x0901 [] ∧
        (∃ p : Part, t.sched.parts = s.sched.parts ++ [p] ∧ p.origin = .pickleBack ∧ p.write = true ∧
          p.lns.map (fun l => (l.addr, l.d)) = [(x.line, ⟨data, false⟩)]) ∧
        OnlyChanges [.seam, .sched, .out, .ctr, .log, .maint] s t) ∧
    (par.res = .uncorrectable → Completes (.seamReconstructDone x.line ms par) s fun t =>
      t.out = s.out ++ [answer ⟨x.idx, .poison, false, 0⟩] ∧ t.seam = { s.seam with recons := [] } ∧ OnlyChanges [.seam, .out] s t)

/-- A line of the row at work is made from the row's other members and joins as a write of P28: in the rebuild of a lost line from this tile's own parity line
XOR the other data lines, in a resynchronisation from the data lines alone. It is poison where a line it is made from does not decode as data, and in a rebuild
where its row has no valid parity. -/
def Claims.RowLineMade : Prop :=
  ∀ (s : State) (x : Recon) (own par : Member) (j : SeamJob) (ms : List Member), s.seam.recons = [x] → x.o = .rebuild → x.own = some own →
    s.seam.job = some j → s.seam.taking = [] → s.seam.writes = [] →
    let fine := fun (l : List Member) => l.all (fun m => m.res == .good || m.res == .corrected)
    Completes (.seamReconstructDone x.line ms par) s fun t =>
      (∃ p : Part, t.sched.parts = s.sched.parts ++ [p] ∧ p.origin = .rebuildW ∧ p.write = true ∧ p.req.port = 28 ∧
        p.lns.map (fun l => (l.addr, l.d)) = [(x.line, if j.resync then ⟨ms.foldl (fun a m => a ^^^ m.data) 0, !fine ms⟩
          else ⟨own.data ^^^ ms.foldl (fun a m => a ^^^ m.data) 0, !(fine [own] && fine ms) || s.awaits j.row⟩)]) ∧
      t.seam = { s.seam with recons := [] } ∧ t.store = s.store ∧ OnlyChanges [.seam, .sched] s t

/-- The row at work, rebuilt for lost lines, switches for a tile once every line of that tile in it is written: each of them stands rebuilt here from then
on. The row's work goes on for the lines of the other tiles, if any are lost; with no line left in any row nothing else starts. Before that nothing changes. -/
def Claims.RowSwitches : Prop :=
  ∀ (s : State) (j : SeamJob) (u : TileNo), s.seam.job = some j → j.resync = false → j.fed = true → j.row < s.rows → 2 < s.n →
    let mine := fun (k : Nat) => k < 64 ∧ j.todo.testBit k = true ∧ s.jobFor j (s.rowAddr j.row + 64 * k) = some u.val
    ((∃ k, mine k ∧ j.done.testBit k = false) → Completes (.rebuildRowSwitch j.row u) s fun t => t = s) ∧
    ((∃ k, mine k) → (∀ k, mine k → j.done.testBit k = true) → j.todo = s.rowLeft j.row → s.seam.updates = [] → s.ha.held = [] →
      ((∀ k, k < 64 → j.todo.testBit k = true → mine k) → (∀ i, i < s.rows → i ≠ j.row → s.standsFor i = false) →
        Completes (.rebuildRowSwitch j.row u) s fun t =>
          (∃ l, t.seam = { s.seam with job := none, switched := s.seam.switched ++ l }) ∧
          (∀ k, mine k → t.rebuiltAt (s.rowAddr j.row + 64 * k) = some u.val) ∧ OnlyChanges [.seam] s t) ∧
      ((∃ k, k < 64 ∧ j.todo.testBit k = true ∧ ¬ mine k) → Completes (.rebuildRowSwitch j.row u) s fun t =>
        (∃ l j', t.seam = { s.seam with job := some { j with todo := j' }, switched := s.seam.switched ++ l } ∧
          (∀ k, k < 64 → (j'.testBit k = true ↔ j.todo.testBit k = true ∧ ¬ mine k))) ∧
        (∀ k, mine k → t.rebuiltAt (s.rowAddr j.row + 64 * k) = some u.val) ∧ OnlyChanges [.seam] s t))

/-- The rebuild is done once every row this tile stands for has switched: the Seam part is unprotected and event 0x0903 is logged. While a row has not switched
the command changes nothing. -/
def Claims.RebuildEnds : Prop :=
  ∀ s : State, s.rebuilding = true → s.dom 1 = true →
    (s.seam.job = none → (∀ j, j < s.rows → s.standsFor j = false) → Completes .rebuildDone s fun t =>
      t.seam = { s.seam with unprotected := true, rebuild := [] } ∧ LogsOne s t 0x0903 [] ∧ OnlyChanges [.seam, .log, .maint, .out] s t) ∧
    (∀ j, j < s.rows → s.standsFor j = true → Completes .rebuildDone s fun t => t = s)

/-- The resynchronisation is done once the rows that other tiles still had to do are reported and this tile has none left: the lists empty and event 0x0906 is
logged. A row still awaited by another tile keeps it going. -/
def Claims.ResyncEnds : Prop :=
  ∀ (s : State) (rows : List Nat), s.seam.resyncing = true → s.seam.taking = [] → s.dom 1 = true →
    ((∀ j ∈ s.awaited, j ∈ rows ∧ s.resyncMine j = false) → Completes (.resyncDone rows) s fun t =>
      t.seam.resyncing = false ∧ t.seam.resync = [] ∧ t.seam.listed = [] ∧ t.seam.rowsDone = [] ∧ t.seam.lost = s.seam.lost ∧
      t.seam.switched = s.seam.switched ∧ t.seam.writes = s.seam.writes ∧ LogsOne s t 0x0906 [] ∧ t.store = s.store ∧
      OnlyChanges [.seam, .log, .maint, .out] s t) ∧
    ((∃ j ∈ s.awaited, j ∉ rows) → Completes (.resyncDone rows) s fun t =>
      t.seam.resyncing = true ∧ t.seam.listed = s.seam.listed ∧ OnlyChanges [.seam] s t)

/-! ### Coherence: the home -/

/-- Requests at a quiet home. In HI, RD_SHARED, RD_UNIQUE and UPGRADE start a stack read, the line in HBusyMem and nothing answered yet, and WR_BACK is
acknowledged with nothing written; UPGRADE by the one holder in HS is acknowledged and makes it owner of kind X; RD_SHARED in HX by another agent sends its owner
SnpDown with FWD 1 by the arc to its tile, the line in HBusySnp. -/
def Claims.HomeOrders : Prop :=
  ∀ (s : State) (r : HReq), s.repair.fenced = none → s.mustWait r = false → internalPort r.port = false → s.quietHome → r.coherent = true →
    isCoherent r.op = true → r.lines = 1 → r.addr % 64 = 0 → s.homeHere r.addr → bit (s.tenantWord r.tenant) 15 = true →
    bit (s.reg 0x5000 1) 14 = false →
    (r.op ≠ .wrBack → s.entry r.addr = none → (∀ p ∈ s.sched.parts, sameReq p.req r = false) → Completes (.homeRequestArrive r) s fun t =>
      (∃ x : Txn, t.ha = { s.ha with txns := [x], serial := s.ha.serial + 1 } ∧ x.line = r.addr ∧ x.req = some r ∧ x.busy = .mem ∧
        x.stackDue = true ∧ x.wait = [] ∧
        ∃ p : Part, t.sched.parts = s.sched.parts ++ [p] ∧ p.origin = .homeRead x.no ∧ p.write = false ∧
          p.lns.map (fun l => l.addr) = [(s.map.home r.addr).loc]) ∧
      s.counted t 0x5002 5 1 ∧ t.out = s.out ∧ OnlyChanges [.ha, .sched, .queues, .ctr] s t) ∧
    (r.op = .wrBack → s.entry r.addr = none → Completes (.homeRequestArrive r) s fun t =>
      t.out = s.out ++ [answerOf s r .ack [⟨0, .ok, false, 0⟩]] ∧ t.ha = { s.ha with given := t.ha.given } ∧ OnlyChanges [.ctr, .out, .ha] s t) ∧
    (∀ e : Entry, r.op = .upgrade → s.entry r.addr = some e → e.kind = .none → e.doubt = .none → e.present = setBit 0 r.agent true → r.agent < 48 →
      s.stillCoherent r = true →
      Completes (.homeRequestArrive r) s fun t =>
        t.out = s.out ++ [answerOf s r .ack [⟨0, .ok, false, 0⟩]] ∧
        (∃ e', t.entry r.addr = some e' ∧ e'.kind = .x ∧ e'.owner = r.agent ∧ e'.present = e.present ∧ e'.doubt = .none ∧ e'.cur = e.cur) ∧
        (∀ l, l ≠ r.addr → t.entry l = s.entry l) ∧ t.ha.txns = [] ∧ OnlyChanges [.ha, .ctr, .out] s t) ∧
    (∀ (e : Entry) (a : Nat), r.op = .rdShared → s.entry r.addr = some e → e.kind = .x → e.owner = a → e.doubt = .none → e.present = setBit 0 a true →
      a ≠ r.agent → a / 6 ≠ s.t →
      Completes (.homeRequestArrive r) s fun t =>
        (∃ (x : Txn) (m : SnoopMsg), t.ha.txns = [x] ∧ x.line = r.addr ∧ x.busy = .snp ∧ x.wait = [a] ∧ x.sup = some a ∧
          t.out = s.out ++ [.ring (.snoop (s.arcTo (a / 6)) m)] ∧ m.ty = .down ∧ m.sup = some a ∧ m.home = s.t ∧ m.txn = x.id ∧ m.req = r.agent ∧
          m.line = r.addr ∧ m.targets = [a]) ∧
        s.counted t 0x5002 1 1 ∧ OnlyChanges [.ha, .ctr, .out] s t)

/-- A request waits at its home for what it needs: for the domains it goes through, for the recall of its line, for the copies that a map change drops, for the
tick from which the stand-ins serve, for the switch of a row that is being rebuilt, or behind a request that waits already on one of its lines; it is held in order of arrival, and nothing else changes. A fenced tile takes no request. -/
def Claims.HomeRequestHeld : Prop :=
  ∀ (s : State) (r : HReq),
    (s.repair.fenced = none → (s.dom 4 = false ∨ (r.coherent = true ∧ s.dom 5 = false) ∨ (r.coherent = false ∧ r.lineList.any s.recalling = true) ∨
        (s.dom 11 = false ∧ r.lineList.any s.map.inSeam = true) ∨ r.lineList.any s.forgetting = true ∨ r.lineList.any s.standsLater = true ∨
        (isWrite r.op = true ∧ r.lineList.any s.rebuildingLine = true) ∨ (∃ x ∈ s.ha.held, ∃ l ∈ x.lineList, l ∈ r.lineList)) → Completes (.homeRequestArrive r) s fun t =>
      t.ha = { s.ha with held := s.ha.held ++ [r] } ∧ OnlyChanges [.ha] s t) ∧
    (s.repair.fenced.isSome = true → Completes (.homeRequestArrive r) s fun t => t = s)

/-- A coherent request for a line in a transient state is answered Retry and counted in RETRIES; below RAGE 7 it leaves no other trace than the home's note of
what it answered last. -/
def Claims.BusyLineRetried : Prop :=
  ∀ (s : State) (r : HReq), s.repair.fenced = none → s.mustWait r = false → internalPort r.port = false → r.coherent = true → isCoherent r.op = true →
    s.lineBusy r.line = true → r.rage < 7 → Completes (.homeRequestArrive r) s fun t =>
      t.out = s.out ++ [answerOf s r .retry [⟨0, .ok, false, 0⟩]] ∧ s.counted t 0x5002 13 1 ∧
      t.ha = { s.ha with given := t.ha.given } ∧ OnlyChanges [.ctr, .out, .ha] s t

/-- A snoop that waits alone for an agent is presented while fewer than 16 are unanswered there and no answer to the agent for its line is still on its way;
with 16 unanswered it waits on. A message of another home that has come to the ring stop is held for the agent it targets, and presented in its turn. -/
def Claims.SnoopPresented : Prop :=
  ∀ (s : State) (a : Fin 6) (x : SnoopSt), x.s.agent = 6 * s.t + a → x.shown = none →
    (s.snoops = [x] → s.answerHeld (20 + a) x.s.line x.after = false → Completes (.snoopPresent { agent := a }) s fun t =>
      t.snoops = [{ x with shown := some s.clk.now }] ∧ t.out = s.out ++ [.snoop x.s] ∧ OnlyChanges [.snoops, .out] s t) ∧
    (s.snoops = [x] → s.answerHeld (20 + a) x.s.line x.after = true → Completes (.snoopPresent { agent := a }) s fun t => t = s) ∧
    (16 ≤ s.unanswered (6 * s.t + a) → Completes (.snoopPresent { agent := a }) s fun t => t = s) ∧
    (∀ m : SnoopMsg, s.snoops = [] → (s.port (20 + a)).fifo = [] → (s.port (20 + a)).onward = [] → m.home ≠ s.t → m.home < s.n → m.txn < 256 →
      m.targets = [6 * s.t + a] → Completes (.snoopPresent ⟨a, [m]⟩) s fun t =>
        (∃ n : Snoop, t.out = s.out ++ [.snoop n] ∧ n.agent = 6 * s.t + a ∧ n.home = m.home ∧ n.txn = m.txn ∧ n.line = m.line ∧ n.req = m.req ∧
          n.fwd = (m.sup == some (6 * s.t + a.val)) ∧ n.ty = (if m.sup = some (6 * s.t + a.val) ∨ m.ty = .down then m.ty else .drop) ∧
          ∃ y, t.snoops = [y] ∧ y.s = n ∧ y.shown = some s.clk.now ∧ y.done = false) ∧ OnlyChanges [.snoops, .out] s t)

/-- An answer that is not the last: RplGone clears the holder's bit, RplKept keeps it and ends its ownership, RplFwd of the supplier brings the data; the
transaction waits for the rest and nothing is answered. -/
def Claims.SnoopAnswers : Prop :=
  ∀ (s : State) (n : SnpName) (x : Txn) (e : Entry) (a : Fin 48) (b : Nat), s.snoops = [] → s.ha.held = [] → s.ha.txns = [x] → n.home.val = s.t → x.id = n.txn.toNat → x.busy = .snp →
    x.wait = [a.val, b] → b ≠ a.val → s.entry x.line = some e → bit e.present b = true → b < 48 → (e.kind = .o → e.owner ≠ a.val) →
    let owned := e.kind ≠ .none ∧ e.owner = a.val
    (Completes (.rplGone a n) s fun t =>
      t.ha.txns = [{ x with wait := [b] }] ∧ (∃ e', t.entry x.line = some e' ∧ e'.present = setBit e.present a false ∧ (owned → e'.kind = .none) ∧
        (¬owned → e'.kind = e.kind ∧ e'.owner = e.owner) ∧ e'.cur = e.cur ∧ e'.doubt = e.doubt) ∧ (∀ l, l ≠ x.line → t.entry l = s.entry l) ∧
      OnlyChanges [.ha] s t) ∧
    (Completes (.rplKept a n) s fun t =>
      t.ha.txns = [{ x with wait := [b] }] ∧ (∃ e', t.entry x.line = some e' ∧ e'.present = e.present ∧ (owned → e'.kind = .none) ∧
        (¬owned → e' = e)) ∧ OnlyChanges [.ha] s t) ∧
    (∀ (dirty : Bool) (d : Line), x.sup = some a.val → Completes (.rplFwd a n .i dirty d) s fun t =>
      t.ha.txns = [{ x with wait := [b], fwd := some (d, dirty) }] ∧
      (∃ e', t.entry x.line = some e' ∧ e'.present = setBit e.present a false) ∧ OnlyChanges [.ha] s t)

/-- The last answer of a RD_SHARED in HX. A dirty forward with NEWSTATE O: DataO-fwd, the owner of kind O, the requester added, the stack not current. A clean
forward with NEWSTATE S: DataS, no owner. RplGone: the line goes to HBusyMem and the stack is read. -/
def Claims.LastAnswerCompletes : Prop :=
  ∀ (s : State) (n : SnpName) (x : Txn) (e : Entry) (a : Fin 48) (r : HReq) (d : Line), s.snoops = [] → s.ha.held = [] →
    s.lostLine x.line = none → s.ha.txns = [x] → s.ha.plain = [] →
    s.ha.plainWait = [] → s.ha.resv = [] → s.ha.work = [] → n.home.val = s.t → x.id = n.txn.toNat → x.busy = .snp → x.kind = .rdShared → x.wait = [a.val] →
    x.sup = some a.val → x.req = some r → x.next = none → x.stack = none → x.stackDue = false → x.fwd = none → x.dropped = none → x.bad = false → x.grant = .dataE →
    isCoherent r.op = true → r.addr = x.line → s.stillCoherent r = true → r.agent < 48 → r.agent ≠ a.val → s.entry x.line = some e → e.kind = .x → e.owner = a.val →
    e.present = setBit 0 a true → e.doubt = .none →
    (Completes (.rplFwd a n .o true d) s fun t =>
      t.out = s.out ++ [answerOf s r .dataO [⟨0, .ok, false, d⟩]] ∧ t.ha.txns = [] ∧
      (∃ e', t.entry x.line = some e' ∧ e'.kind = .o ∧ e'.owner = a.val ∧ e'.present = setBit (setBit 0 a true) r.agent true ∧ e'.cur = false) ∧
      s.counted t 0x5002 9 1 ∧ t.store = s.store ∧ OnlyChanges [.ha, .ctr, .out] s t) ∧
    (Completes (.rplFwd a n .s false d) s fun t =>
      t.out = s.out ++ [answerOf s r .dataS [⟨0, .ok, false, d⟩]] ∧ t.ha.txns = [] ∧
      (∃ e', t.entry x.line = some e' ∧ e'.kind = .none ∧ e'.present = setBit (setBit 0 a true) r.agent true ∧ e'.cur = e.cur) ∧
      OnlyChanges [.ha, .ctr, .out] s t) ∧
    ((s.map.home x.line).parity = none → (s.map.home x.line).tile = s.t → s.ownRetired (s.map.place (s.map.home x.line).loc) = false →
      bit (s.tenantWord r.tenant) 15 = true → Completes (.rplGone a n) s fun t =>
        (∃ x', t.ha.txns = [x'] ∧ x'.id = x.id ∧ x'.busy = .mem ∧ x'.stackDue = true ∧ x'.wait = [] ∧ x'.req = some r) ∧
        t.entry x.line = none ∧ t.out = s.out ∧ OnlyChanges [.ha, .sched, .queues] s t)

/-- An answer with RESP 0 counts as the agent's RplGone with event 0x0A03; from the recorded owner it loses the line: at the last answer the request is
answered Poison, a write of the line as poison waits for the stack, and its entry is freed. -/
def Claims.ZeroAnswerLosesOwner : Prop :=
  ∀ (s : State) (n : SnpName) (x : Txn) (e : Entry) (a : Fin 48) (r : HReq), s.dom 1 = true → s.snoops = [] → s.ha.held = [] → s.ha.txns = [x] →
    s.ha.plain = [] → s.ha.plainWait = [] → s.ha.resv = [] → s.ha.work = [] → n.home.val = s.t → x.id = n.txn.toNat → x.busy = .snp → x.kind = .rdShared → x.wait = [a.val] →
    x.req = some r → x.next = none → x.stackDue = false → isCoherent r.op = true → s.entry x.line = some e → e.kind ≠ .none → e.owner = a.val →
    e.present = setBit 0 a true → s.ordinaryHere x.line → SMap.look s.log.seen (limKey 0x0A03 a) = none →
    Completes (.respZeroAnswer a n) s fun t =>
      answerOf s r .poison [⟨0, .poison, false, 0⟩] ∈ t.out ∧ t.ha.txns = [] ∧ t.entry x.line = none ∧ s.poisonWaits t x.line ∧
      t.log.entries.getLast? = some (s.event 0x0A03 ([w16 a] ++ wordsOf 3 x.line ++ [Config.msgCode 16, Config.homeCode 4])) ∧
      OnlyChanges [.ha, .out, .log, .maint, .sched] s t

/-- A stack read returns to the home. In HBusyMem for a RD_SHARED of an unheld line: DataE with the data, the requester its owner of kind X, the stack current;
a poisoned line is answered Poison and granted to nobody. In HBusySnp the data is held until the last answer. -/
def Claims.HomeReadReturns : Prop :=
  ∀ (s : State) (txn : BitVec 8) (x : Txn) (r : HReq) (d : PLine), s.ha.held = [] → s.ha.txns = [x] → s.ha.plain = [] → s.ha.plainWait = [] →
    s.ha.resv = [] → s.ha.work = [] → s.homeWorking (.homeRead x.no) = false → s.lostLine x.line = none →
    x.id = txn.toNat → x.stackDue = true → x.stack = none → x.fwd = none → x.bad = false → x.corr = false → x.next = none →
    (x.busy = .mem → x.kind = .rdShared → x.grant = .dataE → x.req = some r → isCoherent r.op = true → r.addr = x.line → s.stillCoherent r = true → r.agent < 48 →
      s.entry x.line = none → Completes (.homeStackReadDone txn d) s fun t =>
        t.ha.txns = [] ∧
        (d.poison = false → t.out = s.out ++ [answerOf s r .dataE [⟨0, .ok, false, d.data⟩]] ∧ ∃ e, t.entry x.line = some e ∧ e.kind = .x ∧
          e.owner = r.agent ∧ e.present = setBit 0 r.agent true ∧ e.cur = true ∧ e.doubt = .none) ∧
        (d.poison = true → t.out = s.out ++ [answerOf s r .poison [⟨0, .poison, false, 0⟩]] ∧ t.entry x.line = none) ∧
        OnlyChanges [.ha, .out] s t) ∧
    (x.busy = .snp → Completes (.homeStackReadDone txn d) s fun t =>
      t.ha.txns = [{ x with stack := some d, stackDue := false }] ∧ t.out = s.out ∧ OnlyChanges [.ha] s t)

/-- The home's write of a WR_BACK is done once nothing of it is under way in the queues, on the bus or at the Seam engine: the request is acknowledged and the
line is stable again. While the write is under way nothing changes. -/
def Claims.HomeWriteDone : Prop :=
  ∀ (s : State) (txn : BitVec 8) (x : Txn) (r : HReq), s.ha.held = [] → s.ha.txns = [x] → s.ha.plain = [] → s.ha.plainWait = [] → s.ha.resv = [] →
    s.ha.work = [] → x.id = txn.toNat → x.busy = .wb → x.kind = .wrBack → x.req = some r → isCoherent r.op = true → x.next = none → x.stackDue = false →
    (s.homeWorking (.homeWrite x.no) = false → Completes (.homeWritebackDone txn) s fun t =>
      t.out = s.out ++ [answerOf s r .ack [⟨0, .ok, false, 0⟩]] ∧ t.ha = { s.ha with txns := [], given := t.ha.given } ∧ OnlyChanges [.ha, .out] s t) ∧
    (s.homeWorking (.homeWrite x.no) = true → Completes (.homeWritebackDone txn) s fun t => t = s)

/-- An agent that leaves a presented snoop unanswered for SNOOP_LIMIT frames is dead: its port is flushed, the notice goes to the homes and its snoops are
dropped. Before that nothing changes. -/
def Claims.SnoopLimitKills : Prop :=
  ∀ (s : State) (a : Fin 6) (x : SnoopSt) (c : Nat), s.snoops = [x] → x.s.agent = 6 * s.t + a → x.shown = some c → s.dom 1 = true →
    let p : Port := Fin.ofNat 32 (20 + a)
    (s.clk.now < c + (s.reg 0x5000 2).toNat * 1024 → Completes (.snoopTimeout a) s fun t => t = s) ∧
    (c + (s.reg 0x5000 2).toNat * 1024 ≤ s.clk.now → (s.port p).flush = none → Completes (.snoopTimeout a) s fun t =>
      (t.port p).flush = some Config.flushCause.toNat ∧ (t.port p).queue = [] ∧ (t.port p).fifo = [] ∧ t.snoops = [] ∧
      Out.ring (.deadAgent (6 * s.t + a) .snoopLimit) ∈ t.out ∧ LogsOne s t 0x0404 [w16 p, Config.flushCause, w16 ((s.port p).epoch + 1).toNat] ∧
      OnlyPort s t p ∧ (∀ b m, b ≠ a → t.agentLine b m = s.agentLine b m) ∧
      OnlyChanges [.ports, .out, .log, .maint, .cipher, .budget, .snoops, .agents] s t)

/-- The oldest reservation of a line ends after RESERVE_LIMIT frames in HReserved, with event 0x0A04; before them it stands. -/
def Claims.ReservationEnds : Prop :=
  ∀ (s : State) (v : Resv) (f : BitVec 64), s.dom 1 = true → s.ha.resv = [v] → v.since = some f → s.lineBusy v.line = false → s.ha.work = [] →
    s.ha.plain = [] → s.ha.plainWait = [] → SMap.look s.log.seen (limKey 0x0A04 v.agent) = none →
    (f.toNat + (s.reg 0x5000 3).toNat ≤ s.frame → Completes (.reservationExpire v.line) s fun t =>
      t.ha = { s.ha with resv := [] } ∧ t.log.entries.getLast? = some (s.event 0x0A04 ([w16 v.agent] ++ wordsOf 3 v.line)) ∧
      OnlyChanges [.ha, .log, .maint, .out] s t) ∧
    (s.frame < f.toNat + (s.reg 0x5000 3).toNat → Completes (.reservationExpire v.line) s fun t => t = s)

/-- A dead-agent notice at a home without transactions: the agent's bit, event 0x0A01 with its cause, and neither its snoops nor its reservations stand. -/
def Claims.DeadAgentNoted : Prop :=
  ∀ (s : State) (a : Fin 48) (c : DeadCause), s.dom 1 = true → s.ha.txns = [] → s.ha.work = [] → s.ha.plain = [] → s.ha.plainWait = [] →
    (∀ v ∈ s.ha.resv, v.agent = a.val → ∀ w ∈ s.ha.resv, w.line = v.line → w = v) →
    Completes (.deadAgentNotice a c) s fun t =>
      t.ha = { s.ha with dead := setBit s.ha.dead a true, resv := s.ha.resv.filter (fun v => v.agent ≠ a.val) } ∧
      t.snoops = s.snoops.filter (fun x => x.s.agent ≠ a.val) ∧
      LogsOne s t 0x0A01 [w16 a, match c with | .reset => 1 | .flushed => 2 | .snoopLimit => 3 | .fenced => 4] ∧
      OnlyChanges [.ha, .snoops, .log, .maint, .out] s t

/-- The reclaim of a dead agent ends: the one line it owned is to be written as poison, counted in LINES_LOST and its entry freed, one it shared only loses its
bit, and event 0x0A02 tells the lines poisoned. -/
def Claims.ReclaimEnds : Prop :=
  ∀ (s : State) (a : Fin 48) (line : Nat) (e : Entry), s.dom 1 = true → s.ha.dead = setBit 0 a true → s.ha.filter = [(line, e)] →
    s.ordinaryHere line → s.ha.deadLost = [] → bit e.present a = true →
    (e.kind ≠ .none → e.owner = a.val → e.present = setBit 0 a true → Completes (.reclaimWalkDone a) s fun t =>
      t.ha = { s.ha with filter := [], dead := 0 } ∧ s.poisonWaits t line ∧ s.counted t 0x5002 21 1 ∧
      LogsOne s t 0x0A02 [w16 a, 1] ∧ OnlyChanges [.ha, .sched, .ctr, .log, .maint, .out] s t) ∧
    (e.kind = .none ∨ e.owner ≠ a.val → (∃ b, b < 48 ∧ b ≠ a.val ∧ bit e.present b = true) → Completes (.reclaimWalkDone a) s fun t =>
      t.ha.filter = [(line, { e with present := setBit e.present a false })] ∧ t.ha.dead = 0 ∧ LogsOne s t 0x0A02 [w16 a, 0] ∧
      OnlyChanges [.ha, .log, .maint, .out] s t)

/-- The recall of a lost home's lines ends, once its walk has come to the end of the Seam part and each recall it began is done, with event 0x0A0A; before that
nothing changes. -/
def Claims.LostHomeRecalled : Prop :=
  ∀ (s : State) (u : Nat), s.ha.lostRecall = some u → s.dom 1 = true →
    (s.map.seam / 64 ≤ s.ha.lostPos → (∀ w ∈ s.ha.work, w.2 ≠ .lostHome) → (∀ x ∈ s.ha.txns, x.kind = .lostHome → x.req.isSome = true) →
      Completes .lostHomeRecallDone s fun t =>
        t.ha = { s.ha with lostRecall := none } ∧ LogsOne s t 0x0A0A [w16 u, sat16 (s.map.seam / 128)] ∧ OnlyChanges [.ha, .log, .maint, .out] s t) ∧
    (s.ha.lostPos < s.map.seam / 64 ∨ (∃ w ∈ s.ha.work, w.2 = .lostHome) → Completes .lostHomeRecallDone s fun t => t = s)

/-- The classification after a split ends: a line whose owner is across it is in doubt dirty, one with another holder across it in doubt shared, every other as
it was; no bit is cleared, the stack is not written, and event 0x0A07 counts both kinds. -/
def Claims.SplitClassified : Prop :=
  ∀ s : State, s.ha.classify = true → s.dom 1 = true → (∀ x ∈ s.ha.filter, x.2.present ≠ 0) → Completes .splitClassifyDone s fun t =>
    (∀ (l : Nat) (e : Entry), s.entry l = some e → ∃ e', t.entry l = some e' ∧ { e' with doubt := e.doubt } = e ∧
      (e.doubt ≠ .none → e'.doubt = e.doubt) ∧
      (e.doubt = .none → (e.kind ≠ .none ∧ s.across (e.owner / 6) = true → e'.doubt = .dirty) ∧
        ((e.kind = .none ∨ s.across (e.owner / 6) = false) →
          ((∃ a, a < 48 ∧ bit e.present a = true ∧ s.across (a / 6) = true) → e'.doubt = .shared) ∧
          ((∀ a, a < 48 → bit e.present a = true → s.across (a / 6) = false) → e'.doubt = .none)))) ∧
    (∀ l, s.entry l = none → t.entry l = none) ∧ t.ha.classify = false ∧
    LogsOne s t 0x0A07 [sat16 (t.ha.filter.countP (fun e => e.2.doubt == .dirty)), sat16 (t.ha.filter.countP (fun e => e.2.doubt == .shared))] ∧
    t.store = s.store ∧ OnlyChanges [.ha, .log, .maint, .out] s t

/-- The hold of a split expires after HOLD_TIME × 65,536 frames: the one line in doubt dirty is to be written as poison, stays in doubt, is counted in
LINES_LOST, and event 0x0A08 tells how many were; before that nothing changes. -/
def Claims.HoldExpires : Prop :=
  ∀ (s : State) (f : BitVec 64) (line : Nat) (e : Entry), s.dom 1 = true → s.repair.split.isSome = true → s.ha.holdFrom = some f → s.ha.expired = false →
    (s.frame < f.toNat + 65536 * (s.reg 0x5000 4).toNat → Completes .holdExpire s fun t => t = s) ∧
    (f.toNat + 65536 * (s.reg 0x5000 4).toNat ≤ s.frame → s.ha.filter = [(line, e)] → e.doubt = .dirty → s.ordinaryHere line →
      s.ha.work = [] → s.ha.txns = [] → (∀ a, a < 48 → bit e.present a = true → s.reach a = false) → e.present ≠ 0 →
      Completes .holdExpire s fun t =>
        t.ha.expired = true ∧ s.poisonWaits t line ∧ (∃ e', t.ha.filter = [(line, e')] ∧ e'.doubt = .dirty ∧ e'.present = e.present) ∧
        s.counted t 0x5002 21 1 ∧ LogsOne s t 0x0A08 [1] ∧ OnlyChanges [.ha, .sched, .ctr, .log, .maint, .out] s t)

/-- The heal is resolved once no line is in doubt: the home leaves it, and event 0x0A09 tells the lines written back and poisoned. -/
def Claims.HealResolved : Prop :=
  ∀ s : State, s.dom 1 = true → s.ha.healing = true → (∀ x ∈ s.ha.filter, x.2.doubt = .none) → (∀ x ∈ s.ha.txns, x.kind ≠ .heal) →
    Completes .healResolveDone s fun t =>
      t.ha = { s.ha with healing := false, expired := false, healWb := 0, healLost := 0 } ∧ LogsOne s t 0x0A09 [sat16 s.ha.healWb, sat16 s.ha.healLost] ∧
      OnlyChanges [.ha, .log, .maint, .out] s t

/-- A lost-line notice clears the line's owner, has the line written as poison and counts it, with event 0x0A0B. -/
def Claims.LostLineNoted : Prop :=
  ∀ (s : State) (line : Nat) (q : Fin 48) (e : Entry), s.dom 1 = true → line % 64 = 0 → s.ordinaryHere line → s.entry line = some e →
    e.kind ≠ .none → Completes (.lostLineNotice line q) s fun t =>
      (t.entry line = none ∨ ∃ e', t.entry line = some e' ∧ e'.kind = .none ∧ e'.present = setBit e.present e.owner false) ∧
      (∀ l, l ≠ line → t.entry l = s.entry l) ∧ s.poisonWaits t line ∧ s.counted t 0x5002 21 1 ∧
      LogsOne s t 0x0A0B ([w16 q] ++ wordsOf 3 line) ∧ OnlyChanges [.ha, .sched, .ctr, .log, .maint, .out] s t

/-! ### Coherence: the caching agents -/

/-- What an agent does on its own loads, stores and evictions, from every stable state, its request's RAGE telling the Retry answers that the request has
received; in a transient state each is a protocol violation. -/
def Claims.AgentActions : Prop :=
  ∀ (s : State) (a : Fin 6) (line : Nat) (d : Line),
    let l := s.agentLine a line
    let goes := fun (st : CState) (op : Op) (dirty : Bool) (x : Line) (t : State) =>
      let rage := if l.back = (op == .wrBack) then l.rage else 0
      t.agentLine a line = { l with st := st, rage := rage, back := op == .wrBack } ∧
      t.out = s.out ++ [.agentReq (6 * s.t + a) op (line / 64 * 64) dirty rage x] ∧
      (∀ b m, agentKey b m ≠ agentKey a line → t.agentLine b m = s.agentLine b m) ∧ OnlyChanges [.agents, .out] s t
    let takes := fun (v : ALine) (t : State) =>
      t.agentLine a line = v ∧ (∀ b m, agentKey b m ≠ agentKey a line → t.agentLine b m = s.agentLine b m) ∧ OnlyChanges [.agents] s t
    (l.st = .i → Completes (.agentLoad a line false) s (goes .isD .rdShared false 0) ∧ Completes (.agentLoad a line true) s (goes .imAd .rdUnique false 0) ∧
      Completes (.agentStore a line d) s (goes .imAd .rdUnique false 0) ∧ ∀ tell, Completes (.agentEviction a line tell) s fun t => t = s) ∧
    (l.st ∈ [CState.s, .e, .o, .m] → ∀ unique, Completes (.agentLoad a line unique) s fun t => t = s) ∧
    (l.st = .s → Completes (.agentStore a line d) s (goes .smA .upgrade false 0) ∧ ∀ tell, Completes (.agentEviction a line tell) s (takes {})) ∧
    (l.st = .e → Completes (.agentStore a line d) s (takes { st := .m, data := d }) ∧ Completes (.agentEviction a line false) s (takes {}) ∧
      Completes (.agentEviction a line true) s (goes .eiA .wrBack false l.data)) ∧
    (l.st = .o → Completes (.agentStore a line d) s (goes .omA .upgrade false 0) ∧
      ∀ tell, Completes (.agentEviction a line tell) s (goes .oiA .wrBack true l.data)) ∧
    (l.st = .m → Completes (.agentStore a line d) s (takes { st := .m, data := d }) ∧ ∀ tell, Completes (.agentEviction a line tell) s (goes .miA .wrBack true l.data)) ∧
    (l.st.transient → ∀ b, exec (.agentLoad a line b) s = .fault .agentActionUnlisted ∧ exec (.agentStore a line d) s = .fault .agentActionUnlisted ∧
      exec (.agentEviction a line b) s = .fault .agentActionUnlisted)

/-- R227, every row: the agent answers its one presented snoop as the table states, with its data on a forward, and enters the table's state. -/
def Claims.AgentSnoopTable : Prop :=
  ∀ (s : State) (a : Fin 6) (x : SnoopSt) (c : Nat), s.snoops = [x] → x.s.agent = 6 * s.t + a → x.shown = some c → x.done = false →
    ∀ row ∈ snoopRows, (s.agentLine a x.s.line).st = row.1 → x.s.ty = row.2.1 → x.s.fwd = row.2.2.1 →
      Completes (.agentSnoop a) s fun t =>
        t.out = s.out ++ [.agentAns (6 * s.t + a) x.s.home x.s.txn row.2.2.2.1 row.2.2.2.2.2.1 row.2.2.2.2.1
          (if row.2.2.2.1 = .fwd then (s.agentLine a x.s.line).data else 0)] ∧
        (t.agentLine a x.s.line).st = row.2.2.2.2.2.2 ∧ (∀ b m, agentKey b m ≠ agentKey a x.s.line → t.agentLine b m = s.agentLine b m) ∧
        t.snoops = [{ x with done := true }] ∧ OnlyChanges [.agents, .snoops, .out] s t

/-- R228, every entry: a response takes the line to the table's state, with its data where it brings any; one that the table says is not sent stops the agent. -/
def Claims.AgentResponseTable : Prop :=
  ∀ (s : State) (a : Fin 6) (line : Nat) (c : Cresp) (d : Line),
    (∀ st, ((s.agentLine a line).st, c, st) ∈ responseRows → Completes (.agentResponse a line c d) s fun t =>
      (t.agentLine a line).st = st ∧
      (st ≠ .i → (t.agentLine a line).data = (if c ∈ [Cresp.dataS, .dataE, .dataM, .dataO] then d else (s.agentLine a line).data)) ∧
      (t.agentLine a line).rage = (if c = .retry then min ((s.agentLine a line).rage + 1) 7 else 0) ∧
      (∀ b m, agentKey b m ≠ agentKey a line → t.agentLine b m = s.agentLine b m) ∧ OnlyChanges [.agents] s t) ∧
    ((∀ st, ((s.agentLine a line).st, c, st) ∉ responseRows) → exec (.agentResponse a line c d) s = .fault .responseNotSent)

/-! ### Cipher lanes -/

/-- A FIRST read of a cipher region that alone waits on its port, passes the check and finds room in the cipher queue is admitted: it takes the lowest free
entry with its descriptor's stream, slot, direction and length, counts as a cipher request, leaves the queue and goes to its home. A slot that is not loaded
with the mode's kind of key marks the entry failed with KEY_EMPTY, with event 0x0B01. -/
def Claims.CipherAdmitted : Prop :=
  ∀ (s : State) (p : Port) (r : QReq) (d : CDesc) (coh : Bool) (k : Nat), s.portsUp = true → (s.port p).queue = [r] → r.bad = none → r.op = .read →
    r.w.desc = some d → d.first = true → d.dir = true → s.check p .read r.w = .pass true coh → s.checkHeld = false → s.underCap r.w.master = true →
    s.store.initing = false → s.room p r.w.count = true → s.here .read false r.w.byteAddr r.w.count = none →
    s.hasShare (s.serves r.w.byteAddr r.w.count) = true →
    (s.port p).flush = none → s.inLanes p r.w = false →
    (∀ x ∈ s.ports, ∀ q ∈ x.2.queue, q.adm = none) → s.canAdmit d = true → s.freeEntry = some k → d.slot.toNat ∉ s.cipher.badSlots → s.dom 1 = true →
    let sl := s.slot d.slot.toNat
    let entered := fun (failed : Option Nat) (t : State) =>
      (∃ e, SMap.look t.cipher.ents k = some e ∧ e.port = p.val ∧ e.stream = d.stream.toNat ∧ e.mode = modeOf d.mode ∧ e.dir = true ∧
        e.slot = d.slot.toNat ∧ e.len = d.len.toNat ∧ e.addr = r.w.byteAddr ∧ e.iv = d.iv ∧ e.master = r.w.master ∧ e.failed = failed) ∧
      (∀ j, j ≠ k → SMap.look t.cipher.ents j = SMap.look s.cipher.ents j) ∧ (t.port p).queue = [] ∧ OnlyPort s t p ∧
      s.counted t 0x6402 1 1
    (sl.st = 1 → sl.kind = modeKind (modeOf d.mode) → Completes (.cipherAdmit p) s fun t =>
      entered none t ∧ (∃ h, Out.ring (.request (s.serves r.w.byteAddr r.w.count) (s.arcTo (s.serves r.w.byteAddr r.w.count)) h) ∈ t.out ∧ h.op = .read ∧ h.addr = r.w.byteAddr ∧ h.lines = r.w.count)) ∧
    (sl.st = 0 → d.last = false → Completes (.cipherAdmit p) s fun t => entered (some 5) t ∧ ∃ e ∈ t.log.entries, e.code = 0x0B01)

/-- A segment of one line that compares equal in CTR mode on the pair that computes it, or on the lowest free pair where it still waits for one: the line leaves
with the counter stream applied, as the read's one beat with CSTAT 1, and the entry is free. A first mismatch on a pair of one half with a free pair in the
other counts against its pair, is logged as event 0x0B02, and sends the segment to the lowest free pair of that half. -/
def Claims.SegmentCompared : Prop :=
  ∀ (s : State) (k : Fin 256) (e : CEnt) (g : Seg) (l : CLn) (p : Port) (o : Onward) (q : Nat), s.cipher.ents = [(k.val, e)] →
    (g.pair = some q ∨ g.pair = none ∧ q = 0 ∧ s.pairFree 0 = true) → s.cipher.badSlots.contains e.slot = false → (s.port p).resets = [] →
    e.failed = none → e.segs = [g] → g.first = 0 → g.count = 1 → g.txid = o.txid → g.failedOn = none → e.lns = [l] → l.idx = 0 → l.txid = o.txid →
    l.computed = false → l.released = false → l.d.poison = false → e.mode = .ctr → e.dir = true → 1 ≤ e.len → e.len ≤ 64 → e.next = 1 → e.port = p.val →
    e.lastTx = some o.txid → (s.port p).onward = [o] → o.lines = 1 → o.reserved = 1 → o.dropped = false →
    (Completes (.segmentCompare k false) s fun t =>
      (∃ b : Beat, (t.port p).fifo = (s.port p).fifo ++ [(b, o.addr)] ∧ b.status = .ok ∧ b.last = true ∧ b.tag = o.tag ∧ b.cstat = 1 ∧ b.ctag = 0 ∧
        b.data = e.outLine (s.slot e.slot) 0) ∧ (t.port p).onward = [] ∧ SMap.look t.cipher.ents k = none ∧
      s.counted t 0x6402 5 e.len ∧ OnlyPort s t p ∧ OnlyChanges [.cipher, .ports, .out, .ctr, .budget] s t) ∧
    (q < 24 → s.pairFree 24 = true → s.dom 1 = true → satAdd16 (s.cipher.miss.getD q 0) 1 < (s.reg 0x6400 2).toNat →
      Completes (.segmentCompare k true) s fun t =>
        (∃ e', SMap.look t.cipher.ents k = some e' ∧ e'.segs = [{ g with failedOn := some q, pair := some 24 }] ∧ e'.lns = e.lns ∧ e'.failed = none) ∧
        t.cipher.miss.getD q 0 = satAdd16 (s.cipher.miss.getD q 0) 1 ∧ t.cipher.fenced = s.cipher.fenced ∧
        LogsOne s t 0x0B02 [w16 q, 24, w16 e.slot] ∧ t.ports = s.ports ∧ OnlyChanges [.cipher, .log, .maint, .out, .ctr] s t)

/-- A stream without a request for STREAM_TIMEOUT frames closes: one that had not failed is aborted and counted, with event 0x0B0B; before that nothing
changes. -/
def Claims.StreamCloses : Prop :=
  ∀ (s : State) (p : Port) (st : BitVec 4) (k : Nat) (e : CEnt), s.stream p st.toNat = some (k, e) → SMap.look s.cipher.ents k = some e → e.port = p.val →
    s.dom 1 = true →
    (s.frame < e.lastFrame.toNat + (s.reg 0x6400 6).toNat → Completes (.streamTimeout p st) s fun t => t = s) ∧
    (e.lastFrame.toNat + (s.reg 0x6400 6).toNat ≤ s.frame → e.failed.isSome = true → Completes (.streamTimeout p st) s fun t =>
      SMap.look t.cipher.ents k = none ∧ (∀ j, j ≠ k → SMap.look t.cipher.ents j = SMap.look s.cipher.ents j) ∧ t.log = s.log ∧ OnlyPort s t p ∧
      OnlyChanges [.cipher, .ports, .freeCount] s t) ∧
    (e.lastFrame.toNat + (s.reg 0x6400 6).toNat ≤ s.frame → e.failed = none → e.lns = [] → e.segs = [] → Completes (.streamTimeout p st) s fun t =>
      SMap.look t.cipher.ents k = none ∧ s.counted t 0x6402 0x15 1 ∧
      LogsOne s t 0x0B0B ([w16 e.port, w16 e.master.toNat, w16 e.tenant.toNat, w16 e.stream, w16 e.slot] ++ wordsOf 3 e.addr) ∧ OnlyPort s t p ∧
      (∀ j, j ≠ k → SMap.look t.cipher.ents j = SMap.look s.cipher.ents j) ∧ OnlyChanges [.cipher, .ports, .freeCount, .ctr, .log, .maint, .out] s t)

/-! ### Housekeeping and heat -/

/-- The next sample of a round is kept on its channel; a sample that is missing, or whose source is not powered, reads 0x8000 with its MISSING bit, and a
clock multiplier's channel reads 0x7FFF while it is unlocked. Every other channel keeps its sample. -/
def Claims.SampleKept : Prop :=
  ∀ (s : State) (v : Option Word) (powered : Bool), s.hk.chan < 32 →
    let on := powered && s.sourceOn s.hk.chan
    Completes (.hkSample v powered) s fun t =>
    t.hk.chan = s.hk.chan + 1 ∧ t.hk.rounds = s.hk.rounds ∧
    t.hk.samples.getD s.hk.chan 0x8000 = (if on then (s.sampled s.hk.chan v).getD 0x8000 else 0x8000) ∧
    bit t.hk.missing s.hk.chan = ((s.sampled s.hk.chan v).isNone || !on) ∧ (∀ c, c ≠ s.hk.chan → t.hk.samples.getD c 0x8000 = s.hk.samples.getD c 0x8000) ∧
    (∀ c, c ≠ s.hk.chan → bit t.hk.missing c = bit s.hk.missing c) ∧
    t.clk.pt = max s.clk.pt ((2 ^ 23 * s.hk.rounds + 2 ^ 18 * s.hk.chan) * 36) ∧ OnlyChanges [.hk, .clk, .log, .maint, .out] s t

/-- A round ends when all 32 channels are sampled: the next begins at channel 0, the tile's record enters the package view and goes out both ways with its CRC, and LIFE_EQ gains the
round at the weight of TJ. The witness beyond its limit in a second round running is a reference fault, and counts as one. -/
def Claims.RoundEnds : Prop :=
  ∀ (s : State) (m : HkMeas), s.hk.chan = 32 → s.dom 1 = true → Completes (.hkRoundEnd m) s fun t =>
    t.hk.rounds = s.hk.rounds + 1 ∧ t.hk.chan = 0 ∧ t.hk.samples = s.hk.samples ∧
    (let own := (List.range 32).map (fun c => s.hk.samples.getD c 0x8000)
     (s.t + 1 < s.n → Out.ring (.chainRecord true s.t own s.hk.missing (chainCrc own s.hk.missing)) ∈ t.out) ∧
     (0 < s.t → Out.ring (.chainRecord false s.t own s.hk.missing (chainCrc own s.hk.missing)) ∈ t.out)) ∧
    (∀ c, c < 32 → t.hk.chain.getD (s.t * 32 + c) 0x8000 = s.hk.samples.getD c 0x8000) ∧ t.repair.life = s.repair.life + 2 ^ 23 * lifeWeight s.tj ∧
    (∀ x, s.present 12 = some x → s.witnessBeyond x = true → s.hk.witOut ≠ 0 → s.hk.refFault = false →
      t.hk.refFault = true ∧ s.counted t 0x7820 33 1) ∧
    OnlyChanges [.hk, .clk, .log, .maint, .out, .repair, .dict, .ctr] s t

/-- A record of the sensor chain whose CRC is good enters the package view once a round and is passed on away from its tile; one whose CRC is not is
ignored. One that has not come 1 ms after the round's end is missing: its samples
read 0x8000, and in a second round running its CHAIN_FAULT bit is set. -/
def Claims.ChainRecords : Prop :=
  ∀ (s : State) (u : TileNo), u.val < s.n → u.val ≠ s.t → bit s.hk.chainGot u = false →
    (∀ (samples : List Word) (missing : BitVec 32), samples.length = 32 → Completes (.chainRecordReceive u samples ⟨missing, chainCrc samples missing⟩) s fun t =>
      (∀ k, k < 32 → t.hk.chain.getD (u * 32 + k) 0x8000 = samples.getD k 0x8000) ∧ bit t.hk.chainGot u = true ∧ bit t.hk.chainMissing u = false ∧
      t.out = s.out ++ (if (if u.val < s.t then decide (s.t + 1 < s.n) else decide (0 < s.t)) = true then
        [.ring (.chainRecord (decide (u.val < s.t)) u samples missing (chainCrc samples missing))] else []) ∧
      t.hk.samples = s.hk.samples ∧ OnlyChanges [.hk, .out] s t) ∧
    (∀ (samples : List Word) (missing crc : BitVec 32), crc ≠ chainCrc samples missing →
      Completes (.chainRecordReceive u samples ⟨missing, crc⟩) s fun t => t = s) ∧
    (Completes (.chainRecordTimeout u) s fun t =>
      (∀ k, k < 32 → t.hk.chain.getD (u * 32 + k) 0x8000 = 0x8000) ∧ bit t.hk.chainMissing u = true ∧
      bit t.hk.chainFault u = bit s.hk.chainMissing u ∧ t.hk.samples = s.hk.samples ∧ OnlyChanges [.hk, .clk, .log, .maint, .out] s t)

/-- An Assay step on a group ends: the step is over, is counted, and its four measurements are recorded. At a temperature of 105 °C or more, a measurement of
DRV_PU within the limit of its set becomes the set of that point, clamped to its range, and is in force from the next tick; with Assay frozen no set changes. -/
def Claims.AssayStepEnds : Prop :=
  ∀ (s : State) (g : Fin 16) (m : AssayMeas), s.quench.on = false → s.anvil.stopped = some (g.val, false) →
    Completes (.assayStepDone g m) s fun t =>
      t.anvil = { s.anvil with stopped := none } ∧ s.counted t 0x7001 1 1 ∧
      t.hk.meas.getD (coefIdx 0 g) 0 = m.drvPu ∧ t.hk.meas.getD (coefIdx 1 g) 0 = m.drvPd ∧ t.hk.meas.getD (coefIdx 2 g) 0 = m.odt ∧
      t.hk.meas.getD (coefIdx 3 g) 0 = m.dlyGain ∧ t.hk.assayAt.getD g 0 = s.ns ∧ (s.frozen = true → t.dict = s.dict) ∧
      (∀ x : Int, s.frozen = false → s.groupTemp g = some x → 1680 ≤ x →
        let old := i16 (s.reg (coefIdx 0 g) 5)
        0 ≤ old → old ≤ 127 → i16 m.drvPu - old ≤ (s.reg 0x7000 6).toNat → old - i16 m.drvPu ≤ (s.reg 0x7000 6).toNat →
        t.reg (coefIdx 0 g) 5 = ofI16 (clampI 0 127 (i16 m.drvPu)) ∧ t.hk.forceDue.getD (coefIdx 0 g) 0 = m.drvPu ∧
        (∀ j, j < 5 → j ≠ 4 → t.reg (coefIdx 0 g) (j + 1) = s.reg (coefIdx 0 g) (j + 1))) ∧
      OnlyChanges [.anvil, .hk, .ctr, .dict, .log, .maint, .out, .repair, .pcs] s t

/-- A Planish step on a pseudo-channel that was due: its moment and its narrowest eye are recorded, its lane's delays are to move by at most 2 taps each at
the tick, a centre more than 2 taps off keeps it due, and with its eyes wide enough no fault follows. -/
def Claims.PlanishStepEnds : Prop :=
  ∀ (s : State) (c : Pc) (e : LaneEye), s.quench.on = false → s.anvil.stopped = some (c.val / 4, true) → s.planDueAt c s.tickNs = true →
    (s.pc c).recov = false → (s.reg 0x7000 8).toNat ≤ e.readEye → (s.reg 0x7000 8).toNat ≤ e.writeEye → Completes (.planishStepDone c [e]) s fun t =>
      (t.pc c).planAt = s.ns ∧ ((t.pc c).offCentre = true ↔ 2 < e.off ∨ e.off < -2 ∨ 2 < e.writeOff ∨ e.writeOff < -2) ∧
      (t.pc c).dlyDue = [(e.lane, clampI (-2) 2 e.off, clampI (-2) 2 e.writeOff)] ∧ (t.pc c).readEye = w16 (e.readEye % 256 * 256 + e.lane % 64) ∧
      (t.pc c).writeEye = w16 (e.writeEye % 256 * 256 + e.lane % 64) ∧ s.counted t 0x7001 5 1 ∧ OnlyPc s t c ∧
      OnlyChanges [.pcs, .ctr] s t

/-- A clock multiplier that loses lock: event 0x0C09, and a clock fault of the tile, by which it fences itself at the next tick. -/
def Claims.LockLossFences : Prop :=
  ∀ (s : State) (k : Fin 2), s.dom 1 = true → s.repair.fenced = none → RungAct.fence .clock ∉ s.repair.due → Completes (.pllLockLoss k) s fun t =>
    (if k = 0 then t.phy.pll0 = false ∧ t.phy.pll1 = s.phy.pll1 else t.phy.pll1 = false ∧ t.phy.pll0 = s.phy.pll0) ∧
    t.log = (s.log.push (s.event 0x0C09 [w16 k])).push (s.event 0x0E02 [6, Config.unitCode ⟨s.t, 0, 0, 0⟩]) ∧ s.counted t 0x7820 25 1 ∧
    t.repair = { s.repair with due := s.repair.due ++ [.fence .clock] } ∧ OnlyChanges [.phy, .repair, .ctr, .log, .maint, .out] s t

/-- The Anneal of a recovery of rung 1 is verified in its frame 24: the pseudo-channels that it could not train are kept, the group's delays stand where it
left them, it counts, and event 0x0C0A carries the group; before that frame nothing changes. -/
def Claims.AnnealVerified : Prop :=
  ∀ (s : State) (g : Fin 16) (fails : BitVec 4) (r : Recov), s.repair.recov = some r → r.rung = 1 → r.u.pc / 4 = g.val → r.annealed = false → s.dom 1 = true →
    (s.frame < r.opened.toNat + 24 → Completes (.annealDone g fails []) s fun t => t = s) ∧
    (r.opened.toNat + 24 ≤ s.frame → Completes (.annealDone g fails []) s fun t =>
      t.repair = { s.repair with recov := some { r with annealed := true, fails := fails } } ∧ s.counted t 0x7001 9 1 ∧
      (∀ c, c / 4 = g.val → (t.pc c).rdDly = [] ∧ (t.pc c).wrDly = [] ∧ (t.pc c).dlyDue = [] ∧ (t.pc c).offCentre = false) ∧
      (∀ c, c / 4 ≠ g.val → t.pc c = s.pc c) ∧
      LogsOne s t 0x0C0A [w16 g, Config.resultCode (if fails = 0 then .passed else .failed)] ∧ OnlyChanges [.repair, .pcs, .ctr, .log, .maint, .out] s t)

/-- A Quench trip: ZG_QUENCH_N low, the stack in self-refresh with its data, the PHY groups' domains off, every key slot empty, every step abandoned and event
0x0D08; in Blank mode the pin is driven and nothing else of the tile changes; before a start has begun nothing does. -/
def Claims.QuenchTrips : Prop :=
  ∀ (s : State) (k : Fin 8) (reading : Word), s.quench.on = false → s.dom 1 = true →
    (s.boot.st ≠ 4 → s.boot.st ≠ 0 → s.cipher.ents = [] → Completes (.quenchTrip (some k) reading) s fun t =>
      t.quench.on = true ∧ t.quench.byTj = true ∧ t.quench.coolFrom = none ∧ t.quench.count = sat32 (s.quench.count + 1) ∧ t.pins.quenchLow = true ∧
      t.store.selfRef = true ∧ t.store.data = s.store.data ∧ t.store.poison = s.store.poison ∧ t.cipher.slots = [] ∧
      (∀ j, 13 ≤ j → j ≤ 28 → t.dom j = false) ∧ (∀ j, j < 13 → t.dom j = s.dom j) ∧ t.anvil = { s.anvil with stopped := none } ∧
      t.log.entries.getLast? = some (s.event 0x0D08 [Config.quenchCode true, w16 k, reading]) ∧ t.ports = s.ports ∧ t.dict = s.dict) ∧
    (s.boot.st = 4 → Completes (.quenchTrip (some k) reading) s fun t =>
      t.pins = { s.pins with quenchLow := true } ∧ t.quench.on = true ∧ OnlyChanges [.quench, .pins] s t) ∧
    (s.boot.st = 0 → Completes (.quenchTrip (some k) reading) s fun t => t = s)

/-- The cooling second of Quench: it begins when every condition holds, and once passed the PHY groups of pseudo-channels in service switch on for the restart;
in Blank mode, or where a start waits, only the pin is released. -/
def Claims.CoolingSecond : Prop :=
  ∀ s : State, s.quench.on = true → s.quench.restart = false →
    (Completes .coolingCountStart s fun t => t.quench = { s.quench with coolFrom := some s.ns } ∧ OnlyChanges [.quench] s t) ∧
    (∀ c, s.quench.coolFrom = some c → s.boot.st ≠ 4 → s.boot.st ≠ 1 → Completes .quenchRestart s fun t =>
      t.quench = { s.quench with restart := true, assayed := [], coolFrom := none, restartAt := t.ns } ∧ t.clk.pt = max s.clk.pt ((c + 1000000000) * 36) ∧ t.pins = s.pins ∧
      (∀ g, g < 16 → (∃ j, j < 4 ∧ (s.pc (4 * g + j)).retired = false) → bit t.pd.rising (13 + g) = true) ∧ t.pd.status = s.pd.status ∧
      OnlyChanges [.quench, .pd, .clk] s t) ∧
    (∀ c, s.quench.coolFrom = some c → (s.boot.st = 4 ∨ s.boot.st = 1) → Completes .quenchRestart s fun t =>
      t.pins = { s.pins with quenchLow := false } ∧ t.quench.on = false ∧ OnlyChanges [.quench, .pins, .clk] s t)

/-- The restart after Quench is done with every pseudo-channel trained and every measurement of its Assay taken before: the tile serves, ZG_QUENCH_N is
released, ticks are aligned to the anchor's marker, the stack has left self-refresh with every refresh debt 0, and event 0x0D09 names no pseudo-channel.
Nothing at the ports has changed. -/
def Claims.QuenchRestartEnds : Prop :=
  ∀ (s : State) (assay : List AssayMeas) (mark : Marker) (ref : Bool), s.quench.restart = true → s.boot.st = 2 → s.dom 1 = true →
    s.repair.fenced = none → s.phase ≠ 4 → s.repair.stackRetired = false → assay.length = 16 → (∀ g, g < 16 → g ∈ s.quench.assayed) →
    Completes (.quenchRestartDone { assay := assay, tile := ⟨none, none, none, ref⟩, mark := mark }) s fun t =>
      t.quench = { s.quench with on := false, byTj := false, byStack := false, restart := false } ∧ t.pins = { s.pins with quenchLow := false } ∧
      t.store = { s.store with selfRef := false } ∧ (∀ c b, (t.pc c).debt b = 0) ∧ t.anvil.aligned = true ∧ t.anvil.tickOff = 0 ∧
      (if s.repair.anchor = s.t then t.clk = s.clk ∧ t.anvil.frameNo = s.anvil.frameNo else t.anvil.frameNo = mark.frame ∧ t.cyc = mark.cyc) ∧
      LogsOne s t 0x0D09 [0, 0, 0, 0] ∧ t.ports = s.ports ∧ t.cipher = s.cipher ∧ t.repair.map = s.repair.map ∧ t.repair.due = s.repair.due ∧
      OnlyChanges [.quench, .pins, .pd, .anvil, .clk, .store, .pcs, .hk, .repair, .out, .log, .maint] s t

/-! ### Faults, ring and repair -/

/-- A recovery of rung 2 closes 6 frames after its opening, and not before. With its row replaced and verified: a repair row is used, the row counts in ROWS_REPAIRED
and enters the repair map, the pseudo-channel returns, and events 0x0E07 and 0x0E04 are logged; the stack holds what it held. -/
def Claims.RecoveryCloses : Prop :=
  ∀ (s : State) (r : Recov), s.repair.recov = some r → r.rung = 2 → s.dom 1 = true → s.repair.waiting = [] → r.spared = [] →
    (s.frame < r.opened.toNat + 6 → ∀ res, Completes (.recoveryClose res) s fun t => t = s) ∧
    (∀ b w : Nat, r.opened.toNat + 6 ≤ s.frame → s.cyc ≠ 0 → s.frame ≤ r.found.toNat + 33 → r.u.pc < 64 → r.rows = [(b, w)] → s.rowVerified r (b, w) = true →
      Completes (.recoveryClose .passed) s fun t =>
      t.repair.recov = none ∧ (t.pc r.u.pc).recov = false ∧ (t.pc r.u.pc).rowsSoft = min ((s.pc r.u.pc).rowsSoft + 1) 255 ∧
      (t.pc r.u.pc).rowSp.getD (b / 4) 0 = (s.pc r.u.pc).rowSp.getD (b / 4) 0 - 1 ∧ t.repair.due = s.repair.due ∧
      t.repair.map = s.repair.map ++ [⟨3, s.t, r.u.pc, b, s.deepOf b w⟩] ∧ t.repair.mapDue = true ∧
      t.log = (s.log.push (s.event 0x0E07 [w16 r.u.pc, w16 b, w16 w, Config.formCode false])).push
        (s.event 0x0E04 [w16 r.rung, Config.unitCode r.u, sat16 (s.frame - r.opened.toNat), Config.resultCode .passed]) ∧
      (∀ p ∈ t.sched.parts, p.origin ≠ .row) ∧ (∀ p ∈ s.sched.parts, p.origin ≠ .row → p ∈ t.sched.parts) ∧
      s.counted t 0x7821 1 1 ∧ OnlyPc s t r.u.pc ∧ OnlyChanges [.repair, .pcs, .sched, .log, .maint, .out, .ctr] s t)

/-- Notices from other tiles. A retirement is held with those of every tile, once, and enters the anchor's repair map where its tile goes on; the stand-ins serve
from the next tick. A fence notice of another tile of the view makes its fostering due at the next tick; one for this tile fences it. A fence notice to a tile whose
ring stop is not up has no effect. -/
def Claims.RetirementAndFenceNotices : Prop :=
  ∀ (s : State) (u : TileNo), u.val < s.n →
    (∀ c b : Pc, u.val ≠ s.t → (u.val, 0, c.val, b.val) ∉ s.repair.others → s.map.seam = 0 → Completes (.retirementNotice u 0 c b) s fun t =>
      t.repair = { s.repair with others := s.repair.others ++ [(u.val, 0, c.val, b.val)], map := t.repair.map, mapDue := t.repair.mapDue } ∧
      (s.repair.anchor ≠ s.t ∨ SMap.look s.anvil.hb u.val = none → t.repair.map = s.repair.map ∧ t.repair.mapDue = s.repair.mapDue) ∧
      (∀ h, s.repair.anchor = s.t → SMap.look s.anvil.hb u.val = some h → h.missed = 0 → h.st ≠ .fenced →
        t.repair.map = s.repair.map ++ [⟨5, u.val, c.val, b.val, 0⟩] ∧ t.repair.mapDue = true) ∧
      t.seam = { s.seam with standFrom := if s.cyc = 0 then s.anvil.frameNo else s.anvil.frameNo + 1 } ∧ OnlyChanges [.repair, .seam] s t) ∧
    (s.dom 29 = false → Completes (.fenceNotice u) s fun t => t = s) ∧
    (s.dom 29 = true → u.val ≠ s.t → bit s.repair.view u.val = true → RungAct.foster u.val ∉ s.repair.due → Completes (.fenceNotice u) s fun t =>
      t.repair = { s.repair with due := s.repair.due ++ [.foster u.val] } ∧ (∃ h, SMap.look t.anvil.hb u.val = some h ∧ h.st = .fenced) ∧
      OnlyChanges [.repair, .anvil] s t) ∧
    (s.dom 29 = true → u.val = s.t → s.repair.fenced = none → s.dom 1 = true → Completes (.fenceNotice u) s fun t =>
      t.repair.fenced = some .notice ∧ t.pins.alertLow = true ∧ t.store.selfRef = true ∧ t.store.data = s.store.data ∧ t.cipher.slots = [] ∧
      t.log.entries.getLast? = some (s.event 0x0E0B [Config.fenceCode .notice]) ∧ t.ports = s.ports ∧ t.dict = s.dict)

/-- A break of a link of this tile, the first in the ring: its LINK_STATE bit, event 0x0E0D, a link fault, the notice to the other tiles and the messages sent
again by the other arc, which traffic takes from then on. A notice of another link's break sets its bit; the restoring of a link clears it, with event 0x0E0E at its own ring stops. -/
def Claims.LinksWatched : Prop :=
  ∀ s : State, 1 < s.n → s.t < s.n → s.brokenLinks = [] →
    (∀ side : Fin 2, s.dom 1 = true → bit s.repair.links (s.linkAt side) = false → Completes (.linkTimeout side) s fun t =>
      t.repair = { s.repair with links := setBit s.repair.links (s.linkAt side) true, cut := setBit s.repair.cut (s.linkAt side) true } ∧ s.event 0x0E0D [w16 (s.linkAt side)] ∈ t.log.entries ∧
      Out.ring (.linkNotice (s.linkAt side)) ∈ t.out ∧ Out.ring (.resend side) ∈ t.out ∧ OnlyChanges [.repair, .ctr, .log, .maint, .out] s t) ∧
    (∀ k : TileNo, k.val < s.n → bit s.repair.links k.val = false → Completes (.linkNotice k) s fun t =>
      t.repair = { s.repair with links := setBit s.repair.links k.val true, cut := setBit s.repair.cut k.val true } ∧ OnlyChanges [.repair] s t) ∧
    (∀ k : TileNo, s.n ≤ k.val → Completes (.linkNotice k) s fun t => t = s)

/-- A link restored while the ring holds no split clears its bit; in a split it makes the anchor declare the heal for two ticks later. -/
def Claims.LinkRestored : Prop :=
  ∀ (s : State) (k : TileNo), bit s.repair.links k.val = true → s.dom 1 = true →
    (s.repair.split = none → Completes (.linkRestore k) s fun t =>
      t.repair = { s.repair with links := setBit s.repair.links k.val false } ∧
      (if k.val = s.linkAt 0 ∨ k.val = s.linkAt 1 then LogsOne s t 0x0E0E [w16 k] else t.log = s.log) ∧ OnlyChanges [.repair, .log, .maint, .out] s t) ∧
    (s.repair.split.isSome = true → s.repair.healAt = none → s.repair.anchor = s.t →
      (let z := { s with repair := { s.repair with links := setBit s.repair.links k.val false } }; z.brokenLinks.length ≤ 1) →
      Completes (.linkRestore k) s fun t =>
        t.repair.healAt = some (BitVec.ofNat 64 (s.frame + 2)) ∧ Out.ring (.heal (BitVec.ofNat 64 (s.frame + 2))) ∈ t.out ∧
        t.repair.split = s.repair.split ∧ OnlyChanges [.repair, .log, .maint, .out] s t)

/-- The split tick of an arc, on a tile with nothing under way at its home or its ports: the split stands from its declared tick on, with the arc that the
links show and event 0x0E0F; the Seam part is read-only with event 0x0905. Before the tick nothing changes. -/
def Claims.SplitApplied : Prop :=
  ∀ (s : State) (d : BitVec 64), s.repair.splitAt = some d → s.dom 1 = true →
    (s.frame < d.toNat → Completes .splitApply s fun t => t = s) ∧
    (d.toNat ≤ s.frame → s.map.seam ≠ 0 → s.seam.writes = [] → s.seam.job = none → (∀ p ∈ s.sched.parts, p.origin ≠ .pickleBack) → s.ha.txns = [] → s.ports = [] → s.seam.resync.length ≤ 4096 → Completes .splitApply s fun t =>
      t.repair.split = some d ∧ t.repair.splitAt = none ∧ t.repair.arc = s.arcOf s.t ∧ t.seam = { s.seam with readOnly := true } ∧
      t.ha.classify = true ∧ t.ha.holdFrom = some s.anvil.frameNo ∧ t.ha.filter = s.ha.filter ∧
      t.log = (s.log.push (s.event 0x0E0F (wordsOf 2 d.toNat ++ [(s.arcOf s.t).setWidth 16]))).push (s.event 0x0905 []) ∧
      t.sched.parts = s.sched.parts ∧ OnlyChanges [.repair, .seam, .sched, .ha, .log, .maint, .out] s t)

/-- The heal tick, the one declared or the one that this tile learnt of, on a tile with no line in doubt. In the anchor's arc the split is over, with event 0x0E10; the
Seam part takes writes again and resynchronises the rows that this tile and the others list; the anchor sends its CONFIG_GEN and digest. In the other arc a tile
whose digest differs takes the package-wide group within 4 frames, and lets no request leave meanwhile. -/
def Claims.HealApplied : Prop :=
  ∀ (s : State) (h : BitVec 64) (gen digest : BitVec 32) (group : List (Nat × Word)) (differs : Bool) (e : HealEnv), e.fostered = false →
    s.repair.healAt = some h →
    s.repair.split.isSome = true → s.dom 1 = true →
    let f := e.at_.getD h
    (s.frame < f.toNat → Completes (.healApply gen digest group differs e) s fun t => t = s) ∧
    (f.toNat ≤ s.frame → bit s.repair.arc s.repair.anchor = true → s.ha.filter = [] → s.ha.work = [] →
      Completes (.healApply gen digest group differs e) s fun t =>
        t.repair = { s.repair with healAt := none, split := none, arc := 0xFF, leader := false } ∧
        t.seam = { s.seam with readOnly := false, resyncing := s.map.seam != 0, rowsDone := [], listed := e.rows.foldl insNat s.seam.resync,
                               listedAll := e.whole || s.seam.resyncAll } ∧ t.ha.healing = true ∧ t.anvil = s.anvil ∧ t.dict = s.dict ∧
        (s.repair.anchor = s.t → Out.ring (.config s.anvil.gen (s.digest false)) ∈ t.out) ∧
        LogsOne s t 0x0E10 (wordsOf 2 f.toNat) ∧ OnlyChanges [.repair, .seam, .ha, .log, .maint, .out] s t) ∧
    (f.toNat ≤ s.frame → bit s.repair.arc s.repair.anchor = false → s.ha.filter = [] → s.ha.work = [] → s.digest false ≠ digest →
      Completes (.healApply gen digest group differs e) s fun t =>
        t.repair.split = none ∧ t.repair.copying = some ⟨gen, digest, group, t.anvil.frameNo + 4, differs⟩ ∧ t.checkHeld = true ∧ t.dict = s.dict ∧
        t.ports = s.ports)

/-! ### The maintenance bus -/

/-- A READ of one word that TILE 0 or the ring brings here is answered with STATUS 0 and its word, low byte first: to the controller, or over the ring under the number
that the request carries; TILE other than 0 at a tile that neither has the anchor duties nor leads its arc in a split is answered NOT_ANCHOR; a COUNT of 0 or a range beyond subindex 0xFF is discarded with FORMAT. -/
def Claims.MaintenanceReads : Prop :=
  ∀ (s : State) (tile : BitVec 4) (idx : Word) (sub count : Byte), s.addressed = true →
    (tile = 0 → count = 1 → Completes (.maintRead tile idx sub count none) s fun t =>
      (∃ data : List Byte, t.maint.reply = some (some (replyBytes 0 data)) ∧ data = (s.readAccess .bus idx.toNat sub.toNat 1).2.flatMap wordBytes) ∧
      t.dict = s.dict ∧ t.out = (s.readAccess .bus idx.toNat sub.toNat 1).1.out) ∧
    (∀ no, count = 1 → Completes (.maintRead tile idx sub count (some no)) s fun t =>
      t.out = (s.readAccess .bus idx.toNat sub.toNat 1).1.out ++
        [.ring (.onwardReply no (replyBytes 0 ((s.readAccess .bus idx.toNat sub.toNat 1).2.flatMap wordBytes)))] ∧ t.dict = s.dict) ∧
    (tile ≠ 0 → s.repair.anchor ≠ s.t → s.repair.split = none ∨ s.repair.leader = false → 1 ≤ count.toNat → count.toNat ≤ 64 → sub.toNat + count.toNat ≤ 256 →
      Completes (.maintRead tile idx sub count none) s fun t =>
        t.maint = { s.maint with reply := some (some (replyBytes 3 [])) } ∧ OnlyChanges [.maint] s t) ∧
    (count = 0 ∨ 64 < count.toNat ∨ 256 < sub.toNat + count.toNat → Completes (.maintRead tile idx sub count none) s fun t =>
      t.maint.reply = some (some (replyBytes 2 [])) ∧ t.maint.frameErrors = satAdd16 s.maint.frameErrors 1 ∧ OnlyChanges [.maint, .log, .out] s t)

/-- A WRITE executes here as a write of its words on the bus path and is answered with its STATUS: to the controller, or over the ring under the number that the request
carries; for a tile of the view other than the anchor's own it is sent onward over the ring under the next number, its reply awaited. -/
def Claims.MaintenanceWrites : Prop :=
  ∀ (s : State) (tile : BitVec 4) (idx : Word) (sub : Byte) (ws : List Word), s.addressed = true → 1 ≤ ws.length → ws.length ≤ 64 →
    sub.toNat + ws.length ≤ 256 →
    (tile = 0 → Completes (.maintWrite tile idx sub ws none) s fun t =>
      t.maint.reply = some (some (replyBytes (s.writeWith .bus false idx.toNat sub.toNat ws).2 [])) ∧
      t.dict = (s.writeWith .bus false idx.toNat sub.toNat ws).1.dict ∧ t.log = (s.writeWith .bus false idx.toNat sub.toNat ws).1.log) ∧
    (∀ no, Completes (.maintWrite tile idx sub ws (some no)) s fun t =>
      t.out = (s.writeWith .bus true idx.toNat sub.toNat ws).1.out ++ [.ring (.onwardReply no (replyBytes (s.writeWith .bus true idx.toNat sub.toNat ws).2 []))] ∧
      t.dict = (s.writeWith .bus true idx.toNat sub.toNat ws).1.dict ∧ t.log = (s.writeWith .bus true idx.toNat sub.toNat ws).1.log) ∧
    (∀ u, tile.toNat = u + 1 → s.repair.anchor = s.t → u < s.n → u ≠ s.t → bit s.repair.view u = true → s.across u = false →
      Completes (.maintWrite tile idx sub ws none) s fun t =>
        t.out = s.out ++ [.ring (.onward u (s.maint.asked + 1) (requestBytes tile.toNat 2 idx sub (BitVec.ofNat 8 ws.length) ws))] ∧
        t.maint = { s.maint with asked := s.maint.asked + 1, reply := some none } ∧ OnlyChanges [.maint, .out] s t)

/-- A private read takes the reply that is ready; while it is awaited the read has no effect, and with none waiting the answer is STATUS 0x0F. A reply that
comes over the ring under the number asked for last is then ready; any other goes nowhere. -/
def Claims.RepliesFetched : Prop :=
  ∀ s : State,
    (∀ bs, s.addressed = true → s.maint.reply = some (some bs) → Completes .maintReplyFetch s fun t =>
      t.out = s.out ++ [.reply bs] ∧ t.maint = { s.maint with reply := none } ∧ OnlyChanges [.maint, .out] s t) ∧
    (s.addressed = true → s.maint.reply = some none → Completes .maintReplyFetch s fun t => t = s) ∧
    (s.addressed = true → s.maint.reply = none → Completes .maintReplyFetch s fun t =>
      t.out = s.out ++ [.reply [0x0F, crc8 [0x0F]]] ∧ OnlyChanges [.out] s t) ∧
    (∀ bs, s.maint.reply = some none → Completes (.onwardReply ⟨s.maint.asked, bs⟩) s fun t =>
      t.maint = { s.maint with reply := some (some bs) } ∧ OnlyChanges [.maint] s t) ∧
    (∀ m : OnwardReply, s.maint.reply ≠ some none ∨ m.no ≠ s.maint.asked → Completes (.onwardReply m) s fun t => t = s)

/-- A private write shorter than 6 bytes is discarded with FORMAT, whatever its CRC; one whose last byte is not the CRC of the others with CRC_ERROR, whatever
else is wrong; one with its CRC right and an OP other than READ and WRITE with FORMAT. Each counts in FRAME_ERRORS. -/
def Claims.RequestsDiscarded : Prop :=
  ∀ (s : State) (bs : List Byte), s.addressed = true →
    let discarded := fun (status : Byte) (t : State) =>
      t.maint.reply = some (some [status, crc8 [status]]) ∧ t.maint.frameErrors = satAdd16 s.maint.frameErrors 1 ∧ OnlyChanges [.maint, .log, .out] s t
    (bs.length < 6 → Completes (.discardedRequest bs) s (discarded 2)) ∧
    (6 ≤ bs.length → bs.getLast? ≠ some (crc8 bs.dropLast) → Completes (.discardedRequest bs) s (discarded 1)) ∧
    (6 ≤ bs.length → bs.getLast? = some (crc8 bs.dropLast) → (∀ b, bs.head? = some b → b.toNat % 16 ≠ 1 ∧ b.toNat % 16 ≠ 2) →
      Completes (.discardedRequest bs) s (discarded 2))

/-- The addresses of the target: ENTDAA gives one to a target without, SETNEWDA another, RSTDAA takes it away. -/
def Claims.BusAddresses : Prop :=
  ∀ (s : State) (a : BitVec 7), s.busOn = true →
    (s.maint.dyn = none → Completes (.entdaa a) s fun t => t.maint = { s.maint with dyn := some a } ∧ OnlyChanges [.maint] s t) ∧
    (∀ b, s.maint.dyn = some b → Completes (.entdaa a) s (fun t => t = s) ∧
      Completes (.setnewda a) s fun t => t.maint = { s.maint with dyn := some a } ∧ OnlyChanges [.maint] s t) ∧
    (Completes .rstdaa s fun t => t.maint = { s.maint with dyn := none } ∧ OnlyChanges [.maint] s t)

/-- The other bus commands: in-band interrupts are allowed and forbidden, an HDR period begins and ends, and what the target tells of itself. The maximum write
and read lengths are 134 bytes, and the last byte of the provisional ID holds the tile number in its lowest 4 bits. -/
def Claims.BusCommands : Prop :=
  ∀ s : State, s.addressed = true →
    let sends := fun (bs : List Byte) (t : State) => t.out = s.out ++ [.i3c bs] ∧ OnlyChanges [.out] s t
    (Completes .enec s fun t => t.maint = { s.maint with ibiOn := true } ∧ OnlyChanges [.maint] s t) ∧
    (Completes .disec s fun t => t.maint = { s.maint with ibiOn := false } ∧ OnlyChanges [.maint] s t) ∧
    (Completes .hdrEntry s fun t => t.maint = { s.maint with hdr := true } ∧ t.busOn = false ∧ OnlyChanges [.maint] s t) ∧
    (Completes .hdrExitPattern s fun t => t.maint = { s.maint with hdr := false } ∧ t.busOn = true ∧ OnlyChanges [.maint] s t) ∧
    (∃ bs : List Byte, bs.length = 6 ∧ bs.getLast?.map (fun b => b.toNat % 16) = some (s.t % 16) ∧ Completes .getpid s (sends bs)) ∧
    (∃ b, Completes .getbcr s (sends [b])) ∧ (∃ b, Completes .getdcr s (sends [b])) ∧ (∃ bs, Completes .getstatus s (sends bs)) ∧
    Completes .getmwl s (sends [0, 134]) ∧ Completes .getmrl s (sends [0, 134])

/-- The controller accepts an in-band interrupt: with no later event none is pending, and else one for the newest of them follows. -/
def Claims.InterruptsAccepted : Prop :=
  ∀ (s : State) (c : Nat), s.busOn = true → s.maint.ibiPending = some c →
    (s.maint.ibiNewest = none → Completes .ibiAck s fun t => t.maint = { s.maint with ibiPending := none } ∧ OnlyChanges [.maint] s t) ∧
    (∀ d, s.maint.ibiNewest = some d → s.maint.ibiOn = true → Completes .ibiAck s fun t =>
      t.maint = { s.maint with ibiPending := some d, ibiNewest := none } ∧ t.out = s.out ++ [.ibi (ibiPayload d s.t)] ∧ OnlyChanges [.maint, .out] s t)

/-! ### Words, memory and the address map -/

/-- Every request word, of any opcode and with every field at every value, reads back from its 96 bits and 4 sideband bits; and every 96 bits whose ignored
bits are 0 are those of the word they spell. -/
def Claims.RequestWordsRoundTrip : Prop :=
  (∀ (w : ReqWord) (op : Op), ReqWord.ofBits (w.bits (opBits op)) w.sideband w.desc = w ∧ opOf (opField (w.bits (opBits op))) = some op) ∧
  (∀ (b : BitVec 96) (side : BitVec 4) (d : Option CDesc), b.extractLsb' 0 16 = 0 →
    (ReqWord.ofBits b side d).bits (opField b) = b ∧ (ReqWord.ofBits b side d).sideband = side)

/-- Every cipher descriptor reads back from its 304 bits, and every 304 bits are those of the descriptor they spell; the same of write lines and their sidebands. -/
def Claims.DescriptorsRoundTrip : Prop :=
  (∀ d : CDesc, CDesc.ofBits d.bits = d) ∧ (∀ b : BitVec 304, (CDesc.ofBits b).bits = b) ∧
  (∀ l : WLine, WLine.ofBits l.sideband l.data = l) ∧ (∀ (b : BitVec 4) (d : Line), (WLine.ofBits b d).sideband = b ∧ (WLine.ofBits b d).data = d)

/-- A line written to the stack reads back with its poison, every byte and every line elsewhere reads as before, and a canonical store stays canonical. -/
def Claims.StackReadsBack : Prop :=
  ∀ (m : Store) (l : Nat) (d : Line) (poison : Bool),
    (m.write l d poison).line l = d ∧ (m.write l d poison).isPoison l = poison ∧
    (∀ a, a / 64 ≠ l / 64 → (m.write l d poison).byte a = m.byte a ∧ (m.write l d poison).line a = m.line a ∧
      (m.write l d poison).isPoison a = m.isPoison a) ∧
    (m.wf = true → (m.write l d poison).wf = true)

/-- The address map is one to one: every package address below MAP_END lies in one tile of the package, inside that tile's stack, at a tile-local address from
which the package address is found again. -/
def Claims.MapOneToOne : Prop :=
  ∀ (m : MapCfg) (p : Nat), 1 ≤ m.n → m.seam ≤ m.cap → m.cap % 4096 = 0 → p < m.mapEnd →
    (m.home p).tile < m.n ∧ (m.home p).loc < m.cap ∧ m.package (m.home p).tile (m.home p).loc = some p ∧
    (∀ q, (m.home p).parity = some q → q < m.n ∧ q ≠ (m.home p).tile)

/-- Inside a tile the map is one to one as well: in orders 1 and 2 the place of a line gives the line back. -/
def Claims.PlacesOneToOne : Prop :=
  ∀ (m : MapCfg) (l : Nat), m.order = 1 ∨ m.order = 2 → l < 2 ^ 36 → l % 64 = 0 →
    m.unplace (m.place l) = l ∧ (m.place l).pc < 64 ∧ (m.place l).col < 16 ∧ (m.place l).row < 2 ^ m.r

/-! ### The statements

Each gathers the claims above that belong together. -/

/-- A step runs the command at the front of the queue. -/
def Obligations.StepTakesFront : Prop :=
  Claims.StepTakesFront

/-- An idle step lets one cycle of the frame pass (the model's choice, log entry 1). -/
def Obligations.IdleStep : Prop :=
  Claims.IdleStep

/-- What every step keeps: identity, queue order, record of outputs, free values. -/
def Obligations.StepKeeps : Prop :=
  Claims.StepKeeps

/-- Every step keeps the stack and the store in canonical form. -/
def Obligations.StepKeepsMemory : Prop :=
  Claims.StepKeepsMemory

/-- The machine right after reset. -/
def Obligations.ResetState : Prop :=
  Claims.ResetState

/-- No command stops but a caching agent that breaks its protocol; every other completes. -/
def Obligations.OnlyAgentsStop : Prop :=
  Claims.OnlyAgentsStop ∧ Claims.OthersComplete

/-- Plain RW words: staged outside service, applied in service, ignored out of range, refused while frozen. It says that exec answers a next state,
and what that state holds, of watermarksWrite, budgetWrite, outCapWrite, windowWrite, tenantMapWrite, shaperWrite, latModeWrite, schedWrite,
pickleWrite, rebuildLimitWrite, haWrite. -/
def Obligations.PlainWrites : Prop :=
  Claims.PlainWriteStages ∧ Claims.PlainWriteApplies ∧ Claims.PlainWriteOutOfRange ∧ Claims.FrozenWriteRefused

/-- Package-wide words: staged at the anchor and copied to every tile. It says that exec answers a next state, and what that state holds, of haWrite,
packageWideWrite. -/
def Obligations.PackageWideWrites : Prop :=
  Claims.PackageWideWriteAtAnchor ∧ Claims.StagedCopyHeld

/-- Guarded words: the unlock latch, OVERRIDE and the coefficient sets. It says that exec answers a next state, and what that state holds, of
overrideWrite, coeffSetWrite. -/
def Obligations.GuardedWrites : Prop :=
  Claims.GuardedWriteRefused ∧ Claims.OverrideWriteHeld ∧ Claims.CoefficientWrite

/-- The decode words follow DECODE_ADDR. It says that exec answers a next state, and what that state holds, of decodeAddrWrite. -/
def Obligations.DecodeAddrFollows : Prop :=
  Claims.DecodeAddrFollows

/-- Objects whose writes act at once: CREDITS, the mailbox, the log and PHASE. It says that exec answers a next state, and what that state holds, of
creditsWrite, mboxPop, mboxClear, phaseWrite, logPop, logClear. -/
def Obligations.ImmediateWrites : Prop :=
  Claims.CreditsWriteActs ∧ Claims.MailboxCommands ∧ Claims.LogCommands ∧ Claims.PhaseWrites

/-- UNLOCK arms and disarms the latch, and invalid keys lock the path. It says that exec answers a next state, and what that state holds, of
unlockWrite, unlockLatchExpire, pathLockExpire. -/
def Obligations.UnlockLatchAndLock : Prop :=
  Claims.UnlockWrites ∧ Claims.UnlockOnLockedPath ∧ Claims.PathTimesOut

/-- Reads of the dictionary, of latched values, and window accesses that are not served. It says that exec answers a next state, and what that state
holds, of windowBadAccess, latchRead. -/
def Obligations.ReadsOfObjects : Prop :=
  Claims.ReadGivesWord ∧ Claims.LatchKeepsWholeValue ∧ Claims.BadWindowAccess

/-- Snapshots, and words restored from another tile. It says that exec answers a next state, and what that state holds, of snapshotTile,
snapshotPackage, packageSnapshotTake, replicaRestoreDone. -/
def Obligations.SnapshotsAndReplicas : Prop :=
  Claims.SnapshotCommands ∧ Claims.ReplicaRestored

/-- Register writes of one word and of two. It says that exec answers a next state, and what that state holds, of registerWrite. -/
def Obligations.RegisterWrites : Prop :=
  Claims.RegisterWriteStages ∧ Claims.TwoWordWriteAssembles ∧ Claims.OtherObjectDiscardsAssembly

/-- Power-on, loss of power, and the reset pin. It says that exec answers a next state, and what that state holds, of powerOn, resetRelease,
resetAssert, pwrfailRise, powerLoss. -/
def Obligations.PowerAndReset : Prop :=
  Claims.PowerOnState ∧ Claims.PowerLossState ∧ Claims.ResetPulse ∧ Claims.ReleaseBeginsStart

/-- A start whose steps find nothing wrong ends in service. It says that exec answers a next state, and what that state holds, of start. -/
def Obligations.StartReachesService : Prop :=
  Claims.StartReachesService

/-- Failed starts, their retries and their limit; restart and shutdown. It says that exec answers a next state, and what that state holds, of
pwrfailFall, start, startRetry, startTimeout, startCmdRestart, startCmdShutdown. -/
def Obligations.FailedStartsAndShutdown : Prop :=
  Claims.StartFailsAtReferences ∧ Claims.RetryAndLimit ∧ Claims.RestartAndShutdown

/-- The hourly tally and the repair map in the store. It says that exec answers a next state, and what that state holds, of tallyHourly,
repairMapWrite. -/
def Obligations.TallyAndRepairMap : Prop :=
  Claims.HourlyTally ∧ Claims.RepairMapWritten

/-- Writing an image into the store. It says that exec answers a next state, and what that state holds, of hmOpen, hmEraseDone, hmPageProgram,
hmClose, hmAbandon, pageProgramDone. -/
def Obligations.ImageWriting : Prop :=
  Claims.ImageOpens ∧ Claims.ImageErased ∧ Claims.ImagePageProgrammed ∧ Claims.ImageCloses

/-- Key words and slot loads. It says that exec answers a next state, and what that state holds, of slotLoadKind1, slotLoadKind2, slotLoadKind3,
keyWrite, keyBufferTimeout. -/
def Obligations.KeyLoads : Prop :=
  Claims.KeyWordBuffered ∧ Claims.KeyBufferExpires ∧ Claims.SlotLoadPends ∧ Claims.SlotLoadRefused

/-- Slot erases and the end of a load. It says that exec answers a next state, and what that state holds, of slotErase, slotCmdApply, kcvDone,
eraseAll. -/
def Obligations.KeySlotsApply : Prop :=
  Claims.SlotErases ∧ Claims.SlotLoadCompletes

/-- REPAIR_CMD: what each code makes due. It says that exec answers a next state, and what that state holds, of repairLane, repairRetireBank,
repairRetirePc, repairRetireStack, repairFenceTile, repairRestartTile, repairFosterSplit, repairMapClear. -/
def Obligations.RepairCommands : Prop :=
  Claims.RepairCommandsAwaitTick ∧ Claims.RepairCommandsOfAnchor ∧ Claims.FencedTileRestarts

/-- Arming a commit. It says that exec answers a next state, and what that state holds, of commitArmTile, commitArmPackage. -/
def Obligations.CommitArming : Prop :=
  Claims.CommitArms ∧ Claims.CommitRefusedAtArming

/-- PREPARE, the votes, the decision, GO and ABORT. It says that exec answers a next state, and what that state holds, of commitPrepare, commitVote,
commitDecide, commitGo, commitAbort. -/
def Obligations.CommitAgreement : Prop :=
  Claims.PrepareFreezes ∧ Claims.AnchorDecides ∧ Claims.GoAndAbort

/-- The tick that applies a commit, and the holding of a tile. It says that exec answers a next state, and what that state holds, of commitApply,
mapInitDone, commitHoldTimeout. -/
def Obligations.CommitApplication : Prop :=
  Claims.TileCommitApplies ∧ Claims.CommitAppliesStagedWord ∧ Claims.CommitHoldFences ∧ Claims.MapInitEnds

/-- Power domains. It says that exec answers a next state, and what that state holds, of pdEnableWrite, domainPowered. -/
def Obligations.PowerDomains : Prop :=
  Claims.PowerWriteAwaitsTick ∧ Claims.DomainBecomesUsable

/-- The frame tick and the slots. It says that exec answers a next state, and what that state holds, of frameTick, slotStart. -/
def Obligations.FramesAndSlots : Prop :=
  Claims.FrameTick ∧ Claims.FrameTickSuppressed ∧ Claims.SlotStart

/-- Refresh debt and the three kinds of refresh. It says that exec answers a next state, and what that state holds, of refreshDebtAccrue,
forcedRefresh, perBankRefresh, allBankRefresh, accessIssue. -/
def Obligations.RefreshCommands : Prop :=
  Claims.DebtAccrues ∧ Claims.ForcedRefreshIssues ∧ Claims.PerBankRefreshIssues ∧ Claims.AllBankRefreshIssues ∧ Claims.RefreshGoesFirst

/-- Lockstep, heartbeats and clock faults. It says that exec answers a next state, and what that state holds, of lockstepMismatch, heartbeatReceive,
heartbeatLoss. -/
def Obligations.HeartbeatsAndLockstep : Prop :=
  Claims.LockstepMismatchFences ∧ Claims.Heartbeats ∧ Claims.ClockFault

/-- Port controls and the end of a flush. It says that exec answers a next state, and what that state holds, of portEnable, portDisable, portFlush,
flushComplete, portPullSet, portXoffPinSet. -/
def Obligations.PortControl : Prop :=
  Claims.PortControls ∧ Claims.BadXoffPin ∧ Claims.FlushEnds

/-- What arrives at a port. It says that exec answers a next state, and what that state holds, of read, writePosted, writeAck, rdShared, rdUnique,
upgrade, wrBack, writeLine, requestLeaveQueue, unlistedOpcode. -/
def Obligations.PortArrivals : Prop :=
  Claims.RequestAccepted ∧ Claims.MalformedRequestAnswered ∧ Claims.OverrunFlushes ∧ Claims.WriteLineTaken

/-- Requests and lines of another epoch are dropped. -/
def Obligations.OtherEpochDropped : Prop :=
  Claims.OtherEpochDropped

/-- Requests that leave their queue, pass, are refused, or reset their master. It says that exec answers a next state, and what that state holds, of
masterReset, requestLeaveQueue. -/
def Obligations.QueueDepartures : Prop :=
  Claims.RequestLeaves ∧ Claims.RefusedRequestAnswered ∧ Claims.MasterResetDone

/-- The order of the access check. -/
def Obligations.AccessCheckOrder : Prop :=
  Claims.AccessCheckOrder

/-- Responses: beats that move, answers that return, posted writes that complete. It says that exec answers a next state, and what that state holds,
of responsePush, pullStrobe, responseReturn, completionNotice. -/
def Obligations.ResponseFlow : Prop :=
  Claims.BeatsMove ∧ Claims.ResponsesReturn ∧ Claims.PostedWriteCompletes

/-- Budget windows, the queues of a home and their release. It says that exec answers a next state, and what that state holds, of budgetWindowStart,
homeRequestArrive, requestRelease, latencySample. -/
def Obligations.BudgetsAndShaping : Prop :=
  Claims.WindowBegins ∧ Claims.HomeRequestQueued ∧ Claims.RequestReleased ∧ Claims.LatencySampled

/-- Promotion by age, and panic. It says that exec answers a next state, and what that state holds, of agePromotion, panicNotice. -/
def Obligations.AgeingAndPanic : Prop :=
  Claims.AgePromotes ∧ Claims.PanicNotices

/-- Accesses of the stack: the command, the read data, the write. It says that exec answers a next state, and what that state holds, of accessIssue,
readDataReturn, readDataAbsent, writeDataDone. -/
def Obligations.StackAccesses : Prop :=
  Claims.AccessIssues ∧ Claims.ReadDataReturns ∧ Claims.ReadDataAbsent ∧ Claims.WriteDataDone

/-- A line written to the stack reads back, and no other changes. -/
def Obligations.StackReadsBack : Prop :=
  Claims.StackReadsBack

/-- Pickle: the debt of a pass and its end. It says that exec answers a next state, and what that state holds, of pickleDebtStep, picklePassEnd. -/
def Obligations.PicklePasses : Prop :=
  Claims.PickleDebtSteps ∧ Claims.PicklePassEnds

/-- Seam updates, the parity line and the acknowledgement. It says that exec answers a next state, and what that state holds, of readDataReturn,
writeDataDone, seamUpdate, seamAck, seamReconstructDone. -/
def Obligations.SeamWrites : Prop :=
  Claims.SeamUpdated ∧ Claims.ParityLineFormed ∧ Claims.ParityLineWritten ∧ Claims.SeamAcknowledged

/-- Seam reconstruction, rebuild and resync. It says that exec answers a next state, and what that state holds, of seamReconstructDone,
rebuildRowSwitch, rebuildDone, resyncDone. -/
def Obligations.SeamRepair : Prop :=
  Claims.SeamReconstructed ∧ Claims.RowLineMade ∧ Claims.RowSwitches ∧ Claims.RebuildEnds ∧ Claims.ResyncEnds

/-- Coherent requests at a quiet home, and at a busy line. It says that exec answers a next state, and what that state holds, of homeRequestArrive. -/
def Obligations.HomeRequests : Prop :=
  Claims.HomeOrders ∧ Claims.HomeRequestHeld ∧ Claims.BusyLineRetried

/-- Snoops and their answers. It says that exec answers a next state, and what that state holds, of snoopPresent, rplGone, rplKept, rplFwd,
respZeroAnswer. -/
def Obligations.SnoopsAndAnswers : Prop :=
  Claims.SnoopPresented ∧ Claims.SnoopAnswers ∧ Claims.LastAnswerCompletes ∧ Claims.ZeroAnswerLosesOwner

/-- The home's reads and writes of the stack. It says that exec answers a next state, and what that state holds, of homeStackReadDone,
homeWritebackDone. -/
def Obligations.HomeStackAccesses : Prop :=
  Claims.HomeReadReturns ∧ Claims.HomeWriteDone

/-- Snoop limits, reservations, dead agents and lost homes. It says that exec answers a next state, and what that state holds, of snoopTimeout,
reservationExpire, deadAgentNotice, reclaimWalkDone, lostHomeRecallDone. -/
def Obligations.DeadAgentsAndReservations : Prop :=
  Claims.SnoopLimitKills ∧ Claims.ReservationEnds ∧ Claims.DeadAgentNoted ∧ Claims.ReclaimEnds ∧ Claims.LostHomeRecalled

/-- The filter under a split and its heal. It says that exec answers a next state, and what that state holds, of splitClassifyDone, holdExpire,
healResolveDone, lostLineNotice. -/
def Obligations.SplitsAtTheHome : Prop :=
  Claims.SplitClassified ∧ Claims.HoldExpires ∧ Claims.HealResolved ∧ Claims.LostLineNoted

/-- A caching agent: its own actions and the responses it takes. It says that exec answers a next state, and what that state holds, of agentLoad,
agentStore, agentEviction, agentResponse. -/
def Obligations.AgentTables : Prop :=
  Claims.AgentActions ∧ Claims.AgentResponseTable

/-- A caching agent: the snoop table. It says that exec answers a next state, and what that state holds, of agentSnoop. -/
def Obligations.AgentSnoopTable : Prop :=
  Claims.AgentSnoopTable

/-- Cipher requests: admission, comparison of segments, stream timeout. It says that exec answers a next state, and what that state holds, of
cipherAdmit, segmentCompare, streamTimeout. -/
def Obligations.CipherRequests : Prop :=
  Claims.CipherAdmitted ∧ Claims.SegmentCompared ∧ Claims.StreamCloses

/-- Housekeeping: samples, rounds and the chain. It says that exec answers a next state, and what that state holds, of hkSample, hkRoundEnd,
chainRecordReceive, chainRecordTimeout. -/
def Obligations.HousekeepingRounds : Prop :=
  Claims.SampleKept ∧ Claims.RoundEnds ∧ Claims.ChainRecords

/-- Assay, Planish, Anneal and the loss of a clock's lock. It says that exec answers a next state, and what that state holds, of assayStepDone,
planishStepDone, pllLockLoss, annealDone. -/
def Obligations.CalibrationSteps : Prop :=
  Claims.AssayStepEnds ∧ Claims.PlanishStepEnds ∧ Claims.LockLossFences ∧ Claims.AnnealVerified

/-- Quench: the trip, the cooling second and the restart. It says that exec answers a next state, and what that state holds, of quenchTrip,
quenchRestart, quenchRestartDone, coolingCountStart. -/
def Obligations.QuenchCycle : Prop :=
  Claims.QuenchTrips ∧ Claims.CoolingSecond ∧ Claims.QuenchRestartEnds

/-- Recoveries, and the notices of retirements and fences. It says that exec answers a next state, and what that state holds, of recoveryClose,
retirementNotice, fenceNotice. -/
def Obligations.RecoveriesAndNotices : Prop :=
  Claims.RecoveryCloses ∧ Claims.RetirementAndFenceNotices

/-- Links of the ring, splits and heals. It says that exec answers a next state, and what that state holds, of linkTimeout, linkNotice, linkRestore,
splitApply, healApply. -/
def Obligations.LinksAndSplits : Prop :=
  Claims.LinksWatched ∧ Claims.LinkRestored ∧ Claims.SplitApplied ∧ Claims.HealApplied

/-- Requests of the maintenance bus and their replies. It says that exec answers a next state, and what that state holds, of maintRead, maintWrite,
maintReplyFetch, discardedRequest, onwardReply. -/
def Obligations.MaintenanceRequests : Prop :=
  Claims.MaintenanceReads ∧ Claims.MaintenanceWrites ∧ Claims.RepliesFetched ∧ Claims.RequestsDiscarded

/-- The maintenance bus: addresses, commands and interrupts. It says that exec answers a next state, and what that state holds, of entdaa, setnewda,
rstdaa, enec, disec, getpid, getbcr, getdcr, getstatus, getmwl, getmrl, hdrEntry, ibiAck, hdrExitPattern. -/
def Obligations.MaintenanceBusTarget : Prop :=
  Claims.BusAddresses ∧ Claims.BusCommands ∧ Claims.InterruptsAccepted

/-- Request words, cipher descriptors and write lines read back from their bits. -/
def Obligations.WordsRoundTrip : Prop :=
  Claims.RequestWordsRoundTrip ∧ Claims.DescriptorsRoundTrip

/-- The address map is one to one. -/
def Obligations.AddressMapOneToOne : Prop :=
  Claims.MapOneToOne ∧ Claims.PlacesOneToOne
end

