-- ==== Sys2Proof/Laws/State.lean ====
section
/-!
SUPPORT. The named operations of Ops, field by field: an operation leaves every field of State but its own as it was. One equation an operation that
branches says what it can touch; the lemmas of its fields follow from it.
-/
namespace Sys2Proof.Machine
open Sys2Proof

/-! `emit` touches out. -/
@[simp] theorem State.emit_pending (s : State) (o : Out) : (s.emit o).pending = s.pending := rfl
@[simp] theorem State.emit_freeCount (s : State) (o : Out) : (s.emit o).freeCount = s.freeCount := rfl
@[simp] theorem State.emit_ident (s : State) (o : Out) : (s.emit o).ident = s.ident := rfl
@[simp] theorem State.emit_pins (s : State) (o : Out) : (s.emit o).pins = s.pins := rfl
@[simp] theorem State.emit_clk (s : State) (o : Out) : (s.emit o).clk = s.clk := rfl
@[simp] theorem State.emit_dict (s : State) (o : Out) : (s.emit o).dict = s.dict := rfl
@[simp] theorem State.emit_ctr (s : State) (o : Out) : (s.emit o).ctr = s.ctr := rfl
@[simp] theorem State.emit_snap (s : State) (o : Out) : (s.emit o).snap = s.snap := rfl
@[simp] theorem State.emit_log (s : State) (o : Out) : (s.emit o).log = s.log := rfl
@[simp] theorem State.emit_win (s : State) (o : Out) : (s.emit o).win = s.win := rfl
@[simp] theorem State.emit_bus (s : State) (o : Out) : (s.emit o).bus = s.bus := rfl
@[simp] theorem State.emit_maint (s : State) (o : Out) : (s.emit o).maint = s.maint := rfl
@[simp] theorem State.emit_anvil (s : State) (o : Out) : (s.emit o).anvil = s.anvil := rfl
@[simp] theorem State.emit_commit (s : State) (o : Out) : (s.emit o).commit = s.commit := rfl
@[simp] theorem State.emit_pd (s : State) (o : Out) : (s.emit o).pd = s.pd := rfl
@[simp] theorem State.emit_ports (s : State) (o : Out) : (s.emit o).ports = s.ports := rfl
@[simp] theorem State.emit_budget (s : State) (o : Out) : (s.emit o).budget = s.budget := rfl
@[simp] theorem State.emit_queues (s : State) (o : Out) : (s.emit o).queues = s.queues := rfl
@[simp] theorem State.emit_sched (s : State) (o : Out) : (s.emit o).sched = s.sched := rfl
@[simp] theorem State.emit_pcs (s : State) (o : Out) : (s.emit o).pcs = s.pcs := rfl
@[simp] theorem State.emit_store (s : State) (o : Out) : (s.emit o).store = s.store := rfl
@[simp] theorem State.emit_seam (s : State) (o : Out) : (s.emit o).seam = s.seam := rfl
@[simp] theorem State.emit_ha (s : State) (o : Out) : (s.emit o).ha = s.ha := rfl
@[simp] theorem State.emit_snoops (s : State) (o : Out) : (s.emit o).snoops = s.snoops := rfl
@[simp] theorem State.emit_agents (s : State) (o : Out) : (s.emit o).agents = s.agents := rfl
@[simp] theorem State.emit_cipher (s : State) (o : Out) : (s.emit o).cipher = s.cipher := rfl
@[simp] theorem State.emit_phy (s : State) (o : Out) : (s.emit o).phy = s.phy := rfl
@[simp] theorem State.emit_hk (s : State) (o : Out) : (s.emit o).hk = s.hk := rfl
@[simp] theorem State.emit_quench (s : State) (o : Out) : (s.emit o).quench = s.quench := rfl
@[simp] theorem State.emit_repair (s : State) (o : Out) : (s.emit o).repair = s.repair := rfl
@[simp] theorem State.emit_boot (s : State) (o : Out) : (s.emit o).boot = s.boot := rfl
@[simp] theorem State.emit_nor (s : State) (o : Out) : (s.emit o).nor = s.nor := rfl

/-! `ring` touches out. -/
@[simp] theorem State.ring_pending (s : State) (m : RingMsg) : (s.ring m).pending = s.pending := rfl
@[simp] theorem State.ring_freeCount (s : State) (m : RingMsg) : (s.ring m).freeCount = s.freeCount := rfl
@[simp] theorem State.ring_ident (s : State) (m : RingMsg) : (s.ring m).ident = s.ident := rfl
@[simp] theorem State.ring_pins (s : State) (m : RingMsg) : (s.ring m).pins = s.pins := rfl
@[simp] theorem State.ring_clk (s : State) (m : RingMsg) : (s.ring m).clk = s.clk := rfl
@[simp] theorem State.ring_dict (s : State) (m : RingMsg) : (s.ring m).dict = s.dict := rfl
@[simp] theorem State.ring_ctr (s : State) (m : RingMsg) : (s.ring m).ctr = s.ctr := rfl
@[simp] theorem State.ring_snap (s : State) (m : RingMsg) : (s.ring m).snap = s.snap := rfl
@[simp] theorem State.ring_log (s : State) (m : RingMsg) : (s.ring m).log = s.log := rfl
@[simp] theorem State.ring_win (s : State) (m : RingMsg) : (s.ring m).win = s.win := rfl
@[simp] theorem State.ring_bus (s : State) (m : RingMsg) : (s.ring m).bus = s.bus := rfl
@[simp] theorem State.ring_maint (s : State) (m : RingMsg) : (s.ring m).maint = s.maint := rfl
@[simp] theorem State.ring_anvil (s : State) (m : RingMsg) : (s.ring m).anvil = s.anvil := rfl
@[simp] theorem State.ring_commit (s : State) (m : RingMsg) : (s.ring m).commit = s.commit := rfl
@[simp] theorem State.ring_pd (s : State) (m : RingMsg) : (s.ring m).pd = s.pd := rfl
@[simp] theorem State.ring_ports (s : State) (m : RingMsg) : (s.ring m).ports = s.ports := rfl
@[simp] theorem State.ring_budget (s : State) (m : RingMsg) : (s.ring m).budget = s.budget := rfl
@[simp] theorem State.ring_queues (s : State) (m : RingMsg) : (s.ring m).queues = s.queues := rfl
@[simp] theorem State.ring_sched (s : State) (m : RingMsg) : (s.ring m).sched = s.sched := rfl
@[simp] theorem State.ring_pcs (s : State) (m : RingMsg) : (s.ring m).pcs = s.pcs := rfl
@[simp] theorem State.ring_store (s : State) (m : RingMsg) : (s.ring m).store = s.store := rfl
@[simp] theorem State.ring_seam (s : State) (m : RingMsg) : (s.ring m).seam = s.seam := rfl
@[simp] theorem State.ring_ha (s : State) (m : RingMsg) : (s.ring m).ha = s.ha := rfl
@[simp] theorem State.ring_snoops (s : State) (m : RingMsg) : (s.ring m).snoops = s.snoops := rfl
@[simp] theorem State.ring_agents (s : State) (m : RingMsg) : (s.ring m).agents = s.agents := rfl
@[simp] theorem State.ring_cipher (s : State) (m : RingMsg) : (s.ring m).cipher = s.cipher := rfl
@[simp] theorem State.ring_phy (s : State) (m : RingMsg) : (s.ring m).phy = s.phy := rfl
@[simp] theorem State.ring_hk (s : State) (m : RingMsg) : (s.ring m).hk = s.hk := rfl
@[simp] theorem State.ring_quench (s : State) (m : RingMsg) : (s.ring m).quench = s.quench := rfl
@[simp] theorem State.ring_repair (s : State) (m : RingMsg) : (s.ring m).repair = s.repair := rfl
@[simp] theorem State.ring_boot (s : State) (m : RingMsg) : (s.ring m).boot = s.boot := rfl
@[simp] theorem State.ring_nor (s : State) (m : RingMsg) : (s.ring m).nor = s.nor := rfl

/-! `draw` touches freeCount. -/
@[simp] theorem State.draw_pending (s : State) : (s.draw).pending = s.pending := rfl
@[simp] theorem State.draw_out (s : State) : (s.draw).out = s.out := rfl
@[simp] theorem State.draw_ident (s : State) : (s.draw).ident = s.ident := rfl
@[simp] theorem State.draw_pins (s : State) : (s.draw).pins = s.pins := rfl
@[simp] theorem State.draw_clk (s : State) : (s.draw).clk = s.clk := rfl
@[simp] theorem State.draw_dict (s : State) : (s.draw).dict = s.dict := rfl
@[simp] theorem State.draw_ctr (s : State) : (s.draw).ctr = s.ctr := rfl
@[simp] theorem State.draw_snap (s : State) : (s.draw).snap = s.snap := rfl
@[simp] theorem State.draw_log (s : State) : (s.draw).log = s.log := rfl
@[simp] theorem State.draw_win (s : State) : (s.draw).win = s.win := rfl
@[simp] theorem State.draw_bus (s : State) : (s.draw).bus = s.bus := rfl
@[simp] theorem State.draw_maint (s : State) : (s.draw).maint = s.maint := rfl
@[simp] theorem State.draw_anvil (s : State) : (s.draw).anvil = s.anvil := rfl
@[simp] theorem State.draw_commit (s : State) : (s.draw).commit = s.commit := rfl
@[simp] theorem State.draw_pd (s : State) : (s.draw).pd = s.pd := rfl
@[simp] theorem State.draw_ports (s : State) : (s.draw).ports = s.ports := rfl
@[simp] theorem State.draw_budget (s : State) : (s.draw).budget = s.budget := rfl
@[simp] theorem State.draw_queues (s : State) : (s.draw).queues = s.queues := rfl
@[simp] theorem State.draw_sched (s : State) : (s.draw).sched = s.sched := rfl
@[simp] theorem State.draw_pcs (s : State) : (s.draw).pcs = s.pcs := rfl
@[simp] theorem State.draw_store (s : State) : (s.draw).store = s.store := rfl
@[simp] theorem State.draw_seam (s : State) : (s.draw).seam = s.seam := rfl
@[simp] theorem State.draw_ha (s : State) : (s.draw).ha = s.ha := rfl
@[simp] theorem State.draw_snoops (s : State) : (s.draw).snoops = s.snoops := rfl
@[simp] theorem State.draw_agents (s : State) : (s.draw).agents = s.agents := rfl
@[simp] theorem State.draw_cipher (s : State) : (s.draw).cipher = s.cipher := rfl
@[simp] theorem State.draw_phy (s : State) : (s.draw).phy = s.phy := rfl
@[simp] theorem State.draw_hk (s : State) : (s.draw).hk = s.hk := rfl
@[simp] theorem State.draw_quench (s : State) : (s.draw).quench = s.quench := rfl
@[simp] theorem State.draw_repair (s : State) : (s.draw).repair = s.repair := rfl
@[simp] theorem State.draw_boot (s : State) : (s.draw).boot = s.boot := rfl
@[simp] theorem State.draw_nor (s : State) : (s.draw).nor = s.nor := rfl

/-! `count` touches ctr. -/
@[simp] theorem State.count_pending (s : State) (i x b : Nat) : (s.count i x b).pending = s.pending := rfl
@[simp] theorem State.count_freeCount (s : State) (i x b : Nat) : (s.count i x b).freeCount = s.freeCount := rfl
@[simp] theorem State.count_out (s : State) (i x b : Nat) : (s.count i x b).out = s.out := rfl
@[simp] theorem State.count_ident (s : State) (i x b : Nat) : (s.count i x b).ident = s.ident := rfl
@[simp] theorem State.count_pins (s : State) (i x b : Nat) : (s.count i x b).pins = s.pins := rfl
@[simp] theorem State.count_clk (s : State) (i x b : Nat) : (s.count i x b).clk = s.clk := rfl
@[simp] theorem State.count_dict (s : State) (i x b : Nat) : (s.count i x b).dict = s.dict := rfl
@[simp] theorem State.count_snap (s : State) (i x b : Nat) : (s.count i x b).snap = s.snap := rfl
@[simp] theorem State.count_log (s : State) (i x b : Nat) : (s.count i x b).log = s.log := rfl
@[simp] theorem State.count_win (s : State) (i x b : Nat) : (s.count i x b).win = s.win := rfl
@[simp] theorem State.count_bus (s : State) (i x b : Nat) : (s.count i x b).bus = s.bus := rfl
@[simp] theorem State.count_maint (s : State) (i x b : Nat) : (s.count i x b).maint = s.maint := rfl
@[simp] theorem State.count_anvil (s : State) (i x b : Nat) : (s.count i x b).anvil = s.anvil := rfl
@[simp] theorem State.count_commit (s : State) (i x b : Nat) : (s.count i x b).commit = s.commit := rfl
@[simp] theorem State.count_pd (s : State) (i x b : Nat) : (s.count i x b).pd = s.pd := rfl
@[simp] theorem State.count_ports (s : State) (i x b : Nat) : (s.count i x b).ports = s.ports := rfl
@[simp] theorem State.count_budget (s : State) (i x b : Nat) : (s.count i x b).budget = s.budget := rfl
@[simp] theorem State.count_queues (s : State) (i x b : Nat) : (s.count i x b).queues = s.queues := rfl
@[simp] theorem State.count_sched (s : State) (i x b : Nat) : (s.count i x b).sched = s.sched := rfl
@[simp] theorem State.count_pcs (s : State) (i x b : Nat) : (s.count i x b).pcs = s.pcs := rfl
@[simp] theorem State.count_store (s : State) (i x b : Nat) : (s.count i x b).store = s.store := rfl
@[simp] theorem State.count_seam (s : State) (i x b : Nat) : (s.count i x b).seam = s.seam := rfl
@[simp] theorem State.count_ha (s : State) (i x b : Nat) : (s.count i x b).ha = s.ha := rfl
@[simp] theorem State.count_snoops (s : State) (i x b : Nat) : (s.count i x b).snoops = s.snoops := rfl
@[simp] theorem State.count_agents (s : State) (i x b : Nat) : (s.count i x b).agents = s.agents := rfl
@[simp] theorem State.count_cipher (s : State) (i x b : Nat) : (s.count i x b).cipher = s.cipher := rfl
@[simp] theorem State.count_phy (s : State) (i x b : Nat) : (s.count i x b).phy = s.phy := rfl
@[simp] theorem State.count_hk (s : State) (i x b : Nat) : (s.count i x b).hk = s.hk := rfl
@[simp] theorem State.count_quench (s : State) (i x b : Nat) : (s.count i x b).quench = s.quench := rfl
@[simp] theorem State.count_repair (s : State) (i x b : Nat) : (s.count i x b).repair = s.repair := rfl
@[simp] theorem State.count_boot (s : State) (i x b : Nat) : (s.count i x b).boot = s.boot := rfl
@[simp] theorem State.count_nor (s : State) (i x b : Nat) : (s.count i x b).nor = s.nor := rfl

/-! `setReg` touches dict. -/
@[simp] theorem State.setReg_pending (s : State) (i x : Nat) (v : Word) : (s.setReg i x v).pending = s.pending := rfl
@[simp] theorem State.setReg_freeCount (s : State) (i x : Nat) (v : Word) : (s.setReg i x v).freeCount = s.freeCount := rfl
@[simp] theorem State.setReg_out (s : State) (i x : Nat) (v : Word) : (s.setReg i x v).out = s.out := rfl
@[simp] theorem State.setReg_ident (s : State) (i x : Nat) (v : Word) : (s.setReg i x v).ident = s.ident := rfl
@[simp] theorem State.setReg_pins (s : State) (i x : Nat) (v : Word) : (s.setReg i x v).pins = s.pins := rfl
@[simp] theorem State.setReg_clk (s : State) (i x : Nat) (v : Word) : (s.setReg i x v).clk = s.clk := rfl
@[simp] theorem State.setReg_ctr (s : State) (i x : Nat) (v : Word) : (s.setReg i x v).ctr = s.ctr := rfl
@[simp] theorem State.setReg_snap (s : State) (i x : Nat) (v : Word) : (s.setReg i x v).snap = s.snap := rfl
@[simp] theorem State.setReg_log (s : State) (i x : Nat) (v : Word) : (s.setReg i x v).log = s.log := rfl
@[simp] theorem State.setReg_win (s : State) (i x : Nat) (v : Word) : (s.setReg i x v).win = s.win := rfl
@[simp] theorem State.setReg_bus (s : State) (i x : Nat) (v : Word) : (s.setReg i x v).bus = s.bus := rfl
@[simp] theorem State.setReg_maint (s : State) (i x : Nat) (v : Word) : (s.setReg i x v).maint = s.maint := rfl
@[simp] theorem State.setReg_anvil (s : State) (i x : Nat) (v : Word) : (s.setReg i x v).anvil = s.anvil := rfl
@[simp] theorem State.setReg_commit (s : State) (i x : Nat) (v : Word) : (s.setReg i x v).commit = s.commit := rfl
@[simp] theorem State.setReg_pd (s : State) (i x : Nat) (v : Word) : (s.setReg i x v).pd = s.pd := rfl
@[simp] theorem State.setReg_ports (s : State) (i x : Nat) (v : Word) : (s.setReg i x v).ports = s.ports := rfl
@[simp] theorem State.setReg_budget (s : State) (i x : Nat) (v : Word) : (s.setReg i x v).budget = s.budget := rfl
@[simp] theorem State.setReg_queues (s : State) (i x : Nat) (v : Word) : (s.setReg i x v).queues = s.queues := rfl
@[simp] theorem State.setReg_sched (s : State) (i x : Nat) (v : Word) : (s.setReg i x v).sched = s.sched := rfl
@[simp] theorem State.setReg_pcs (s : State) (i x : Nat) (v : Word) : (s.setReg i x v).pcs = s.pcs := rfl
@[simp] theorem State.setReg_store (s : State) (i x : Nat) (v : Word) : (s.setReg i x v).store = s.store := rfl
@[simp] theorem State.setReg_seam (s : State) (i x : Nat) (v : Word) : (s.setReg i x v).seam = s.seam := rfl
@[simp] theorem State.setReg_ha (s : State) (i x : Nat) (v : Word) : (s.setReg i x v).ha = s.ha := rfl
@[simp] theorem State.setReg_snoops (s : State) (i x : Nat) (v : Word) : (s.setReg i x v).snoops = s.snoops := rfl
@[simp] theorem State.setReg_agents (s : State) (i x : Nat) (v : Word) : (s.setReg i x v).agents = s.agents := rfl
@[simp] theorem State.setReg_cipher (s : State) (i x : Nat) (v : Word) : (s.setReg i x v).cipher = s.cipher := rfl
@[simp] theorem State.setReg_phy (s : State) (i x : Nat) (v : Word) : (s.setReg i x v).phy = s.phy := rfl
@[simp] theorem State.setReg_hk (s : State) (i x : Nat) (v : Word) : (s.setReg i x v).hk = s.hk := rfl
@[simp] theorem State.setReg_quench (s : State) (i x : Nat) (v : Word) : (s.setReg i x v).quench = s.quench := rfl
@[simp] theorem State.setReg_repair (s : State) (i x : Nat) (v : Word) : (s.setReg i x v).repair = s.repair := rfl
@[simp] theorem State.setReg_boot (s : State) (i x : Nat) (v : Word) : (s.setReg i x v).boot = s.boot := rfl
@[simp] theorem State.setReg_nor (s : State) (i x : Nat) (v : Word) : (s.setReg i x v).nor = s.nor := rfl

/-! `dropStaged` touches dict. -/
@[simp] theorem State.dropStaged_pending (s : State) (i x : Nat) : (s.dropStaged i x).pending = s.pending := rfl
@[simp] theorem State.dropStaged_freeCount (s : State) (i x : Nat) : (s.dropStaged i x).freeCount = s.freeCount := rfl
@[simp] theorem State.dropStaged_out (s : State) (i x : Nat) : (s.dropStaged i x).out = s.out := rfl
@[simp] theorem State.dropStaged_ident (s : State) (i x : Nat) : (s.dropStaged i x).ident = s.ident := rfl
@[simp] theorem State.dropStaged_pins (s : State) (i x : Nat) : (s.dropStaged i x).pins = s.pins := rfl
@[simp] theorem State.dropStaged_clk (s : State) (i x : Nat) : (s.dropStaged i x).clk = s.clk := rfl
@[simp] theorem State.dropStaged_ctr (s : State) (i x : Nat) : (s.dropStaged i x).ctr = s.ctr := rfl
@[simp] theorem State.dropStaged_snap (s : State) (i x : Nat) : (s.dropStaged i x).snap = s.snap := rfl
@[simp] theorem State.dropStaged_log (s : State) (i x : Nat) : (s.dropStaged i x).log = s.log := rfl
@[simp] theorem State.dropStaged_win (s : State) (i x : Nat) : (s.dropStaged i x).win = s.win := rfl
@[simp] theorem State.dropStaged_bus (s : State) (i x : Nat) : (s.dropStaged i x).bus = s.bus := rfl
@[simp] theorem State.dropStaged_maint (s : State) (i x : Nat) : (s.dropStaged i x).maint = s.maint := rfl
@[simp] theorem State.dropStaged_anvil (s : State) (i x : Nat) : (s.dropStaged i x).anvil = s.anvil := rfl
@[simp] theorem State.dropStaged_commit (s : State) (i x : Nat) : (s.dropStaged i x).commit = s.commit := rfl
@[simp] theorem State.dropStaged_pd (s : State) (i x : Nat) : (s.dropStaged i x).pd = s.pd := rfl
@[simp] theorem State.dropStaged_ports (s : State) (i x : Nat) : (s.dropStaged i x).ports = s.ports := rfl
@[simp] theorem State.dropStaged_budget (s : State) (i x : Nat) : (s.dropStaged i x).budget = s.budget := rfl
@[simp] theorem State.dropStaged_queues (s : State) (i x : Nat) : (s.dropStaged i x).queues = s.queues := rfl
@[simp] theorem State.dropStaged_sched (s : State) (i x : Nat) : (s.dropStaged i x).sched = s.sched := rfl
@[simp] theorem State.dropStaged_pcs (s : State) (i x : Nat) : (s.dropStaged i x).pcs = s.pcs := rfl
@[simp] theorem State.dropStaged_store (s : State) (i x : Nat) : (s.dropStaged i x).store = s.store := rfl
@[simp] theorem State.dropStaged_seam (s : State) (i x : Nat) : (s.dropStaged i x).seam = s.seam := rfl
@[simp] theorem State.dropStaged_ha (s : State) (i x : Nat) : (s.dropStaged i x).ha = s.ha := rfl
@[simp] theorem State.dropStaged_snoops (s : State) (i x : Nat) : (s.dropStaged i x).snoops = s.snoops := rfl
@[simp] theorem State.dropStaged_agents (s : State) (i x : Nat) : (s.dropStaged i x).agents = s.agents := rfl
@[simp] theorem State.dropStaged_cipher (s : State) (i x : Nat) : (s.dropStaged i x).cipher = s.cipher := rfl
@[simp] theorem State.dropStaged_phy (s : State) (i x : Nat) : (s.dropStaged i x).phy = s.phy := rfl
@[simp] theorem State.dropStaged_hk (s : State) (i x : Nat) : (s.dropStaged i x).hk = s.hk := rfl
@[simp] theorem State.dropStaged_quench (s : State) (i x : Nat) : (s.dropStaged i x).quench = s.quench := rfl
@[simp] theorem State.dropStaged_repair (s : State) (i x : Nat) : (s.dropStaged i x).repair = s.repair := rfl
@[simp] theorem State.dropStaged_boot (s : State) (i x : Nat) : (s.dropStaged i x).boot = s.boot := rfl
@[simp] theorem State.dropStaged_nor (s : State) (i x : Nat) : (s.dropStaged i x).nor = s.nor := rfl

/-! `setStaged` touches dict. -/
@[simp] theorem State.setStaged_pending (s : State) (i x : Nat) (v : Word) : (s.setStaged i x v).pending = s.pending := rfl
@[simp] theorem State.setStaged_freeCount (s : State) (i x : Nat) (v : Word) : (s.setStaged i x v).freeCount = s.freeCount := rfl
@[simp] theorem State.setStaged_out (s : State) (i x : Nat) (v : Word) : (s.setStaged i x v).out = s.out := rfl
@[simp] theorem State.setStaged_ident (s : State) (i x : Nat) (v : Word) : (s.setStaged i x v).ident = s.ident := rfl
@[simp] theorem State.setStaged_pins (s : State) (i x : Nat) (v : Word) : (s.setStaged i x v).pins = s.pins := rfl
@[simp] theorem State.setStaged_clk (s : State) (i x : Nat) (v : Word) : (s.setStaged i x v).clk = s.clk := rfl
@[simp] theorem State.setStaged_ctr (s : State) (i x : Nat) (v : Word) : (s.setStaged i x v).ctr = s.ctr := rfl
@[simp] theorem State.setStaged_snap (s : State) (i x : Nat) (v : Word) : (s.setStaged i x v).snap = s.snap := rfl
@[simp] theorem State.setStaged_log (s : State) (i x : Nat) (v : Word) : (s.setStaged i x v).log = s.log := rfl
@[simp] theorem State.setStaged_win (s : State) (i x : Nat) (v : Word) : (s.setStaged i x v).win = s.win := rfl
@[simp] theorem State.setStaged_bus (s : State) (i x : Nat) (v : Word) : (s.setStaged i x v).bus = s.bus := rfl
@[simp] theorem State.setStaged_maint (s : State) (i x : Nat) (v : Word) : (s.setStaged i x v).maint = s.maint := rfl
@[simp] theorem State.setStaged_anvil (s : State) (i x : Nat) (v : Word) : (s.setStaged i x v).anvil = s.anvil := rfl
@[simp] theorem State.setStaged_commit (s : State) (i x : Nat) (v : Word) : (s.setStaged i x v).commit = s.commit := rfl
@[simp] theorem State.setStaged_pd (s : State) (i x : Nat) (v : Word) : (s.setStaged i x v).pd = s.pd := rfl
@[simp] theorem State.setStaged_ports (s : State) (i x : Nat) (v : Word) : (s.setStaged i x v).ports = s.ports := rfl
@[simp] theorem State.setStaged_budget (s : State) (i x : Nat) (v : Word) : (s.setStaged i x v).budget = s.budget := rfl
@[simp] theorem State.setStaged_queues (s : State) (i x : Nat) (v : Word) : (s.setStaged i x v).queues = s.queues := rfl
@[simp] theorem State.setStaged_sched (s : State) (i x : Nat) (v : Word) : (s.setStaged i x v).sched = s.sched := rfl
@[simp] theorem State.setStaged_pcs (s : State) (i x : Nat) (v : Word) : (s.setStaged i x v).pcs = s.pcs := rfl
@[simp] theorem State.setStaged_store (s : State) (i x : Nat) (v : Word) : (s.setStaged i x v).store = s.store := rfl
@[simp] theorem State.setStaged_seam (s : State) (i x : Nat) (v : Word) : (s.setStaged i x v).seam = s.seam := rfl
@[simp] theorem State.setStaged_ha (s : State) (i x : Nat) (v : Word) : (s.setStaged i x v).ha = s.ha := rfl
@[simp] theorem State.setStaged_snoops (s : State) (i x : Nat) (v : Word) : (s.setStaged i x v).snoops = s.snoops := rfl
@[simp] theorem State.setStaged_agents (s : State) (i x : Nat) (v : Word) : (s.setStaged i x v).agents = s.agents := rfl
@[simp] theorem State.setStaged_cipher (s : State) (i x : Nat) (v : Word) : (s.setStaged i x v).cipher = s.cipher := rfl
@[simp] theorem State.setStaged_phy (s : State) (i x : Nat) (v : Word) : (s.setStaged i x v).phy = s.phy := rfl
@[simp] theorem State.setStaged_hk (s : State) (i x : Nat) (v : Word) : (s.setStaged i x v).hk = s.hk := rfl
@[simp] theorem State.setStaged_quench (s : State) (i x : Nat) (v : Word) : (s.setStaged i x v).quench = s.quench := rfl
@[simp] theorem State.setStaged_repair (s : State) (i x : Nat) (v : Word) : (s.setStaged i x v).repair = s.repair := rfl
@[simp] theorem State.setStaged_boot (s : State) (i x : Nat) (v : Word) : (s.setStaged i x v).boot = s.boot := rfl
@[simp] theorem State.setStaged_nor (s : State) (i x : Nat) (v : Word) : (s.setStaged i x v).nor = s.nor := rfl

/-! `setPort` touches ports. -/
@[simp] theorem State.setPort_pending (s : State) (p : Nat) (v : PortSt) : (s.setPort p v).pending = s.pending := rfl
@[simp] theorem State.setPort_freeCount (s : State) (p : Nat) (v : PortSt) : (s.setPort p v).freeCount = s.freeCount := rfl
@[simp] theorem State.setPort_out (s : State) (p : Nat) (v : PortSt) : (s.setPort p v).out = s.out := rfl
@[simp] theorem State.setPort_ident (s : State) (p : Nat) (v : PortSt) : (s.setPort p v).ident = s.ident := rfl
@[simp] theorem State.setPort_pins (s : State) (p : Nat) (v : PortSt) : (s.setPort p v).pins = s.pins := rfl
@[simp] theorem State.setPort_clk (s : State) (p : Nat) (v : PortSt) : (s.setPort p v).clk = s.clk := rfl
@[simp] theorem State.setPort_dict (s : State) (p : Nat) (v : PortSt) : (s.setPort p v).dict = s.dict := rfl
@[simp] theorem State.setPort_ctr (s : State) (p : Nat) (v : PortSt) : (s.setPort p v).ctr = s.ctr := rfl
@[simp] theorem State.setPort_snap (s : State) (p : Nat) (v : PortSt) : (s.setPort p v).snap = s.snap := rfl
@[simp] theorem State.setPort_log (s : State) (p : Nat) (v : PortSt) : (s.setPort p v).log = s.log := rfl
@[simp] theorem State.setPort_win (s : State) (p : Nat) (v : PortSt) : (s.setPort p v).win = s.win := rfl
@[simp] theorem State.setPort_bus (s : State) (p : Nat) (v : PortSt) : (s.setPort p v).bus = s.bus := rfl
@[simp] theorem State.setPort_maint (s : State) (p : Nat) (v : PortSt) : (s.setPort p v).maint = s.maint := rfl
@[simp] theorem State.setPort_anvil (s : State) (p : Nat) (v : PortSt) : (s.setPort p v).anvil = s.anvil := rfl
@[simp] theorem State.setPort_commit (s : State) (p : Nat) (v : PortSt) : (s.setPort p v).commit = s.commit := rfl
@[simp] theorem State.setPort_pd (s : State) (p : Nat) (v : PortSt) : (s.setPort p v).pd = s.pd := rfl
@[simp] theorem State.setPort_budget (s : State) (p : Nat) (v : PortSt) : (s.setPort p v).budget = s.budget := rfl
@[simp] theorem State.setPort_queues (s : State) (p : Nat) (v : PortSt) : (s.setPort p v).queues = s.queues := rfl
@[simp] theorem State.setPort_sched (s : State) (p : Nat) (v : PortSt) : (s.setPort p v).sched = s.sched := rfl
@[simp] theorem State.setPort_pcs (s : State) (p : Nat) (v : PortSt) : (s.setPort p v).pcs = s.pcs := rfl
@[simp] theorem State.setPort_store (s : State) (p : Nat) (v : PortSt) : (s.setPort p v).store = s.store := rfl
@[simp] theorem State.setPort_seam (s : State) (p : Nat) (v : PortSt) : (s.setPort p v).seam = s.seam := rfl
@[simp] theorem State.setPort_ha (s : State) (p : Nat) (v : PortSt) : (s.setPort p v).ha = s.ha := rfl
@[simp] theorem State.setPort_snoops (s : State) (p : Nat) (v : PortSt) : (s.setPort p v).snoops = s.snoops := rfl
@[simp] theorem State.setPort_agents (s : State) (p : Nat) (v : PortSt) : (s.setPort p v).agents = s.agents := rfl
@[simp] theorem State.setPort_cipher (s : State) (p : Nat) (v : PortSt) : (s.setPort p v).cipher = s.cipher := rfl
@[simp] theorem State.setPort_phy (s : State) (p : Nat) (v : PortSt) : (s.setPort p v).phy = s.phy := rfl
@[simp] theorem State.setPort_hk (s : State) (p : Nat) (v : PortSt) : (s.setPort p v).hk = s.hk := rfl
@[simp] theorem State.setPort_quench (s : State) (p : Nat) (v : PortSt) : (s.setPort p v).quench = s.quench := rfl
@[simp] theorem State.setPort_repair (s : State) (p : Nat) (v : PortSt) : (s.setPort p v).repair = s.repair := rfl
@[simp] theorem State.setPort_boot (s : State) (p : Nat) (v : PortSt) : (s.setPort p v).boot = s.boot := rfl
@[simp] theorem State.setPort_nor (s : State) (p : Nat) (v : PortSt) : (s.setPort p v).nor = s.nor := rfl

/-! `setPc` touches pcs. -/
@[simp] theorem State.setPc_pending (s : State) (c : Nat) (v : PcSt) : (s.setPc c v).pending = s.pending := rfl
@[simp] theorem State.setPc_freeCount (s : State) (c : Nat) (v : PcSt) : (s.setPc c v).freeCount = s.freeCount := rfl
@[simp] theorem State.setPc_out (s : State) (c : Nat) (v : PcSt) : (s.setPc c v).out = s.out := rfl
@[simp] theorem State.setPc_ident (s : State) (c : Nat) (v : PcSt) : (s.setPc c v).ident = s.ident := rfl
@[simp] theorem State.setPc_pins (s : State) (c : Nat) (v : PcSt) : (s.setPc c v).pins = s.pins := rfl
@[simp] theorem State.setPc_clk (s : State) (c : Nat) (v : PcSt) : (s.setPc c v).clk = s.clk := rfl
@[simp] theorem State.setPc_dict (s : State) (c : Nat) (v : PcSt) : (s.setPc c v).dict = s.dict := rfl
@[simp] theorem State.setPc_ctr (s : State) (c : Nat) (v : PcSt) : (s.setPc c v).ctr = s.ctr := rfl
@[simp] theorem State.setPc_snap (s : State) (c : Nat) (v : PcSt) : (s.setPc c v).snap = s.snap := rfl
@[simp] theorem State.setPc_log (s : State) (c : Nat) (v : PcSt) : (s.setPc c v).log = s.log := rfl
@[simp] theorem State.setPc_win (s : State) (c : Nat) (v : PcSt) : (s.setPc c v).win = s.win := rfl
@[simp] theorem State.setPc_bus (s : State) (c : Nat) (v : PcSt) : (s.setPc c v).bus = s.bus := rfl
@[simp] theorem State.setPc_maint (s : State) (c : Nat) (v : PcSt) : (s.setPc c v).maint = s.maint := rfl
@[simp] theorem State.setPc_anvil (s : State) (c : Nat) (v : PcSt) : (s.setPc c v).anvil = s.anvil := rfl
@[simp] theorem State.setPc_commit (s : State) (c : Nat) (v : PcSt) : (s.setPc c v).commit = s.commit := rfl
@[simp] theorem State.setPc_pd (s : State) (c : Nat) (v : PcSt) : (s.setPc c v).pd = s.pd := rfl
@[simp] theorem State.setPc_ports (s : State) (c : Nat) (v : PcSt) : (s.setPc c v).ports = s.ports := rfl
@[simp] theorem State.setPc_budget (s : State) (c : Nat) (v : PcSt) : (s.setPc c v).budget = s.budget := rfl
@[simp] theorem State.setPc_queues (s : State) (c : Nat) (v : PcSt) : (s.setPc c v).queues = s.queues := rfl
@[simp] theorem State.setPc_sched (s : State) (c : Nat) (v : PcSt) : (s.setPc c v).sched = s.sched := rfl
@[simp] theorem State.setPc_store (s : State) (c : Nat) (v : PcSt) : (s.setPc c v).store = s.store := rfl
@[simp] theorem State.setPc_seam (s : State) (c : Nat) (v : PcSt) : (s.setPc c v).seam = s.seam := rfl
@[simp] theorem State.setPc_ha (s : State) (c : Nat) (v : PcSt) : (s.setPc c v).ha = s.ha := rfl
@[simp] theorem State.setPc_snoops (s : State) (c : Nat) (v : PcSt) : (s.setPc c v).snoops = s.snoops := rfl
@[simp] theorem State.setPc_agents (s : State) (c : Nat) (v : PcSt) : (s.setPc c v).agents = s.agents := rfl
@[simp] theorem State.setPc_cipher (s : State) (c : Nat) (v : PcSt) : (s.setPc c v).cipher = s.cipher := rfl
@[simp] theorem State.setPc_phy (s : State) (c : Nat) (v : PcSt) : (s.setPc c v).phy = s.phy := rfl
@[simp] theorem State.setPc_hk (s : State) (c : Nat) (v : PcSt) : (s.setPc c v).hk = s.hk := rfl
@[simp] theorem State.setPc_quench (s : State) (c : Nat) (v : PcSt) : (s.setPc c v).quench = s.quench := rfl
@[simp] theorem State.setPc_repair (s : State) (c : Nat) (v : PcSt) : (s.setPc c v).repair = s.repair := rfl
@[simp] theorem State.setPc_boot (s : State) (c : Nat) (v : PcSt) : (s.setPc c v).boot = s.boot := rfl
@[simp] theorem State.setPc_nor (s : State) (c : Nat) (v : PcSt) : (s.setPc c v).nor = s.nor := rfl

/-! `setQ` touches queues. -/
@[simp] theorem State.setQ_pending (s : State) (k : Nat) (v : QSt) : (s.setQ k v).pending = s.pending := rfl
@[simp] theorem State.setQ_freeCount (s : State) (k : Nat) (v : QSt) : (s.setQ k v).freeCount = s.freeCount := rfl
@[simp] theorem State.setQ_out (s : State) (k : Nat) (v : QSt) : (s.setQ k v).out = s.out := rfl
@[simp] theorem State.setQ_ident (s : State) (k : Nat) (v : QSt) : (s.setQ k v).ident = s.ident := rfl
@[simp] theorem State.setQ_pins (s : State) (k : Nat) (v : QSt) : (s.setQ k v).pins = s.pins := rfl
@[simp] theorem State.setQ_clk (s : State) (k : Nat) (v : QSt) : (s.setQ k v).clk = s.clk := rfl
@[simp] theorem State.setQ_dict (s : State) (k : Nat) (v : QSt) : (s.setQ k v).dict = s.dict := rfl
@[simp] theorem State.setQ_ctr (s : State) (k : Nat) (v : QSt) : (s.setQ k v).ctr = s.ctr := rfl
@[simp] theorem State.setQ_snap (s : State) (k : Nat) (v : QSt) : (s.setQ k v).snap = s.snap := rfl
@[simp] theorem State.setQ_log (s : State) (k : Nat) (v : QSt) : (s.setQ k v).log = s.log := rfl
@[simp] theorem State.setQ_win (s : State) (k : Nat) (v : QSt) : (s.setQ k v).win = s.win := rfl
@[simp] theorem State.setQ_bus (s : State) (k : Nat) (v : QSt) : (s.setQ k v).bus = s.bus := rfl
@[simp] theorem State.setQ_maint (s : State) (k : Nat) (v : QSt) : (s.setQ k v).maint = s.maint := rfl
@[simp] theorem State.setQ_anvil (s : State) (k : Nat) (v : QSt) : (s.setQ k v).anvil = s.anvil := rfl
@[simp] theorem State.setQ_commit (s : State) (k : Nat) (v : QSt) : (s.setQ k v).commit = s.commit := rfl
@[simp] theorem State.setQ_pd (s : State) (k : Nat) (v : QSt) : (s.setQ k v).pd = s.pd := rfl
@[simp] theorem State.setQ_ports (s : State) (k : Nat) (v : QSt) : (s.setQ k v).ports = s.ports := rfl
@[simp] theorem State.setQ_budget (s : State) (k : Nat) (v : QSt) : (s.setQ k v).budget = s.budget := rfl
@[simp] theorem State.setQ_sched (s : State) (k : Nat) (v : QSt) : (s.setQ k v).sched = s.sched := rfl
@[simp] theorem State.setQ_pcs (s : State) (k : Nat) (v : QSt) : (s.setQ k v).pcs = s.pcs := rfl
@[simp] theorem State.setQ_store (s : State) (k : Nat) (v : QSt) : (s.setQ k v).store = s.store := rfl
@[simp] theorem State.setQ_seam (s : State) (k : Nat) (v : QSt) : (s.setQ k v).seam = s.seam := rfl
@[simp] theorem State.setQ_ha (s : State) (k : Nat) (v : QSt) : (s.setQ k v).ha = s.ha := rfl
@[simp] theorem State.setQ_snoops (s : State) (k : Nat) (v : QSt) : (s.setQ k v).snoops = s.snoops := rfl
@[simp] theorem State.setQ_agents (s : State) (k : Nat) (v : QSt) : (s.setQ k v).agents = s.agents := rfl
@[simp] theorem State.setQ_cipher (s : State) (k : Nat) (v : QSt) : (s.setQ k v).cipher = s.cipher := rfl
@[simp] theorem State.setQ_phy (s : State) (k : Nat) (v : QSt) : (s.setQ k v).phy = s.phy := rfl
@[simp] theorem State.setQ_hk (s : State) (k : Nat) (v : QSt) : (s.setQ k v).hk = s.hk := rfl
@[simp] theorem State.setQ_quench (s : State) (k : Nat) (v : QSt) : (s.setQ k v).quench = s.quench := rfl
@[simp] theorem State.setQ_repair (s : State) (k : Nat) (v : QSt) : (s.setQ k v).repair = s.repair := rfl
@[simp] theorem State.setQ_boot (s : State) (k : Nat) (v : QSt) : (s.setQ k v).boot = s.boot := rfl
@[simp] theorem State.setQ_nor (s : State) (k : Nat) (v : QSt) : (s.setQ k v).nor = s.nor := rfl

/-! `setSlot` touches cipher. -/
@[simp] theorem State.setSlot_pending (s : State) (k : Nat) (v : Slot) : (s.setSlot k v).pending = s.pending := rfl
@[simp] theorem State.setSlot_freeCount (s : State) (k : Nat) (v : Slot) : (s.setSlot k v).freeCount = s.freeCount := rfl
@[simp] theorem State.setSlot_out (s : State) (k : Nat) (v : Slot) : (s.setSlot k v).out = s.out := rfl
@[simp] theorem State.setSlot_ident (s : State) (k : Nat) (v : Slot) : (s.setSlot k v).ident = s.ident := rfl
@[simp] theorem State.setSlot_pins (s : State) (k : Nat) (v : Slot) : (s.setSlot k v).pins = s.pins := rfl
@[simp] theorem State.setSlot_clk (s : State) (k : Nat) (v : Slot) : (s.setSlot k v).clk = s.clk := rfl
@[simp] theorem State.setSlot_dict (s : State) (k : Nat) (v : Slot) : (s.setSlot k v).dict = s.dict := rfl
@[simp] theorem State.setSlot_ctr (s : State) (k : Nat) (v : Slot) : (s.setSlot k v).ctr = s.ctr := rfl
@[simp] theorem State.setSlot_snap (s : State) (k : Nat) (v : Slot) : (s.setSlot k v).snap = s.snap := rfl
@[simp] theorem State.setSlot_log (s : State) (k : Nat) (v : Slot) : (s.setSlot k v).log = s.log := rfl
@[simp] theorem State.setSlot_win (s : State) (k : Nat) (v : Slot) : (s.setSlot k v).win = s.win := rfl
@[simp] theorem State.setSlot_bus (s : State) (k : Nat) (v : Slot) : (s.setSlot k v).bus = s.bus := rfl
@[simp] theorem State.setSlot_maint (s : State) (k : Nat) (v : Slot) : (s.setSlot k v).maint = s.maint := rfl
@[simp] theorem State.setSlot_anvil (s : State) (k : Nat) (v : Slot) : (s.setSlot k v).anvil = s.anvil := rfl
@[simp] theorem State.setSlot_commit (s : State) (k : Nat) (v : Slot) : (s.setSlot k v).commit = s.commit := rfl
@[simp] theorem State.setSlot_pd (s : State) (k : Nat) (v : Slot) : (s.setSlot k v).pd = s.pd := rfl
@[simp] theorem State.setSlot_ports (s : State) (k : Nat) (v : Slot) : (s.setSlot k v).ports = s.ports := rfl
@[simp] theorem State.setSlot_budget (s : State) (k : Nat) (v : Slot) : (s.setSlot k v).budget = s.budget := rfl
@[simp] theorem State.setSlot_queues (s : State) (k : Nat) (v : Slot) : (s.setSlot k v).queues = s.queues := rfl
@[simp] theorem State.setSlot_sched (s : State) (k : Nat) (v : Slot) : (s.setSlot k v).sched = s.sched := rfl
@[simp] theorem State.setSlot_pcs (s : State) (k : Nat) (v : Slot) : (s.setSlot k v).pcs = s.pcs := rfl
@[simp] theorem State.setSlot_store (s : State) (k : Nat) (v : Slot) : (s.setSlot k v).store = s.store := rfl
@[simp] theorem State.setSlot_seam (s : State) (k : Nat) (v : Slot) : (s.setSlot k v).seam = s.seam := rfl
@[simp] theorem State.setSlot_ha (s : State) (k : Nat) (v : Slot) : (s.setSlot k v).ha = s.ha := rfl
@[simp] theorem State.setSlot_snoops (s : State) (k : Nat) (v : Slot) : (s.setSlot k v).snoops = s.snoops := rfl
@[simp] theorem State.setSlot_agents (s : State) (k : Nat) (v : Slot) : (s.setSlot k v).agents = s.agents := rfl
@[simp] theorem State.setSlot_phy (s : State) (k : Nat) (v : Slot) : (s.setSlot k v).phy = s.phy := rfl
@[simp] theorem State.setSlot_hk (s : State) (k : Nat) (v : Slot) : (s.setSlot k v).hk = s.hk := rfl
@[simp] theorem State.setSlot_quench (s : State) (k : Nat) (v : Slot) : (s.setSlot k v).quench = s.quench := rfl
@[simp] theorem State.setSlot_repair (s : State) (k : Nat) (v : Slot) : (s.setSlot k v).repair = s.repair := rfl
@[simp] theorem State.setSlot_boot (s : State) (k : Nat) (v : Slot) : (s.setSlot k v).boot = s.boot := rfl
@[simp] theorem State.setSlot_nor (s : State) (k : Nat) (v : Slot) : (s.setSlot k v).nor = s.nor := rfl

/-! `toCycle` touches clk. -/
@[simp] theorem State.toCycle_pending (s : State) (c : Nat) : (s.toCycle c).pending = s.pending := rfl
@[simp] theorem State.toCycle_freeCount (s : State) (c : Nat) : (s.toCycle c).freeCount = s.freeCount := rfl
@[simp] theorem State.toCycle_out (s : State) (c : Nat) : (s.toCycle c).out = s.out := rfl
@[simp] theorem State.toCycle_ident (s : State) (c : Nat) : (s.toCycle c).ident = s.ident := rfl
@[simp] theorem State.toCycle_pins (s : State) (c : Nat) : (s.toCycle c).pins = s.pins := rfl
@[simp] theorem State.toCycle_dict (s : State) (c : Nat) : (s.toCycle c).dict = s.dict := rfl
@[simp] theorem State.toCycle_ctr (s : State) (c : Nat) : (s.toCycle c).ctr = s.ctr := rfl
@[simp] theorem State.toCycle_snap (s : State) (c : Nat) : (s.toCycle c).snap = s.snap := rfl
@[simp] theorem State.toCycle_log (s : State) (c : Nat) : (s.toCycle c).log = s.log := rfl
@[simp] theorem State.toCycle_win (s : State) (c : Nat) : (s.toCycle c).win = s.win := rfl
@[simp] theorem State.toCycle_bus (s : State) (c : Nat) : (s.toCycle c).bus = s.bus := rfl
@[simp] theorem State.toCycle_maint (s : State) (c : Nat) : (s.toCycle c).maint = s.maint := rfl
@[simp] theorem State.toCycle_anvil (s : State) (c : Nat) : (s.toCycle c).anvil = s.anvil := rfl
@[simp] theorem State.toCycle_commit (s : State) (c : Nat) : (s.toCycle c).commit = s.commit := rfl
@[simp] theorem State.toCycle_pd (s : State) (c : Nat) : (s.toCycle c).pd = s.pd := rfl
@[simp] theorem State.toCycle_ports (s : State) (c : Nat) : (s.toCycle c).ports = s.ports := rfl
@[simp] theorem State.toCycle_budget (s : State) (c : Nat) : (s.toCycle c).budget = s.budget := rfl
@[simp] theorem State.toCycle_queues (s : State) (c : Nat) : (s.toCycle c).queues = s.queues := rfl
@[simp] theorem State.toCycle_sched (s : State) (c : Nat) : (s.toCycle c).sched = s.sched := rfl
@[simp] theorem State.toCycle_pcs (s : State) (c : Nat) : (s.toCycle c).pcs = s.pcs := rfl
@[simp] theorem State.toCycle_store (s : State) (c : Nat) : (s.toCycle c).store = s.store := rfl
@[simp] theorem State.toCycle_seam (s : State) (c : Nat) : (s.toCycle c).seam = s.seam := rfl
@[simp] theorem State.toCycle_ha (s : State) (c : Nat) : (s.toCycle c).ha = s.ha := rfl
@[simp] theorem State.toCycle_snoops (s : State) (c : Nat) : (s.toCycle c).snoops = s.snoops := rfl
@[simp] theorem State.toCycle_agents (s : State) (c : Nat) : (s.toCycle c).agents = s.agents := rfl
@[simp] theorem State.toCycle_cipher (s : State) (c : Nat) : (s.toCycle c).cipher = s.cipher := rfl
@[simp] theorem State.toCycle_phy (s : State) (c : Nat) : (s.toCycle c).phy = s.phy := rfl
@[simp] theorem State.toCycle_hk (s : State) (c : Nat) : (s.toCycle c).hk = s.hk := rfl
@[simp] theorem State.toCycle_quench (s : State) (c : Nat) : (s.toCycle c).quench = s.quench := rfl
@[simp] theorem State.toCycle_repair (s : State) (c : Nat) : (s.toCycle c).repair = s.repair := rfl
@[simp] theorem State.toCycle_boot (s : State) (c : Nat) : (s.toCycle c).boot = s.boot := rfl
@[simp] theorem State.toCycle_nor (s : State) (c : Nat) : (s.toCycle c).nor = s.nor := rfl

/-! `toTime` touches clk. -/
@[simp] theorem State.toTime_pending (s : State) (ns : Nat) : (s.toTime ns).pending = s.pending := rfl
@[simp] theorem State.toTime_freeCount (s : State) (ns : Nat) : (s.toTime ns).freeCount = s.freeCount := rfl
@[simp] theorem State.toTime_out (s : State) (ns : Nat) : (s.toTime ns).out = s.out := rfl
@[simp] theorem State.toTime_ident (s : State) (ns : Nat) : (s.toTime ns).ident = s.ident := rfl
@[simp] theorem State.toTime_pins (s : State) (ns : Nat) : (s.toTime ns).pins = s.pins := rfl
@[simp] theorem State.toTime_dict (s : State) (ns : Nat) : (s.toTime ns).dict = s.dict := rfl
@[simp] theorem State.toTime_ctr (s : State) (ns : Nat) : (s.toTime ns).ctr = s.ctr := rfl
@[simp] theorem State.toTime_snap (s : State) (ns : Nat) : (s.toTime ns).snap = s.snap := rfl
@[simp] theorem State.toTime_log (s : State) (ns : Nat) : (s.toTime ns).log = s.log := rfl
@[simp] theorem State.toTime_win (s : State) (ns : Nat) : (s.toTime ns).win = s.win := rfl
@[simp] theorem State.toTime_bus (s : State) (ns : Nat) : (s.toTime ns).bus = s.bus := rfl
@[simp] theorem State.toTime_maint (s : State) (ns : Nat) : (s.toTime ns).maint = s.maint := rfl
@[simp] theorem State.toTime_anvil (s : State) (ns : Nat) : (s.toTime ns).anvil = s.anvil := rfl
@[simp] theorem State.toTime_commit (s : State) (ns : Nat) : (s.toTime ns).commit = s.commit := rfl
@[simp] theorem State.toTime_pd (s : State) (ns : Nat) : (s.toTime ns).pd = s.pd := rfl
@[simp] theorem State.toTime_ports (s : State) (ns : Nat) : (s.toTime ns).ports = s.ports := rfl
@[simp] theorem State.toTime_budget (s : State) (ns : Nat) : (s.toTime ns).budget = s.budget := rfl
@[simp] theorem State.toTime_queues (s : State) (ns : Nat) : (s.toTime ns).queues = s.queues := rfl
@[simp] theorem State.toTime_sched (s : State) (ns : Nat) : (s.toTime ns).sched = s.sched := rfl
@[simp] theorem State.toTime_pcs (s : State) (ns : Nat) : (s.toTime ns).pcs = s.pcs := rfl
@[simp] theorem State.toTime_store (s : State) (ns : Nat) : (s.toTime ns).store = s.store := rfl
@[simp] theorem State.toTime_seam (s : State) (ns : Nat) : (s.toTime ns).seam = s.seam := rfl
@[simp] theorem State.toTime_ha (s : State) (ns : Nat) : (s.toTime ns).ha = s.ha := rfl
@[simp] theorem State.toTime_snoops (s : State) (ns : Nat) : (s.toTime ns).snoops = s.snoops := rfl
@[simp] theorem State.toTime_agents (s : State) (ns : Nat) : (s.toTime ns).agents = s.agents := rfl
@[simp] theorem State.toTime_cipher (s : State) (ns : Nat) : (s.toTime ns).cipher = s.cipher := rfl
@[simp] theorem State.toTime_phy (s : State) (ns : Nat) : (s.toTime ns).phy = s.phy := rfl
@[simp] theorem State.toTime_hk (s : State) (ns : Nat) : (s.toTime ns).hk = s.hk := rfl
@[simp] theorem State.toTime_quench (s : State) (ns : Nat) : (s.toTime ns).quench = s.quench := rfl
@[simp] theorem State.toTime_repair (s : State) (ns : Nat) : (s.toTime ns).repair = s.repair := rfl
@[simp] theorem State.toTime_boot (s : State) (ns : Nat) : (s.toTime ns).boot = s.boot := rfl
@[simp] theorem State.toTime_nor (s : State) (ns : Nat) : (s.toTime ns).nor = s.nor := rfl

/-- What `setPath` can change: win, bus. -/
theorem State.setPath_only (s : State) (h : Path) (v : PathSt) : s.setPath h v = { s with win := (s.setPath h v).win, bus := (s.setPath h v).bus } := by
  cases h <;> rfl
@[simp] theorem State.setPath_pending (s : State) (h : Path) (v : PathSt) : (s.setPath h v).pending = s.pending := by rw [State.setPath_only]
@[simp] theorem State.setPath_freeCount (s : State) (h : Path) (v : PathSt) : (s.setPath h v).freeCount = s.freeCount := by rw [State.setPath_only]
@[simp] theorem State.setPath_out (s : State) (h : Path) (v : PathSt) : (s.setPath h v).out = s.out := by rw [State.setPath_only]
@[simp] theorem State.setPath_ident (s : State) (h : Path) (v : PathSt) : (s.setPath h v).ident = s.ident := by rw [State.setPath_only]
@[simp] theorem State.setPath_pins (s : State) (h : Path) (v : PathSt) : (s.setPath h v).pins = s.pins := by rw [State.setPath_only]
@[simp] theorem State.setPath_clk (s : State) (h : Path) (v : PathSt) : (s.setPath h v).clk = s.clk := by rw [State.setPath_only]
@[simp] theorem State.setPath_dict (s : State) (h : Path) (v : PathSt) : (s.setPath h v).dict = s.dict := by rw [State.setPath_only]
@[simp] theorem State.setPath_ctr (s : State) (h : Path) (v : PathSt) : (s.setPath h v).ctr = s.ctr := by rw [State.setPath_only]
@[simp] theorem State.setPath_snap (s : State) (h : Path) (v : PathSt) : (s.setPath h v).snap = s.snap := by rw [State.setPath_only]
@[simp] theorem State.setPath_log (s : State) (h : Path) (v : PathSt) : (s.setPath h v).log = s.log := by rw [State.setPath_only]
@[simp] theorem State.setPath_maint (s : State) (h : Path) (v : PathSt) : (s.setPath h v).maint = s.maint := by rw [State.setPath_only]
@[simp] theorem State.setPath_anvil (s : State) (h : Path) (v : PathSt) : (s.setPath h v).anvil = s.anvil := by rw [State.setPath_only]
@[simp] theorem State.setPath_commit (s : State) (h : Path) (v : PathSt) : (s.setPath h v).commit = s.commit := by rw [State.setPath_only]
@[simp] theorem State.setPath_pd (s : State) (h : Path) (v : PathSt) : (s.setPath h v).pd = s.pd := by rw [State.setPath_only]
@[simp] theorem State.setPath_ports (s : State) (h : Path) (v : PathSt) : (s.setPath h v).ports = s.ports := by rw [State.setPath_only]
@[simp] theorem State.setPath_budget (s : State) (h : Path) (v : PathSt) : (s.setPath h v).budget = s.budget := by rw [State.setPath_only]
@[simp] theorem State.setPath_queues (s : State) (h : Path) (v : PathSt) : (s.setPath h v).queues = s.queues := by rw [State.setPath_only]
@[simp] theorem State.setPath_sched (s : State) (h : Path) (v : PathSt) : (s.setPath h v).sched = s.sched := by rw [State.setPath_only]
@[simp] theorem State.setPath_pcs (s : State) (h : Path) (v : PathSt) : (s.setPath h v).pcs = s.pcs := by rw [State.setPath_only]
@[simp] theorem State.setPath_store (s : State) (h : Path) (v : PathSt) : (s.setPath h v).store = s.store := by rw [State.setPath_only]
@[simp] theorem State.setPath_seam (s : State) (h : Path) (v : PathSt) : (s.setPath h v).seam = s.seam := by rw [State.setPath_only]
@[simp] theorem State.setPath_ha (s : State) (h : Path) (v : PathSt) : (s.setPath h v).ha = s.ha := by rw [State.setPath_only]
@[simp] theorem State.setPath_snoops (s : State) (h : Path) (v : PathSt) : (s.setPath h v).snoops = s.snoops := by rw [State.setPath_only]
@[simp] theorem State.setPath_agents (s : State) (h : Path) (v : PathSt) : (s.setPath h v).agents = s.agents := by rw [State.setPath_only]
@[simp] theorem State.setPath_cipher (s : State) (h : Path) (v : PathSt) : (s.setPath h v).cipher = s.cipher := by rw [State.setPath_only]
@[simp] theorem State.setPath_phy (s : State) (h : Path) (v : PathSt) : (s.setPath h v).phy = s.phy := by rw [State.setPath_only]
@[simp] theorem State.setPath_hk (s : State) (h : Path) (v : PathSt) : (s.setPath h v).hk = s.hk := by rw [State.setPath_only]
@[simp] theorem State.setPath_quench (s : State) (h : Path) (v : PathSt) : (s.setPath h v).quench = s.quench := by rw [State.setPath_only]
@[simp] theorem State.setPath_repair (s : State) (h : Path) (v : PathSt) : (s.setPath h v).repair = s.repair := by rw [State.setPath_only]
@[simp] theorem State.setPath_boot (s : State) (h : Path) (v : PathSt) : (s.setPath h v).boot = s.boot := by rw [State.setPath_only]
@[simp] theorem State.setPath_nor (s : State) (h : Path) (v : PathSt) : (s.setPath h v).nor = s.nor := by rw [State.setPath_only]

/-- What `idle` can change: clk. -/
theorem State.idle_only (s : State) : s.idle = { s with clk := (s.idle).clk } := by
  unfold State.idle; split <;> rfl
@[simp] theorem State.idle_pending (s : State) : (s.idle).pending = s.pending := by rw [State.idle_only]
@[simp] theorem State.idle_freeCount (s : State) : (s.idle).freeCount = s.freeCount := by rw [State.idle_only]
@[simp] theorem State.idle_out (s : State) : (s.idle).out = s.out := by rw [State.idle_only]
@[simp] theorem State.idle_ident (s : State) : (s.idle).ident = s.ident := by rw [State.idle_only]
@[simp] theorem State.idle_pins (s : State) : (s.idle).pins = s.pins := by rw [State.idle_only]
@[simp] theorem State.idle_dict (s : State) : (s.idle).dict = s.dict := by rw [State.idle_only]
@[simp] theorem State.idle_ctr (s : State) : (s.idle).ctr = s.ctr := by rw [State.idle_only]
@[simp] theorem State.idle_snap (s : State) : (s.idle).snap = s.snap := by rw [State.idle_only]
@[simp] theorem State.idle_log (s : State) : (s.idle).log = s.log := by rw [State.idle_only]
@[simp] theorem State.idle_win (s : State) : (s.idle).win = s.win := by rw [State.idle_only]
@[simp] theorem State.idle_bus (s : State) : (s.idle).bus = s.bus := by rw [State.idle_only]
@[simp] theorem State.idle_maint (s : State) : (s.idle).maint = s.maint := by rw [State.idle_only]
@[simp] theorem State.idle_anvil (s : State) : (s.idle).anvil = s.anvil := by rw [State.idle_only]
@[simp] theorem State.idle_commit (s : State) : (s.idle).commit = s.commit := by rw [State.idle_only]
@[simp] theorem State.idle_pd (s : State) : (s.idle).pd = s.pd := by rw [State.idle_only]
@[simp] theorem State.idle_ports (s : State) : (s.idle).ports = s.ports := by rw [State.idle_only]
@[simp] theorem State.idle_budget (s : State) : (s.idle).budget = s.budget := by rw [State.idle_only]
@[simp] theorem State.idle_queues (s : State) : (s.idle).queues = s.queues := by rw [State.idle_only]
@[simp] theorem State.idle_sched (s : State) : (s.idle).sched = s.sched := by rw [State.idle_only]
@[simp] theorem State.idle_pcs (s : State) : (s.idle).pcs = s.pcs := by rw [State.idle_only]
@[simp] theorem State.idle_store (s : State) : (s.idle).store = s.store := by rw [State.idle_only]
@[simp] theorem State.idle_seam (s : State) : (s.idle).seam = s.seam := by rw [State.idle_only]
@[simp] theorem State.idle_ha (s : State) : (s.idle).ha = s.ha := by rw [State.idle_only]
@[simp] theorem State.idle_snoops (s : State) : (s.idle).snoops = s.snoops := by rw [State.idle_only]
@[simp] theorem State.idle_agents (s : State) : (s.idle).agents = s.agents := by rw [State.idle_only]
@[simp] theorem State.idle_cipher (s : State) : (s.idle).cipher = s.cipher := by rw [State.idle_only]
@[simp] theorem State.idle_phy (s : State) : (s.idle).phy = s.phy := by rw [State.idle_only]
@[simp] theorem State.idle_hk (s : State) : (s.idle).hk = s.hk := by rw [State.idle_only]
@[simp] theorem State.idle_quench (s : State) : (s.idle).quench = s.quench := by rw [State.idle_only]
@[simp] theorem State.idle_repair (s : State) : (s.idle).repair = s.repair := by rw [State.idle_only]
@[simp] theorem State.idle_boot (s : State) : (s.idle).boot = s.boot := by rw [State.idle_only]
@[simp] theorem State.idle_nor (s : State) : (s.idle).nor = s.nor := by rw [State.idle_only]

/-- What `raiseIbi` can change: maint, out. -/
theorem State.raiseIbi_only (s : State) (code : Nat) : s.raiseIbi code = { s with maint := (s.raiseIbi code).maint, out := (s.raiseIbi code).out } := by
  unfold State.raiseIbi; repeat' split
  all_goals rfl
@[simp] theorem State.raiseIbi_pending (s : State) (code : Nat) : (s.raiseIbi code).pending = s.pending := by rw [State.raiseIbi_only]
@[simp] theorem State.raiseIbi_freeCount (s : State) (code : Nat) : (s.raiseIbi code).freeCount = s.freeCount := by rw [State.raiseIbi_only]
@[simp] theorem State.raiseIbi_ident (s : State) (code : Nat) : (s.raiseIbi code).ident = s.ident := by rw [State.raiseIbi_only]
@[simp] theorem State.raiseIbi_pins (s : State) (code : Nat) : (s.raiseIbi code).pins = s.pins := by rw [State.raiseIbi_only]
@[simp] theorem State.raiseIbi_clk (s : State) (code : Nat) : (s.raiseIbi code).clk = s.clk := by rw [State.raiseIbi_only]
@[simp] theorem State.raiseIbi_dict (s : State) (code : Nat) : (s.raiseIbi code).dict = s.dict := by rw [State.raiseIbi_only]
@[simp] theorem State.raiseIbi_ctr (s : State) (code : Nat) : (s.raiseIbi code).ctr = s.ctr := by rw [State.raiseIbi_only]
@[simp] theorem State.raiseIbi_snap (s : State) (code : Nat) : (s.raiseIbi code).snap = s.snap := by rw [State.raiseIbi_only]
@[simp] theorem State.raiseIbi_log (s : State) (code : Nat) : (s.raiseIbi code).log = s.log := by rw [State.raiseIbi_only]
@[simp] theorem State.raiseIbi_win (s : State) (code : Nat) : (s.raiseIbi code).win = s.win := by rw [State.raiseIbi_only]
@[simp] theorem State.raiseIbi_bus (s : State) (code : Nat) : (s.raiseIbi code).bus = s.bus := by rw [State.raiseIbi_only]
@[simp] theorem State.raiseIbi_anvil (s : State) (code : Nat) : (s.raiseIbi code).anvil = s.anvil := by rw [State.raiseIbi_only]
@[simp] theorem State.raiseIbi_commit (s : State) (code : Nat) : (s.raiseIbi code).commit = s.commit := by rw [State.raiseIbi_only]
@[simp] theorem State.raiseIbi_pd (s : State) (code : Nat) : (s.raiseIbi code).pd = s.pd := by rw [State.raiseIbi_only]
@[simp] theorem State.raiseIbi_ports (s : State) (code : Nat) : (s.raiseIbi code).ports = s.ports := by rw [State.raiseIbi_only]
@[simp] theorem State.raiseIbi_budget (s : State) (code : Nat) : (s.raiseIbi code).budget = s.budget := by rw [State.raiseIbi_only]
@[simp] theorem State.raiseIbi_queues (s : State) (code : Nat) : (s.raiseIbi code).queues = s.queues := by rw [State.raiseIbi_only]
@[simp] theorem State.raiseIbi_sched (s : State) (code : Nat) : (s.raiseIbi code).sched = s.sched := by rw [State.raiseIbi_only]
@[simp] theorem State.raiseIbi_pcs (s : State) (code : Nat) : (s.raiseIbi code).pcs = s.pcs := by rw [State.raiseIbi_only]
@[simp] theorem State.raiseIbi_store (s : State) (code : Nat) : (s.raiseIbi code).store = s.store := by rw [State.raiseIbi_only]
@[simp] theorem State.raiseIbi_seam (s : State) (code : Nat) : (s.raiseIbi code).seam = s.seam := by rw [State.raiseIbi_only]
@[simp] theorem State.raiseIbi_ha (s : State) (code : Nat) : (s.raiseIbi code).ha = s.ha := by rw [State.raiseIbi_only]
@[simp] theorem State.raiseIbi_snoops (s : State) (code : Nat) : (s.raiseIbi code).snoops = s.snoops := by rw [State.raiseIbi_only]
@[simp] theorem State.raiseIbi_agents (s : State) (code : Nat) : (s.raiseIbi code).agents = s.agents := by rw [State.raiseIbi_only]
@[simp] theorem State.raiseIbi_cipher (s : State) (code : Nat) : (s.raiseIbi code).cipher = s.cipher := by rw [State.raiseIbi_only]
@[simp] theorem State.raiseIbi_phy (s : State) (code : Nat) : (s.raiseIbi code).phy = s.phy := by rw [State.raiseIbi_only]
@[simp] theorem State.raiseIbi_hk (s : State) (code : Nat) : (s.raiseIbi code).hk = s.hk := by rw [State.raiseIbi_only]
@[simp] theorem State.raiseIbi_quench (s : State) (code : Nat) : (s.raiseIbi code).quench = s.quench := by rw [State.raiseIbi_only]
@[simp] theorem State.raiseIbi_repair (s : State) (code : Nat) : (s.raiseIbi code).repair = s.repair := by rw [State.raiseIbi_only]
@[simp] theorem State.raiseIbi_boot (s : State) (code : Nat) : (s.raiseIbi code).boot = s.boot := by rw [State.raiseIbi_only]
@[simp] theorem State.raiseIbi_nor (s : State) (code : Nat) : (s.raiseIbi code).nor = s.nor := by rw [State.raiseIbi_only]

/-- What `log1` can change: log, maint, out. -/
theorem State.log1_only (s : State) (code : Nat) (args : List Word) : s.log1 code args = { s with log := (s.log1 code args).log, maint := (s.log1 code args).maint, out := (s.log1 code args).out } := by
  unfold State.log1; split
  · rw [State.raiseIbi_only]
  · rfl
@[simp] theorem State.log1_pending (s : State) (code : Nat) (args : List Word) : (s.log1 code args).pending = s.pending := by rw [State.log1_only]
@[simp] theorem State.log1_freeCount (s : State) (code : Nat) (args : List Word) : (s.log1 code args).freeCount = s.freeCount := by rw [State.log1_only]
@[simp] theorem State.log1_ident (s : State) (code : Nat) (args : List Word) : (s.log1 code args).ident = s.ident := by rw [State.log1_only]
@[simp] theorem State.log1_pins (s : State) (code : Nat) (args : List Word) : (s.log1 code args).pins = s.pins := by rw [State.log1_only]
@[simp] theorem State.log1_clk (s : State) (code : Nat) (args : List Word) : (s.log1 code args).clk = s.clk := by rw [State.log1_only]
@[simp] theorem State.log1_dict (s : State) (code : Nat) (args : List Word) : (s.log1 code args).dict = s.dict := by rw [State.log1_only]
@[simp] theorem State.log1_ctr (s : State) (code : Nat) (args : List Word) : (s.log1 code args).ctr = s.ctr := by rw [State.log1_only]
@[simp] theorem State.log1_snap (s : State) (code : Nat) (args : List Word) : (s.log1 code args).snap = s.snap := by rw [State.log1_only]
@[simp] theorem State.log1_win (s : State) (code : Nat) (args : List Word) : (s.log1 code args).win = s.win := by rw [State.log1_only]
@[simp] theorem State.log1_bus (s : State) (code : Nat) (args : List Word) : (s.log1 code args).bus = s.bus := by rw [State.log1_only]
@[simp] theorem State.log1_anvil (s : State) (code : Nat) (args : List Word) : (s.log1 code args).anvil = s.anvil := by rw [State.log1_only]
@[simp] theorem State.log1_commit (s : State) (code : Nat) (args : List Word) : (s.log1 code args).commit = s.commit := by rw [State.log1_only]
@[simp] theorem State.log1_pd (s : State) (code : Nat) (args : List Word) : (s.log1 code args).pd = s.pd := by rw [State.log1_only]
@[simp] theorem State.log1_ports (s : State) (code : Nat) (args : List Word) : (s.log1 code args).ports = s.ports := by rw [State.log1_only]
@[simp] theorem State.log1_budget (s : State) (code : Nat) (args : List Word) : (s.log1 code args).budget = s.budget := by rw [State.log1_only]
@[simp] theorem State.log1_queues (s : State) (code : Nat) (args : List Word) : (s.log1 code args).queues = s.queues := by rw [State.log1_only]
@[simp] theorem State.log1_sched (s : State) (code : Nat) (args : List Word) : (s.log1 code args).sched = s.sched := by rw [State.log1_only]
@[simp] theorem State.log1_pcs (s : State) (code : Nat) (args : List Word) : (s.log1 code args).pcs = s.pcs := by rw [State.log1_only]
@[simp] theorem State.log1_store (s : State) (code : Nat) (args : List Word) : (s.log1 code args).store = s.store := by rw [State.log1_only]
@[simp] theorem State.log1_seam (s : State) (code : Nat) (args : List Word) : (s.log1 code args).seam = s.seam := by rw [State.log1_only]
@[simp] theorem State.log1_ha (s : State) (code : Nat) (args : List Word) : (s.log1 code args).ha = s.ha := by rw [State.log1_only]
@[simp] theorem State.log1_snoops (s : State) (code : Nat) (args : List Word) : (s.log1 code args).snoops = s.snoops := by rw [State.log1_only]
@[simp] theorem State.log1_agents (s : State) (code : Nat) (args : List Word) : (s.log1 code args).agents = s.agents := by rw [State.log1_only]
@[simp] theorem State.log1_cipher (s : State) (code : Nat) (args : List Word) : (s.log1 code args).cipher = s.cipher := by rw [State.log1_only]
@[simp] theorem State.log1_phy (s : State) (code : Nat) (args : List Word) : (s.log1 code args).phy = s.phy := by rw [State.log1_only]
@[simp] theorem State.log1_hk (s : State) (code : Nat) (args : List Word) : (s.log1 code args).hk = s.hk := by rw [State.log1_only]
@[simp] theorem State.log1_quench (s : State) (code : Nat) (args : List Word) : (s.log1 code args).quench = s.quench := by rw [State.log1_only]
@[simp] theorem State.log1_repair (s : State) (code : Nat) (args : List Word) : (s.log1 code args).repair = s.repair := by rw [State.log1_only]
@[simp] theorem State.log1_boot (s : State) (code : Nat) (args : List Word) : (s.log1 code args).boot = s.boot := by rw [State.log1_only]
@[simp] theorem State.log1_nor (s : State) (code : Nat) (args : List Word) : (s.log1 code args).nor = s.nor := by rw [State.log1_only]

/-- What `logLimAs` can change: log, maint, out. -/
theorem State.logLimAs_only (s : State) (lim code key n w : Nat) (args : Nat → List Word) : s.logLimAs lim code key n w args = { s with log := (s.logLimAs lim code key n w args).log, maint := (s.logLimAs lim code key n w args).maint, out := (s.logLimAs lim code key n w args).out } := by
  unfold State.logLimAs
  simp only []
  repeat' split
  all_goals first | rfl | (rw [State.log1_only]; done)
@[simp] theorem State.logLimAs_pending (s : State) (lim code key n w : Nat) (args : Nat → List Word) : (s.logLimAs lim code key n w args).pending = s.pending := by rw [State.logLimAs_only]
@[simp] theorem State.logLimAs_freeCount (s : State) (lim code key n w : Nat) (args : Nat → List Word) : (s.logLimAs lim code key n w args).freeCount = s.freeCount := by rw [State.logLimAs_only]
@[simp] theorem State.logLimAs_ident (s : State) (lim code key n w : Nat) (args : Nat → List Word) : (s.logLimAs lim code key n w args).ident = s.ident := by rw [State.logLimAs_only]
@[simp] theorem State.logLimAs_pins (s : State) (lim code key n w : Nat) (args : Nat → List Word) : (s.logLimAs lim code key n w args).pins = s.pins := by rw [State.logLimAs_only]
@[simp] theorem State.logLimAs_clk (s : State) (lim code key n w : Nat) (args : Nat → List Word) : (s.logLimAs lim code key n w args).clk = s.clk := by rw [State.logLimAs_only]
@[simp] theorem State.logLimAs_dict (s : State) (lim code key n w : Nat) (args : Nat → List Word) : (s.logLimAs lim code key n w args).dict = s.dict := by rw [State.logLimAs_only]
@[simp] theorem State.logLimAs_ctr (s : State) (lim code key n w : Nat) (args : Nat → List Word) : (s.logLimAs lim code key n w args).ctr = s.ctr := by rw [State.logLimAs_only]
@[simp] theorem State.logLimAs_snap (s : State) (lim code key n w : Nat) (args : Nat → List Word) : (s.logLimAs lim code key n w args).snap = s.snap := by rw [State.logLimAs_only]
@[simp] theorem State.logLimAs_win (s : State) (lim code key n w : Nat) (args : Nat → List Word) : (s.logLimAs lim code key n w args).win = s.win := by rw [State.logLimAs_only]
@[simp] theorem State.logLimAs_bus (s : State) (lim code key n w : Nat) (args : Nat → List Word) : (s.logLimAs lim code key n w args).bus = s.bus := by rw [State.logLimAs_only]
@[simp] theorem State.logLimAs_anvil (s : State) (lim code key n w : Nat) (args : Nat → List Word) : (s.logLimAs lim code key n w args).anvil = s.anvil := by rw [State.logLimAs_only]
@[simp] theorem State.logLimAs_commit (s : State) (lim code key n w : Nat) (args : Nat → List Word) : (s.logLimAs lim code key n w args).commit = s.commit := by rw [State.logLimAs_only]
@[simp] theorem State.logLimAs_pd (s : State) (lim code key n w : Nat) (args : Nat → List Word) : (s.logLimAs lim code key n w args).pd = s.pd := by rw [State.logLimAs_only]
@[simp] theorem State.logLimAs_ports (s : State) (lim code key n w : Nat) (args : Nat → List Word) : (s.logLimAs lim code key n w args).ports = s.ports := by rw [State.logLimAs_only]
@[simp] theorem State.logLimAs_budget (s : State) (lim code key n w : Nat) (args : Nat → List Word) : (s.logLimAs lim code key n w args).budget = s.budget := by rw [State.logLimAs_only]
@[simp] theorem State.logLimAs_queues (s : State) (lim code key n w : Nat) (args : Nat → List Word) : (s.logLimAs lim code key n w args).queues = s.queues := by rw [State.logLimAs_only]
@[simp] theorem State.logLimAs_sched (s : State) (lim code key n w : Nat) (args : Nat → List Word) : (s.logLimAs lim code key n w args).sched = s.sched := by rw [State.logLimAs_only]
@[simp] theorem State.logLimAs_pcs (s : State) (lim code key n w : Nat) (args : Nat → List Word) : (s.logLimAs lim code key n w args).pcs = s.pcs := by rw [State.logLimAs_only]
@[simp] theorem State.logLimAs_store (s : State) (lim code key n w : Nat) (args : Nat → List Word) : (s.logLimAs lim code key n w args).store = s.store := by rw [State.logLimAs_only]
@[simp] theorem State.logLimAs_seam (s : State) (lim code key n w : Nat) (args : Nat → List Word) : (s.logLimAs lim code key n w args).seam = s.seam := by rw [State.logLimAs_only]
@[simp] theorem State.logLimAs_ha (s : State) (lim code key n w : Nat) (args : Nat → List Word) : (s.logLimAs lim code key n w args).ha = s.ha := by rw [State.logLimAs_only]
@[simp] theorem State.logLimAs_snoops (s : State) (lim code key n w : Nat) (args : Nat → List Word) : (s.logLimAs lim code key n w args).snoops = s.snoops := by rw [State.logLimAs_only]
@[simp] theorem State.logLimAs_agents (s : State) (lim code key n w : Nat) (args : Nat → List Word) : (s.logLimAs lim code key n w args).agents = s.agents := by rw [State.logLimAs_only]
@[simp] theorem State.logLimAs_cipher (s : State) (lim code key n w : Nat) (args : Nat → List Word) : (s.logLimAs lim code key n w args).cipher = s.cipher := by rw [State.logLimAs_only]
@[simp] theorem State.logLimAs_phy (s : State) (lim code key n w : Nat) (args : Nat → List Word) : (s.logLimAs lim code key n w args).phy = s.phy := by rw [State.logLimAs_only]
@[simp] theorem State.logLimAs_hk (s : State) (lim code key n w : Nat) (args : Nat → List Word) : (s.logLimAs lim code key n w args).hk = s.hk := by rw [State.logLimAs_only]
@[simp] theorem State.logLimAs_quench (s : State) (lim code key n w : Nat) (args : Nat → List Word) : (s.logLimAs lim code key n w args).quench = s.quench := by rw [State.logLimAs_only]
@[simp] theorem State.logLimAs_repair (s : State) (lim code key n w : Nat) (args : Nat → List Word) : (s.logLimAs lim code key n w args).repair = s.repair := by rw [State.logLimAs_only]
@[simp] theorem State.logLimAs_boot (s : State) (lim code key n w : Nat) (args : Nat → List Word) : (s.logLimAs lim code key n w args).boot = s.boot := by rw [State.logLimAs_only]
@[simp] theorem State.logLimAs_nor (s : State) (lim code key n w : Nat) (args : Nat → List Word) : (s.logLimAs lim code key n w args).nor = s.nor := by rw [State.logLimAs_only]

/-- What `logLim` can change: log, maint, out. -/
theorem State.logLim_only (s : State) (code key n w : Nat) (args : Nat → List Word) : s.logLim code key n w args = { s with log := (s.logLim code key n w args).log, maint := (s.logLim code key n w args).maint, out := (s.logLim code key n w args).out } := State.logLimAs_only s code code key n w args
@[simp] theorem State.logLim_pending (s : State) (code key n w : Nat) (args : Nat → List Word) : (s.logLim code key n w args).pending = s.pending := by rw [State.logLim_only]
@[simp] theorem State.logLim_freeCount (s : State) (code key n w : Nat) (args : Nat → List Word) : (s.logLim code key n w args).freeCount = s.freeCount := by rw [State.logLim_only]
@[simp] theorem State.logLim_ident (s : State) (code key n w : Nat) (args : Nat → List Word) : (s.logLim code key n w args).ident = s.ident := by rw [State.logLim_only]
@[simp] theorem State.logLim_pins (s : State) (code key n w : Nat) (args : Nat → List Word) : (s.logLim code key n w args).pins = s.pins := by rw [State.logLim_only]
@[simp] theorem State.logLim_clk (s : State) (code key n w : Nat) (args : Nat → List Word) : (s.logLim code key n w args).clk = s.clk := by rw [State.logLim_only]
@[simp] theorem State.logLim_dict (s : State) (code key n w : Nat) (args : Nat → List Word) : (s.logLim code key n w args).dict = s.dict := by rw [State.logLim_only]
@[simp] theorem State.logLim_ctr (s : State) (code key n w : Nat) (args : Nat → List Word) : (s.logLim code key n w args).ctr = s.ctr := by rw [State.logLim_only]
@[simp] theorem State.logLim_snap (s : State) (code key n w : Nat) (args : Nat → List Word) : (s.logLim code key n w args).snap = s.snap := by rw [State.logLim_only]
@[simp] theorem State.logLim_win (s : State) (code key n w : Nat) (args : Nat → List Word) : (s.logLim code key n w args).win = s.win := by rw [State.logLim_only]
@[simp] theorem State.logLim_bus (s : State) (code key n w : Nat) (args : Nat → List Word) : (s.logLim code key n w args).bus = s.bus := by rw [State.logLim_only]
@[simp] theorem State.logLim_anvil (s : State) (code key n w : Nat) (args : Nat → List Word) : (s.logLim code key n w args).anvil = s.anvil := by rw [State.logLim_only]
@[simp] theorem State.logLim_commit (s : State) (code key n w : Nat) (args : Nat → List Word) : (s.logLim code key n w args).commit = s.commit := by rw [State.logLim_only]
@[simp] theorem State.logLim_pd (s : State) (code key n w : Nat) (args : Nat → List Word) : (s.logLim code key n w args).pd = s.pd := by rw [State.logLim_only]
@[simp] theorem State.logLim_ports (s : State) (code key n w : Nat) (args : Nat → List Word) : (s.logLim code key n w args).ports = s.ports := by rw [State.logLim_only]
@[simp] theorem State.logLim_budget (s : State) (code key n w : Nat) (args : Nat → List Word) : (s.logLim code key n w args).budget = s.budget := by rw [State.logLim_only]
@[simp] theorem State.logLim_queues (s : State) (code key n w : Nat) (args : Nat → List Word) : (s.logLim code key n w args).queues = s.queues := by rw [State.logLim_only]
@[simp] theorem State.logLim_sched (s : State) (code key n w : Nat) (args : Nat → List Word) : (s.logLim code key n w args).sched = s.sched := by rw [State.logLim_only]
@[simp] theorem State.logLim_pcs (s : State) (code key n w : Nat) (args : Nat → List Word) : (s.logLim code key n w args).pcs = s.pcs := by rw [State.logLim_only]
@[simp] theorem State.logLim_store (s : State) (code key n w : Nat) (args : Nat → List Word) : (s.logLim code key n w args).store = s.store := by rw [State.logLim_only]
@[simp] theorem State.logLim_seam (s : State) (code key n w : Nat) (args : Nat → List Word) : (s.logLim code key n w args).seam = s.seam := by rw [State.logLim_only]
@[simp] theorem State.logLim_ha (s : State) (code key n w : Nat) (args : Nat → List Word) : (s.logLim code key n w args).ha = s.ha := by rw [State.logLim_only]
@[simp] theorem State.logLim_snoops (s : State) (code key n w : Nat) (args : Nat → List Word) : (s.logLim code key n w args).snoops = s.snoops := by rw [State.logLim_only]
@[simp] theorem State.logLim_agents (s : State) (code key n w : Nat) (args : Nat → List Word) : (s.logLim code key n w args).agents = s.agents := by rw [State.logLim_only]
@[simp] theorem State.logLim_cipher (s : State) (code key n w : Nat) (args : Nat → List Word) : (s.logLim code key n w args).cipher = s.cipher := by rw [State.logLim_only]
@[simp] theorem State.logLim_phy (s : State) (code key n w : Nat) (args : Nat → List Word) : (s.logLim code key n w args).phy = s.phy := by rw [State.logLim_only]
@[simp] theorem State.logLim_hk (s : State) (code key n w : Nat) (args : Nat → List Word) : (s.logLim code key n w args).hk = s.hk := by rw [State.logLim_only]
@[simp] theorem State.logLim_quench (s : State) (code key n w : Nat) (args : Nat → List Word) : (s.logLim code key n w args).quench = s.quench := by rw [State.logLim_only]
@[simp] theorem State.logLim_repair (s : State) (code key n w : Nat) (args : Nat → List Word) : (s.logLim code key n w args).repair = s.repair := by rw [State.logLim_only]
@[simp] theorem State.logLim_boot (s : State) (code key n w : Nat) (args : Nat → List Word) : (s.logLim code key n w args).boot = s.boot := by rw [State.logLim_only]
@[simp] theorem State.logLim_nor (s : State) (code key n w : Nat) (args : Nat → List Word) : (s.logLim code key n w args).nor = s.nor := by rw [State.logLim_only]

/-- What `logFrame` can change: log, maint, out. -/
theorem State.logFrame_only (s : State) (code key : Nat) (args : List Word) : s.logFrame code key args = { s with log := (s.logFrame code key args).log, maint := (s.logFrame code key args).maint, out := (s.logFrame code key args).out } := State.logLim_only s code key 1 1 _
@[simp] theorem State.logFrame_pending (s : State) (code key : Nat) (args : List Word) : (s.logFrame code key args).pending = s.pending := by rw [State.logFrame_only]
@[simp] theorem State.logFrame_freeCount (s : State) (code key : Nat) (args : List Word) : (s.logFrame code key args).freeCount = s.freeCount := by rw [State.logFrame_only]
@[simp] theorem State.logFrame_ident (s : State) (code key : Nat) (args : List Word) : (s.logFrame code key args).ident = s.ident := by rw [State.logFrame_only]
@[simp] theorem State.logFrame_pins (s : State) (code key : Nat) (args : List Word) : (s.logFrame code key args).pins = s.pins := by rw [State.logFrame_only]
@[simp] theorem State.logFrame_clk (s : State) (code key : Nat) (args : List Word) : (s.logFrame code key args).clk = s.clk := by rw [State.logFrame_only]
@[simp] theorem State.logFrame_dict (s : State) (code key : Nat) (args : List Word) : (s.logFrame code key args).dict = s.dict := by rw [State.logFrame_only]
@[simp] theorem State.logFrame_ctr (s : State) (code key : Nat) (args : List Word) : (s.logFrame code key args).ctr = s.ctr := by rw [State.logFrame_only]
@[simp] theorem State.logFrame_snap (s : State) (code key : Nat) (args : List Word) : (s.logFrame code key args).snap = s.snap := by rw [State.logFrame_only]
@[simp] theorem State.logFrame_win (s : State) (code key : Nat) (args : List Word) : (s.logFrame code key args).win = s.win := by rw [State.logFrame_only]
@[simp] theorem State.logFrame_bus (s : State) (code key : Nat) (args : List Word) : (s.logFrame code key args).bus = s.bus := by rw [State.logFrame_only]
@[simp] theorem State.logFrame_anvil (s : State) (code key : Nat) (args : List Word) : (s.logFrame code key args).anvil = s.anvil := by rw [State.logFrame_only]
@[simp] theorem State.logFrame_commit (s : State) (code key : Nat) (args : List Word) : (s.logFrame code key args).commit = s.commit := by rw [State.logFrame_only]
@[simp] theorem State.logFrame_pd (s : State) (code key : Nat) (args : List Word) : (s.logFrame code key args).pd = s.pd := by rw [State.logFrame_only]
@[simp] theorem State.logFrame_ports (s : State) (code key : Nat) (args : List Word) : (s.logFrame code key args).ports = s.ports := by rw [State.logFrame_only]
@[simp] theorem State.logFrame_budget (s : State) (code key : Nat) (args : List Word) : (s.logFrame code key args).budget = s.budget := by rw [State.logFrame_only]
@[simp] theorem State.logFrame_queues (s : State) (code key : Nat) (args : List Word) : (s.logFrame code key args).queues = s.queues := by rw [State.logFrame_only]
@[simp] theorem State.logFrame_sched (s : State) (code key : Nat) (args : List Word) : (s.logFrame code key args).sched = s.sched := by rw [State.logFrame_only]
@[simp] theorem State.logFrame_pcs (s : State) (code key : Nat) (args : List Word) : (s.logFrame code key args).pcs = s.pcs := by rw [State.logFrame_only]
@[simp] theorem State.logFrame_store (s : State) (code key : Nat) (args : List Word) : (s.logFrame code key args).store = s.store := by rw [State.logFrame_only]
@[simp] theorem State.logFrame_seam (s : State) (code key : Nat) (args : List Word) : (s.logFrame code key args).seam = s.seam := by rw [State.logFrame_only]
@[simp] theorem State.logFrame_ha (s : State) (code key : Nat) (args : List Word) : (s.logFrame code key args).ha = s.ha := by rw [State.logFrame_only]
@[simp] theorem State.logFrame_snoops (s : State) (code key : Nat) (args : List Word) : (s.logFrame code key args).snoops = s.snoops := by rw [State.logFrame_only]
@[simp] theorem State.logFrame_agents (s : State) (code key : Nat) (args : List Word) : (s.logFrame code key args).agents = s.agents := by rw [State.logFrame_only]
@[simp] theorem State.logFrame_cipher (s : State) (code key : Nat) (args : List Word) : (s.logFrame code key args).cipher = s.cipher := by rw [State.logFrame_only]
@[simp] theorem State.logFrame_phy (s : State) (code key : Nat) (args : List Word) : (s.logFrame code key args).phy = s.phy := by rw [State.logFrame_only]
@[simp] theorem State.logFrame_hk (s : State) (code key : Nat) (args : List Word) : (s.logFrame code key args).hk = s.hk := by rw [State.logFrame_only]
@[simp] theorem State.logFrame_quench (s : State) (code key : Nat) (args : List Word) : (s.logFrame code key args).quench = s.quench := by rw [State.logFrame_only]
@[simp] theorem State.logFrame_repair (s : State) (code key : Nat) (args : List Word) : (s.logFrame code key args).repair = s.repair := by rw [State.logFrame_only]
@[simp] theorem State.logFrame_boot (s : State) (code key : Nat) (args : List Word) : (s.logFrame code key args).boot = s.boot := by rw [State.logFrame_only]
@[simp] theorem State.logFrame_nor (s : State) (code key : Nat) (args : List Word) : (s.logFrame code key args).nor = s.nor := by rw [State.logFrame_only]

/-- What `logRound` can change: log, maint, out. -/
theorem State.logRound_only (s : State) (code key : Nat) (args : List Word) : s.logRound code key args = { s with log := (s.logRound code key args).log, maint := (s.logRound code key args).maint, out := (s.logRound code key args).out } := by
  unfold State.logRound
  simp only []
  split
  · rfl
  · rw [State.log1_only]
@[simp] theorem State.logRound_pending (s : State) (code key : Nat) (args : List Word) : (s.logRound code key args).pending = s.pending := by rw [State.logRound_only]
@[simp] theorem State.logRound_freeCount (s : State) (code key : Nat) (args : List Word) : (s.logRound code key args).freeCount = s.freeCount := by rw [State.logRound_only]
@[simp] theorem State.logRound_ident (s : State) (code key : Nat) (args : List Word) : (s.logRound code key args).ident = s.ident := by rw [State.logRound_only]
@[simp] theorem State.logRound_pins (s : State) (code key : Nat) (args : List Word) : (s.logRound code key args).pins = s.pins := by rw [State.logRound_only]
@[simp] theorem State.logRound_clk (s : State) (code key : Nat) (args : List Word) : (s.logRound code key args).clk = s.clk := by rw [State.logRound_only]
@[simp] theorem State.logRound_dict (s : State) (code key : Nat) (args : List Word) : (s.logRound code key args).dict = s.dict := by rw [State.logRound_only]
@[simp] theorem State.logRound_ctr (s : State) (code key : Nat) (args : List Word) : (s.logRound code key args).ctr = s.ctr := by rw [State.logRound_only]
@[simp] theorem State.logRound_snap (s : State) (code key : Nat) (args : List Word) : (s.logRound code key args).snap = s.snap := by rw [State.logRound_only]
@[simp] theorem State.logRound_win (s : State) (code key : Nat) (args : List Word) : (s.logRound code key args).win = s.win := by rw [State.logRound_only]
@[simp] theorem State.logRound_bus (s : State) (code key : Nat) (args : List Word) : (s.logRound code key args).bus = s.bus := by rw [State.logRound_only]
@[simp] theorem State.logRound_anvil (s : State) (code key : Nat) (args : List Word) : (s.logRound code key args).anvil = s.anvil := by rw [State.logRound_only]
@[simp] theorem State.logRound_commit (s : State) (code key : Nat) (args : List Word) : (s.logRound code key args).commit = s.commit := by rw [State.logRound_only]
@[simp] theorem State.logRound_pd (s : State) (code key : Nat) (args : List Word) : (s.logRound code key args).pd = s.pd := by rw [State.logRound_only]
@[simp] theorem State.logRound_ports (s : State) (code key : Nat) (args : List Word) : (s.logRound code key args).ports = s.ports := by rw [State.logRound_only]
@[simp] theorem State.logRound_budget (s : State) (code key : Nat) (args : List Word) : (s.logRound code key args).budget = s.budget := by rw [State.logRound_only]
@[simp] theorem State.logRound_queues (s : State) (code key : Nat) (args : List Word) : (s.logRound code key args).queues = s.queues := by rw [State.logRound_only]
@[simp] theorem State.logRound_sched (s : State) (code key : Nat) (args : List Word) : (s.logRound code key args).sched = s.sched := by rw [State.logRound_only]
@[simp] theorem State.logRound_pcs (s : State) (code key : Nat) (args : List Word) : (s.logRound code key args).pcs = s.pcs := by rw [State.logRound_only]
@[simp] theorem State.logRound_store (s : State) (code key : Nat) (args : List Word) : (s.logRound code key args).store = s.store := by rw [State.logRound_only]
@[simp] theorem State.logRound_seam (s : State) (code key : Nat) (args : List Word) : (s.logRound code key args).seam = s.seam := by rw [State.logRound_only]
@[simp] theorem State.logRound_ha (s : State) (code key : Nat) (args : List Word) : (s.logRound code key args).ha = s.ha := by rw [State.logRound_only]
@[simp] theorem State.logRound_snoops (s : State) (code key : Nat) (args : List Word) : (s.logRound code key args).snoops = s.snoops := by rw [State.logRound_only]
@[simp] theorem State.logRound_agents (s : State) (code key : Nat) (args : List Word) : (s.logRound code key args).agents = s.agents := by rw [State.logRound_only]
@[simp] theorem State.logRound_cipher (s : State) (code key : Nat) (args : List Word) : (s.logRound code key args).cipher = s.cipher := by rw [State.logRound_only]
@[simp] theorem State.logRound_phy (s : State) (code key : Nat) (args : List Word) : (s.logRound code key args).phy = s.phy := by rw [State.logRound_only]
@[simp] theorem State.logRound_hk (s : State) (code key : Nat) (args : List Word) : (s.logRound code key args).hk = s.hk := by rw [State.logRound_only]
@[simp] theorem State.logRound_quench (s : State) (code key : Nat) (args : List Word) : (s.logRound code key args).quench = s.quench := by rw [State.logRound_only]
@[simp] theorem State.logRound_repair (s : State) (code key : Nat) (args : List Word) : (s.logRound code key args).repair = s.repair := by rw [State.logRound_only]
@[simp] theorem State.logRound_boot (s : State) (code key : Nat) (args : List Word) : (s.logRound code key args).boot = s.boot := by rw [State.logRound_only]
@[simp] theorem State.logRound_nor (s : State) (code key : Nat) (args : List Word) : (s.logRound code key args).nor = s.nor := by rw [State.logRound_only]

/-- What `ignored` can change: log, maint, out. -/
theorem State.ignored_only (s : State) (i x v : Nat) : s.ignored i x v = { s with log := (s.ignored i x v).log, maint := (s.ignored i x v).maint, out := (s.ignored i x v).out } := State.log1_only s _ _
@[simp] theorem State.ignored_pending (s : State) (i x v : Nat) : (s.ignored i x v).pending = s.pending := by rw [State.ignored_only]
@[simp] theorem State.ignored_freeCount (s : State) (i x v : Nat) : (s.ignored i x v).freeCount = s.freeCount := by rw [State.ignored_only]
@[simp] theorem State.ignored_ident (s : State) (i x v : Nat) : (s.ignored i x v).ident = s.ident := by rw [State.ignored_only]
@[simp] theorem State.ignored_pins (s : State) (i x v : Nat) : (s.ignored i x v).pins = s.pins := by rw [State.ignored_only]
@[simp] theorem State.ignored_clk (s : State) (i x v : Nat) : (s.ignored i x v).clk = s.clk := by rw [State.ignored_only]
@[simp] theorem State.ignored_dict (s : State) (i x v : Nat) : (s.ignored i x v).dict = s.dict := by rw [State.ignored_only]
@[simp] theorem State.ignored_ctr (s : State) (i x v : Nat) : (s.ignored i x v).ctr = s.ctr := by rw [State.ignored_only]
@[simp] theorem State.ignored_snap (s : State) (i x v : Nat) : (s.ignored i x v).snap = s.snap := by rw [State.ignored_only]
@[simp] theorem State.ignored_win (s : State) (i x v : Nat) : (s.ignored i x v).win = s.win := by rw [State.ignored_only]
@[simp] theorem State.ignored_bus (s : State) (i x v : Nat) : (s.ignored i x v).bus = s.bus := by rw [State.ignored_only]
@[simp] theorem State.ignored_anvil (s : State) (i x v : Nat) : (s.ignored i x v).anvil = s.anvil := by rw [State.ignored_only]
@[simp] theorem State.ignored_commit (s : State) (i x v : Nat) : (s.ignored i x v).commit = s.commit := by rw [State.ignored_only]
@[simp] theorem State.ignored_pd (s : State) (i x v : Nat) : (s.ignored i x v).pd = s.pd := by rw [State.ignored_only]
@[simp] theorem State.ignored_ports (s : State) (i x v : Nat) : (s.ignored i x v).ports = s.ports := by rw [State.ignored_only]
@[simp] theorem State.ignored_budget (s : State) (i x v : Nat) : (s.ignored i x v).budget = s.budget := by rw [State.ignored_only]
@[simp] theorem State.ignored_queues (s : State) (i x v : Nat) : (s.ignored i x v).queues = s.queues := by rw [State.ignored_only]
@[simp] theorem State.ignored_sched (s : State) (i x v : Nat) : (s.ignored i x v).sched = s.sched := by rw [State.ignored_only]
@[simp] theorem State.ignored_pcs (s : State) (i x v : Nat) : (s.ignored i x v).pcs = s.pcs := by rw [State.ignored_only]
@[simp] theorem State.ignored_store (s : State) (i x v : Nat) : (s.ignored i x v).store = s.store := by rw [State.ignored_only]
@[simp] theorem State.ignored_seam (s : State) (i x v : Nat) : (s.ignored i x v).seam = s.seam := by rw [State.ignored_only]
@[simp] theorem State.ignored_ha (s : State) (i x v : Nat) : (s.ignored i x v).ha = s.ha := by rw [State.ignored_only]
@[simp] theorem State.ignored_snoops (s : State) (i x v : Nat) : (s.ignored i x v).snoops = s.snoops := by rw [State.ignored_only]
@[simp] theorem State.ignored_agents (s : State) (i x v : Nat) : (s.ignored i x v).agents = s.agents := by rw [State.ignored_only]
@[simp] theorem State.ignored_cipher (s : State) (i x v : Nat) : (s.ignored i x v).cipher = s.cipher := by rw [State.ignored_only]
@[simp] theorem State.ignored_phy (s : State) (i x v : Nat) : (s.ignored i x v).phy = s.phy := by rw [State.ignored_only]
@[simp] theorem State.ignored_hk (s : State) (i x v : Nat) : (s.ignored i x v).hk = s.hk := by rw [State.ignored_only]
@[simp] theorem State.ignored_quench (s : State) (i x v : Nat) : (s.ignored i x v).quench = s.quench := by rw [State.ignored_only]
@[simp] theorem State.ignored_repair (s : State) (i x v : Nat) : (s.ignored i x v).repair = s.repair := by rw [State.ignored_only]
@[simp] theorem State.ignored_boot (s : State) (i x v : Nat) : (s.ignored i x v).boot = s.boot := by rw [State.ignored_only]
@[simp] theorem State.ignored_nor (s : State) (i x v : Nat) : (s.ignored i x v).nor = s.nor := by rw [State.ignored_only]

/-- What `wrongTile` can change: log, maint, out. -/
theorem State.wrongTile_only (s : State) (i x v : Nat) : s.wrongTile i x v = { s with log := (s.wrongTile i x v).log, maint := (s.wrongTile i x v).maint, out := (s.wrongTile i x v).out } := State.log1_only s _ _
@[simp] theorem State.wrongTile_pending (s : State) (i x v : Nat) : (s.wrongTile i x v).pending = s.pending := by rw [State.wrongTile_only]
@[simp] theorem State.wrongTile_freeCount (s : State) (i x v : Nat) : (s.wrongTile i x v).freeCount = s.freeCount := by rw [State.wrongTile_only]
@[simp] theorem State.wrongTile_ident (s : State) (i x v : Nat) : (s.wrongTile i x v).ident = s.ident := by rw [State.wrongTile_only]
@[simp] theorem State.wrongTile_pins (s : State) (i x v : Nat) : (s.wrongTile i x v).pins = s.pins := by rw [State.wrongTile_only]
@[simp] theorem State.wrongTile_clk (s : State) (i x v : Nat) : (s.wrongTile i x v).clk = s.clk := by rw [State.wrongTile_only]
@[simp] theorem State.wrongTile_dict (s : State) (i x v : Nat) : (s.wrongTile i x v).dict = s.dict := by rw [State.wrongTile_only]
@[simp] theorem State.wrongTile_ctr (s : State) (i x v : Nat) : (s.wrongTile i x v).ctr = s.ctr := by rw [State.wrongTile_only]
@[simp] theorem State.wrongTile_snap (s : State) (i x v : Nat) : (s.wrongTile i x v).snap = s.snap := by rw [State.wrongTile_only]
@[simp] theorem State.wrongTile_win (s : State) (i x v : Nat) : (s.wrongTile i x v).win = s.win := by rw [State.wrongTile_only]
@[simp] theorem State.wrongTile_bus (s : State) (i x v : Nat) : (s.wrongTile i x v).bus = s.bus := by rw [State.wrongTile_only]
@[simp] theorem State.wrongTile_anvil (s : State) (i x v : Nat) : (s.wrongTile i x v).anvil = s.anvil := by rw [State.wrongTile_only]
@[simp] theorem State.wrongTile_commit (s : State) (i x v : Nat) : (s.wrongTile i x v).commit = s.commit := by rw [State.wrongTile_only]
@[simp] theorem State.wrongTile_pd (s : State) (i x v : Nat) : (s.wrongTile i x v).pd = s.pd := by rw [State.wrongTile_only]
@[simp] theorem State.wrongTile_ports (s : State) (i x v : Nat) : (s.wrongTile i x v).ports = s.ports := by rw [State.wrongTile_only]
@[simp] theorem State.wrongTile_budget (s : State) (i x v : Nat) : (s.wrongTile i x v).budget = s.budget := by rw [State.wrongTile_only]
@[simp] theorem State.wrongTile_queues (s : State) (i x v : Nat) : (s.wrongTile i x v).queues = s.queues := by rw [State.wrongTile_only]
@[simp] theorem State.wrongTile_sched (s : State) (i x v : Nat) : (s.wrongTile i x v).sched = s.sched := by rw [State.wrongTile_only]
@[simp] theorem State.wrongTile_pcs (s : State) (i x v : Nat) : (s.wrongTile i x v).pcs = s.pcs := by rw [State.wrongTile_only]
@[simp] theorem State.wrongTile_store (s : State) (i x v : Nat) : (s.wrongTile i x v).store = s.store := by rw [State.wrongTile_only]
@[simp] theorem State.wrongTile_seam (s : State) (i x v : Nat) : (s.wrongTile i x v).seam = s.seam := by rw [State.wrongTile_only]
@[simp] theorem State.wrongTile_ha (s : State) (i x v : Nat) : (s.wrongTile i x v).ha = s.ha := by rw [State.wrongTile_only]
@[simp] theorem State.wrongTile_snoops (s : State) (i x v : Nat) : (s.wrongTile i x v).snoops = s.snoops := by rw [State.wrongTile_only]
@[simp] theorem State.wrongTile_agents (s : State) (i x v : Nat) : (s.wrongTile i x v).agents = s.agents := by rw [State.wrongTile_only]
@[simp] theorem State.wrongTile_cipher (s : State) (i x v : Nat) : (s.wrongTile i x v).cipher = s.cipher := by rw [State.wrongTile_only]
@[simp] theorem State.wrongTile_phy (s : State) (i x v : Nat) : (s.wrongTile i x v).phy = s.phy := by rw [State.wrongTile_only]
@[simp] theorem State.wrongTile_hk (s : State) (i x v : Nat) : (s.wrongTile i x v).hk = s.hk := by rw [State.wrongTile_only]
@[simp] theorem State.wrongTile_quench (s : State) (i x v : Nat) : (s.wrongTile i x v).quench = s.quench := by rw [State.wrongTile_only]
@[simp] theorem State.wrongTile_repair (s : State) (i x v : Nat) : (s.wrongTile i x v).repair = s.repair := by rw [State.wrongTile_only]
@[simp] theorem State.wrongTile_boot (s : State) (i x v : Nat) : (s.wrongTile i x v).boot = s.boot := by rw [State.wrongTile_only]
@[simp] theorem State.wrongTile_nor (s : State) (i x v : Nat) : (s.wrongTile i x v).nor = s.nor := by rw [State.wrongTile_only]

end Sys2Proof.Machine
end

