-- ==== Sys2Proof/Laws/Frame.lean ====
section
/-!
SUPPORT. Frames by masks: `Fr m s t` says that no part of the state but those of the mask `m` differs between `s` and `t`. One lemma an operation, in the files
that follow, says which parts it can touch; `Fr.only` reads a mask as the list of a frame.
-/
namespace Sys2Proof.Machine
open Sys2Proof

/-- The bit of a part of the state in a mask. -/
def Field.bit : Field → Nat
  | .pending => 0
  | .freeCount => 1
  | .out => 2
  | .ident => 3
  | .pins => 4
  | .clk => 5
  | .dict => 6
  | .ctr => 7
  | .snap => 8
  | .log => 9
  | .win => 10
  | .bus => 11
  | .maint => 12
  | .anvil => 13
  | .commit => 14
  | .pd => 15
  | .ports => 16
  | .budget => 17
  | .queues => 18
  | .sched => 19
  | .pcs => 20
  | .store => 21
  | .seam => 22
  | .ha => 23
  | .snoops => 24
  | .agents => 25
  | .cipher => 26
  | .phy => 27
  | .hk => 28
  | .quench => 29
  | .repair => 30
  | .boot => 31
  | .nor => 32

/-- Every part of the state. -/
def Field.all : List Field :=
  [.pending, .freeCount, .out, .ident, .pins, .clk, .dict, .ctr, .snap, .log, .win, .bus, .maint, .anvil, .commit, .pd, .ports, .budget, .queues, .sched, .pcs, .store, .seam, .ha, .snoops, .agents, .cipher, .phy, .hk, .quench, .repair, .boot, .nor]

theorem Field.mem_all (f : Field) : f ∈ Field.all := by cases f <;> decide

/-- No part of the state but those of the mask differs. -/
def Fr (m : Nat) (s t : State) : Prop := ∀ f : Field, m.testBit f.bit = false → s.same t f

variable {m M : Nat} {s₀ s t : State}

theorem State.same_refl (s : State) (f : Field) : s.same s f := by cases f <;> rfl

theorem State.same_trans {u : State} {f : Field} (h : s.same t f) (k : t.same u f) : s.same u f := by
  cases f <;> exact Eq.trans k h

theorem State.eq_of_same (h : ∀ f : Field, s.same t f) : t = s := by
  cases s; cases t
  simp only [State.mk.injEq]
  exact ⟨h .pending, h .freeCount, h .out, h .ident, h .pins, h .clk, h .dict, h .ctr, h .snap, h .log, h .win, h .bus, h .maint, h .anvil, h .commit, h .pd, h .ports, h .budget, h .queues, h .sched, h .pcs, h .store, h .seam, h .ha, h .snoops, h .agents, h .cipher, h .phy, h .hk, h .quench, h .repair, h .boot, h .nor⟩

theorem Fr.refl (s : State) : Fr M s s := fun f _ => s.same_refl f

theorem Fr.trans {u : State} (h : Fr M s t) (k : Fr M t u) : Fr M s u := fun f hf => State.same_trans (h f hf) (k f hf)

theorem Fr.mono (h : Fr m s t) (hm : m &&& M = m) : Fr M s t := by
  intro f hf
  refine h f ?_
  have := congrArg (fun x => x.testBit f.bit) hm
  simp only [Nat.testBit_land, hf, Bool.and_false] at this
  exact this.symm

/-- An operation after others, its mask within theirs. -/
theorem Fr.then (h : Fr M s₀ s) (k : Fr m s t) (hm : m &&& M = m) : Fr M s₀ t := h.trans (k.mono hm)

/-- A frame read from a mask. -/
theorem Fr.only {l : List Field} (h : Fr M s t) (hl : Field.all.all (fun f => l.contains f || !M.testBit f.bit) = true) : OnlyChanges l s t := by
  intro f hf
  refine h f ?_
  have := List.all_eq_true.mp hl f f.mem_all
  simpa [hf] using this

/-- A record update that touches parts of the mask alone. -/
theorem Fr.upd {x0 : List Instr} {x1 : Nat} {x2 : List Out} {x3 : Ident} {x4 : Pins} {x5 : Clock} {x6 : Dict} {x7 : SMap Nat} {x8 : Snap} {x9 : Log} {x10 : PathSt} {x11 : PathSt} {x12 : Maint} {x13 : Anvil} {x14 : Commit} {x15 : Power} {x16 : SMap PortSt} {x17 : Budget} {x18 : SMap QSt} {x19 : Sched} {x20 : SMap PcSt} {x21 : Store} {x22 : Seam} {x23 : Home} {x24 : List SnoopSt} {x25 : SMap ALine} {x26 : Cipher} {x27 : Phy} {x28 : Hk} {x29 : Quench} {x30 : Repair} {x31 : Boot} {x32 : List Host.Cell} (h : Fr M s₀ s) (e : x0 = s.pending)
    (h1 : M.testBit 1 = true ∨ x1 = s.freeCount := by first | with_unfolding_all exact Or.inl rfl | exact Or.inr rfl)
    (h2 : M.testBit 2 = true ∨ x2 = s.out := by first | with_unfolding_all exact Or.inl rfl | exact Or.inr rfl)
    (h3 : M.testBit 3 = true ∨ x3 = s.ident := by first | with_unfolding_all exact Or.inl rfl | exact Or.inr rfl)
    (h4 : M.testBit 4 = true ∨ x4 = s.pins := by first | with_unfolding_all exact Or.inl rfl | exact Or.inr rfl)
    (h5 : M.testBit 5 = true ∨ x5 = s.clk := by first | with_unfolding_all exact Or.inl rfl | exact Or.inr rfl)
    (h6 : M.testBit 6 = true ∨ x6 = s.dict := by first | with_unfolding_all exact Or.inl rfl | exact Or.inr rfl)
    (h7 : M.testBit 7 = true ∨ x7 = s.ctr := by first | with_unfolding_all exact Or.inl rfl | exact Or.inr rfl)
    (h8 : M.testBit 8 = true ∨ x8 = s.snap := by first | with_unfolding_all exact Or.inl rfl | exact Or.inr rfl)
    (h9 : M.testBit 9 = true ∨ x9 = s.log := by first | with_unfolding_all exact Or.inl rfl | exact Or.inr rfl)
    (h10 : M.testBit 10 = true ∨ x10 = s.win := by first | with_unfolding_all exact Or.inl rfl | exact Or.inr rfl)
    (h11 : M.testBit 11 = true ∨ x11 = s.bus := by first | with_unfolding_all exact Or.inl rfl | exact Or.inr rfl)
    (h12 : M.testBit 12 = true ∨ x12 = s.maint := by first | with_unfolding_all exact Or.inl rfl | exact Or.inr rfl)
    (h13 : M.testBit 13 = true ∨ x13 = s.anvil := by first | with_unfolding_all exact Or.inl rfl | exact Or.inr rfl)
    (h14 : M.testBit 14 = true ∨ x14 = s.commit := by first | with_unfolding_all exact Or.inl rfl | exact Or.inr rfl)
    (h15 : M.testBit 15 = true ∨ x15 = s.pd := by first | with_unfolding_all exact Or.inl rfl | exact Or.inr rfl)
    (h16 : M.testBit 16 = true ∨ x16 = s.ports := by first | with_unfolding_all exact Or.inl rfl | exact Or.inr rfl)
    (h17 : M.testBit 17 = true ∨ x17 = s.budget := by first | with_unfolding_all exact Or.inl rfl | exact Or.inr rfl)
    (h18 : M.testBit 18 = true ∨ x18 = s.queues := by first | with_unfolding_all exact Or.inl rfl | exact Or.inr rfl)
    (h19 : M.testBit 19 = true ∨ x19 = s.sched := by first | with_unfolding_all exact Or.inl rfl | exact Or.inr rfl)
    (h20 : M.testBit 20 = true ∨ x20 = s.pcs := by first | with_unfolding_all exact Or.inl rfl | exact Or.inr rfl)
    (h21 : M.testBit 21 = true ∨ x21 = s.store := by first | with_unfolding_all exact Or.inl rfl | exact Or.inr rfl)
    (h22 : M.testBit 22 = true ∨ x22 = s.seam := by first | with_unfolding_all exact Or.inl rfl | exact Or.inr rfl)
    (h23 : M.testBit 23 = true ∨ x23 = s.ha := by first | with_unfolding_all exact Or.inl rfl | exact Or.inr rfl)
    (h24 : M.testBit 24 = true ∨ x24 = s.snoops := by first | with_unfolding_all exact Or.inl rfl | exact Or.inr rfl)
    (h25 : M.testBit 25 = true ∨ x25 = s.agents := by first | with_unfolding_all exact Or.inl rfl | exact Or.inr rfl)
    (h26 : M.testBit 26 = true ∨ x26 = s.cipher := by first | with_unfolding_all exact Or.inl rfl | exact Or.inr rfl)
    (h27 : M.testBit 27 = true ∨ x27 = s.phy := by first | with_unfolding_all exact Or.inl rfl | exact Or.inr rfl)
    (h28 : M.testBit 28 = true ∨ x28 = s.hk := by first | with_unfolding_all exact Or.inl rfl | exact Or.inr rfl)
    (h29 : M.testBit 29 = true ∨ x29 = s.quench := by first | with_unfolding_all exact Or.inl rfl | exact Or.inr rfl)
    (h30 : M.testBit 30 = true ∨ x30 = s.repair := by first | with_unfolding_all exact Or.inl rfl | exact Or.inr rfl)
    (h31 : M.testBit 31 = true ∨ x31 = s.boot := by first | with_unfolding_all exact Or.inl rfl | exact Or.inr rfl)
    (h32 : M.testBit 32 = true ∨ x32 = s.nor := by first | with_unfolding_all exact Or.inl rfl | exact Or.inr rfl) :
    Fr M s₀ ⟨x0, x1, x2, x3, x4, x5, x6, x7, x8, x9, x10, x11, x12, x13, x14, x15, x16, x17, x18, x19, x20, x21, x22, x23, x24, x25, x26, x27, x28, x29, x30, x31, x32⟩ := by
  refine h.trans (fun f hf => ?_)
  cases f
  · exact e
  · exact h1.resolve_left (fun z => by rw [show Field.bit .freeCount = 1 from rfl] at hf; rw [hf] at z; cases z)
  · exact h2.resolve_left (fun z => by rw [show Field.bit .out = 2 from rfl] at hf; rw [hf] at z; cases z)
  · exact h3.resolve_left (fun z => by rw [show Field.bit .ident = 3 from rfl] at hf; rw [hf] at z; cases z)
  · exact h4.resolve_left (fun z => by rw [show Field.bit .pins = 4 from rfl] at hf; rw [hf] at z; cases z)
  · exact h5.resolve_left (fun z => by rw [show Field.bit .clk = 5 from rfl] at hf; rw [hf] at z; cases z)
  · exact h6.resolve_left (fun z => by rw [show Field.bit .dict = 6 from rfl] at hf; rw [hf] at z; cases z)
  · exact h7.resolve_left (fun z => by rw [show Field.bit .ctr = 7 from rfl] at hf; rw [hf] at z; cases z)
  · exact h8.resolve_left (fun z => by rw [show Field.bit .snap = 8 from rfl] at hf; rw [hf] at z; cases z)
  · exact h9.resolve_left (fun z => by rw [show Field.bit .log = 9 from rfl] at hf; rw [hf] at z; cases z)
  · exact h10.resolve_left (fun z => by rw [show Field.bit .win = 10 from rfl] at hf; rw [hf] at z; cases z)
  · exact h11.resolve_left (fun z => by rw [show Field.bit .bus = 11 from rfl] at hf; rw [hf] at z; cases z)
  · exact h12.resolve_left (fun z => by rw [show Field.bit .maint = 12 from rfl] at hf; rw [hf] at z; cases z)
  · exact h13.resolve_left (fun z => by rw [show Field.bit .anvil = 13 from rfl] at hf; rw [hf] at z; cases z)
  · exact h14.resolve_left (fun z => by rw [show Field.bit .commit = 14 from rfl] at hf; rw [hf] at z; cases z)
  · exact h15.resolve_left (fun z => by rw [show Field.bit .pd = 15 from rfl] at hf; rw [hf] at z; cases z)
  · exact h16.resolve_left (fun z => by rw [show Field.bit .ports = 16 from rfl] at hf; rw [hf] at z; cases z)
  · exact h17.resolve_left (fun z => by rw [show Field.bit .budget = 17 from rfl] at hf; rw [hf] at z; cases z)
  · exact h18.resolve_left (fun z => by rw [show Field.bit .queues = 18 from rfl] at hf; rw [hf] at z; cases z)
  · exact h19.resolve_left (fun z => by rw [show Field.bit .sched = 19 from rfl] at hf; rw [hf] at z; cases z)
  · exact h20.resolve_left (fun z => by rw [show Field.bit .pcs = 20 from rfl] at hf; rw [hf] at z; cases z)
  · exact h21.resolve_left (fun z => by rw [show Field.bit .store = 21 from rfl] at hf; rw [hf] at z; cases z)
  · exact h22.resolve_left (fun z => by rw [show Field.bit .seam = 22 from rfl] at hf; rw [hf] at z; cases z)
  · exact h23.resolve_left (fun z => by rw [show Field.bit .ha = 23 from rfl] at hf; rw [hf] at z; cases z)
  · exact h24.resolve_left (fun z => by rw [show Field.bit .snoops = 24 from rfl] at hf; rw [hf] at z; cases z)
  · exact h25.resolve_left (fun z => by rw [show Field.bit .agents = 25 from rfl] at hf; rw [hf] at z; cases z)
  · exact h26.resolve_left (fun z => by rw [show Field.bit .cipher = 26 from rfl] at hf; rw [hf] at z; cases z)
  · exact h27.resolve_left (fun z => by rw [show Field.bit .phy = 27 from rfl] at hf; rw [hf] at z; cases z)
  · exact h28.resolve_left (fun z => by rw [show Field.bit .hk = 28 from rfl] at hf; rw [hf] at z; cases z)
  · exact h29.resolve_left (fun z => by rw [show Field.bit .quench = 29 from rfl] at hf; rw [hf] at z; cases z)
  · exact h30.resolve_left (fun z => by rw [show Field.bit .repair = 30 from rfl] at hf; rw [hf] at z; cases z)
  · exact h31.resolve_left (fun z => by rw [show Field.bit .boot = 31 from rfl] at hf; rw [hf] at z; cases z)
  · exact h32.resolve_left (fun z => by rw [show Field.bit .nor = 32 from rfl] at hf; rw [hf] at z; cases z)

theorem Fr.foldl {α : Type} (l : List α) (f : State → α → State) (h : Fr M s₀ s) (hf : ∀ a x, Fr M s₀ a → Fr M s₀ (f a x)) :
    Fr M s₀ (l.foldl f s) := by
  induction l generalizing s with
  | nil => exact h
  | cons x r ih => exact ih (hf s x h)

theorem Fr.foldlFst {α β : Type} (l : List α) (f : State × β → α → State × β) (a : State × β) (h : Fr M s₀ a.1)
    (hf : ∀ a x, Fr M s₀ a.1 → Fr M s₀ (f a x).1) : Fr M s₀ (l.foldl f a).1 := by
  induction l generalizing a with
  | nil => exact h
  | cons x r ih => exact ih _ (hf a x h)

theorem Fr.ite {c : Prop} [Decidable c] {a b : State} (ha : Fr M s₀ a) (hb : Fr M s₀ b) : Fr M s₀ (if c then a else b) := by
  split
  · exact ha
  · exact hb

theorem Fr.getD {o : Option State} (h : ∀ t, o = some t → Fr M s₀ t) (hs : Fr M s₀ s) : Fr M s₀ (o.getD s) := by
  cases o with
  | none => exact hs
  | some t => exact h t rfl

end Sys2Proof.Machine
end

