-- ==== Sys2Proof/Laws/SMap.lean ====
section
/-!
SUPPORT. Laws of the sparse map: what is read after a write, and that every operation keeps the canonical form.
-/
namespace Sys2Proof.SMap
open Sys2Proof
variable {α : Type}

@[simp] theorem look_nil (k : Nat) : look ([] : SMap α) k = none := rfl

theorem look_cons (a : Nat) (v : α) (m : SMap α) (k : Nat) : look ((a, v) :: m) k = if a = k then some v else look m k := rfl

@[simp] theorem look_del_same (m : SMap α) (k : Nat) : look (del m k) k = none := by
  induction m with
  | nil => rfl
  | cons e r ih =>
    obtain ⟨a, v⟩ := e
    by_cases h : a = k <;> simp [del, look, h, ih]

theorem look_del_ne (m : SMap α) {k x : Nat} (h : x ≠ k) : look (del m k) x = look m x := by
  induction m with
  | nil => rfl
  | cons e r ih =>
    obtain ⟨a, v⟩ := e
    by_cases ha : a = k
    · subst ha
      simp [del, look, ih, Ne.symm h]
    · simp [del, look, ha, ih]

theorem look_ins_same (m : SMap α) (k : Nat) (v : α) (h : look m k = none) : look (ins m k v) k = some v := by
  induction m with
  | nil => simp [ins, look]
  | cons e r ih =>
    obtain ⟨a, w⟩ := e
    by_cases ha : a = k
    · simp [look, ha] at h
    · simp only [look_cons, if_neg ha] at h
      by_cases hk : k < a <;> simp [ins, look, ha, hk, ih h]

theorem look_ins_ne (m : SMap α) {k x : Nat} (v : α) (h : x ≠ k) : look (ins m k v) x = look m x := by
  induction m with
  | nil => simp [ins, look, Ne.symm h]
  | cons e r ih =>
    obtain ⟨a, w⟩ := e
    by_cases hk : k < a <;> simp [ins, look, hk, ih, Ne.symm h]

@[simp] theorem look_set_same (m : SMap α) (k : Nat) (v : α) : look (set m k v) k = some v :=
  look_ins_same _ _ _ (look_del_same m k)

theorem look_set_ne (m : SMap α) {k x : Nat} (v : α) (h : x ≠ k) : look (set m k v) x = look m x := by
  rw [set, look_ins_ne _ _ h, look_del_ne _ h]

@[simp] theorem getD_set_same (m : SMap α) (k : Nat) (v d : α) : getD (set m k v) k d = v := by simp [getD]

theorem getD_set_ne (m : SMap α) {k x : Nat} (v d : α) (h : x ≠ k) : getD (set m k v) x d = getD m x d := by
  simp [getD, look_set_ne m v h]

@[simp] theorem getD_del_same (m : SMap α) (k : Nat) (d : α) : getD (del m k) k d = d := by simp [getD]

theorem getD_del_ne (m : SMap α) {k x : Nat} (d : α) (h : x ≠ k) : getD (del m k) x d = getD m x d := by
  simp [getD, look_del_ne m h]

/-- A read after a write of the same key gives the value written. -/
@[simp] theorem getD_put_same [DecidableEq α] (d : α) (m : SMap α) (k : Nat) (v : α) : getD (put d m k v) k d = v := by
  unfold put
  split
  · simp [*]
  · simp

/-- A write leaves every other key alone. -/
theorem getD_put_ne [DecidableEq α] (d : α) (m : SMap α) {k x : Nat} (v : α) (h : x ≠ k) : getD (put d m k v) x d = getD m x d := by
  unfold put
  split
  · exact getD_del_ne m d h
  · exact getD_set_ne m v d h

/-! ### The canonical form -/

theorem rising_iff (m : SMap α) : rising m = true ↔ m.Pairwise (fun a b => a.1 < b.1) := by
  induction m with
  | nil => simp [rising]
  | cons e r ih =>
    cases r with
    | nil => simp [rising]
    | cons e' r' =>
      obtain ⟨a, v⟩ := e
      obtain ⟨b, w⟩ := e'
      simp only [rising, Bool.and_eq_true, decide_eq_true_eq, ih, List.pairwise_cons, List.mem_cons]
      constructor
      · rintro ⟨hab, hb, hr⟩
        refine ⟨?_, hb, hr⟩
        rintro y (rfl | hy)
        · exact hab
        · exact Nat.lt_trans hab (hb y hy)
      · rintro ⟨h1, hb, hr⟩
        exact ⟨h1 _ (.inl rfl), hb, hr⟩

theorem mem_del {m : SMap α} {k : Nat} {e : Nat × α} (h : e ∈ del m k) : e ∈ m ∧ e.1 ≠ k := by
  induction m with
  | nil => simp [del] at h
  | cons x r ih =>
    obtain ⟨a, v⟩ := x
    by_cases ha : a = k
    · simp only [del, ha, if_true] at h
      exact ⟨.tail _ (ih h).1, (ih h).2⟩
    · simp only [del, ha, if_false, List.mem_cons] at h
      rcases h with rfl | h
      · exact ⟨.head _, ha⟩
      · exact ⟨.tail _ (ih h).1, (ih h).2⟩

theorem mem_ins {m : SMap α} {k : Nat} {v : α} {e : Nat × α} (h : e ∈ ins m k v) : e = (k, v) ∨ e ∈ m := by
  induction m with
  | nil => simpa [ins] using h
  | cons x r ih =>
    obtain ⟨a, w⟩ := x
    by_cases hk : k < a
    · simpa [ins, hk] using h
    · simp only [ins, hk, if_false, List.mem_cons] at h
      rcases h with rfl | h
      · exact .inr (.head _)
      · exact (ih h).imp id (.tail _)

theorem rising_del {m : SMap α} (k : Nat) (h : rising m = true) : rising (del m k) = true := by
  rw [rising_iff] at h ⊢
  induction m with
  | nil => exact .nil
  | cons x r ih =>
    obtain ⟨a, v⟩ := x
    rw [List.pairwise_cons] at h
    by_cases ha : a = k
    · simpa [del, ha] using ih h.2
    · simp only [del, ha, if_false, List.pairwise_cons]
      exact ⟨fun e he => h.1 e (mem_del he).1, ih h.2⟩

theorem rising_ins {m : SMap α} (k : Nat) (v : α) (h : rising m = true) (hk : ∀ e ∈ m, e.1 ≠ k) : rising (ins m k v) = true := by
  rw [rising_iff] at h ⊢
  induction m with
  | nil => simp [ins]
  | cons x r ih =>
    obtain ⟨a, w⟩ := x
    rw [List.pairwise_cons] at h
    have hka : a ≠ k := hk _ (.head _)
    by_cases hlt : k < a
    · simp only [ins, hlt, if_true, List.pairwise_cons, List.mem_cons]
      refine ⟨?_, h.1, h.2⟩
      rintro e (rfl | he)
      · exact hlt
      · exact Nat.lt_trans hlt (h.1 e he)
    · simp only [ins, hlt, if_false, List.pairwise_cons]
      refine ⟨?_, ih h.2 (fun e he => hk e (.tail _ he))⟩
      intro e he
      rcases mem_ins he with rfl | he
      · change a < k
        omega
      · exact h.1 e he

theorem rising_set {m : SMap α} (k : Nat) (v : α) (h : rising m = true) : rising (set m k v) = true :=
  rising_ins k v (rising_del k h) (fun _ he => (mem_del he).2)

theorem wf_iff [DecidableEq α] (d : α) (m : SMap α) : wf d m = true ↔ rising m = true ∧ ∀ e ∈ m, e.2 ≠ d := by
  simp [wf, List.all_eq_true]

@[simp] theorem wf_nil [DecidableEq α] (d : α) : wf d ([] : SMap α) = true := rfl

theorem wf_del [DecidableEq α] {d : α} {m : SMap α} (k : Nat) (h : wf d m = true) : wf d (del m k) = true := by
  rw [wf_iff] at h ⊢
  exact ⟨rising_del k h.1, fun e he => h.2 e (mem_del he).1⟩

theorem wf_set [DecidableEq α] {d : α} {m : SMap α} (k : Nat) {v : α} (hv : v ≠ d) (h : wf d m = true) : wf d (set m k v) = true := by
  rw [wf_iff] at h ⊢
  refine ⟨rising_set k v h.1, fun e he => ?_⟩
  rcases mem_ins he with rfl | he
  · exact hv
  · exact h.2 e (mem_del he).1

/-- A write keeps the canonical form. -/
theorem wf_put [DecidableEq α] {d : α} {m : SMap α} (k : Nat) (v : α) (h : wf d m = true) : wf d (put d m k v) = true := by
  unfold put
  split
  · exact wf_del k h
  · exact wf_set k ‹_› h

theorem wf_filter [DecidableEq α] {d : α} {m : SMap α} (f : Nat × α → Bool) (h : wf d m = true) : wf d (m.filter f) = true := by
  rw [wf_iff, rising_iff] at h ⊢
  exact ⟨h.1.filter f, fun e he => h.2 e (List.mem_filter.mp he).1⟩

/-- Nothing is listed below the least key. -/
theorem look_none_of_lt {m : SMap α} {k : Nat} (h : ∀ e ∈ m, k < e.1) : look m k = none := by
  induction m with
  | nil => rfl
  | cons x r ih =>
    obtain ⟨a, v⟩ := x
    have : a ≠ k := (Nat.ne_of_lt (h _ (.head _))).symm
    simp [look, this, ih (fun e he => h e (.tail _ he))]

end Sys2Proof.SMap
end

