-- ==== Sys2Proof/Laws/Kept.lean ====
section
/-!
SUPPORT. What every operation keeps (`Kept`): one lemma an operation, each citing those of the operations it calls.
-/
namespace Sys2Proof.Machine
open Sys2Proof

/-- What no command ever does, whatever else it changes: it takes nothing from the queue and puts nothing there, does not change which tile this is, withdraws
nothing that was driven at a face, uses no free value twice, and leaves each memory in its canonical form. -/
structure Kept (s t : State) : Prop where
  pending : t.pending = s.pending
  ident : t.ident = s.ident
  free : s.freeCount ≤ t.freeCount
  out : s.out <+: t.out
  store : SMap.wf 0 s.store.data = true → SMap.wf 0 t.store.data = true
  nor : SMap.wf 0xFF s.nor = true → SMap.wf 0xFF t.nor = true

variable {s₀ s t : State}

theorem Kept.refl (s : State) : Kept s s := ⟨rfl, rfl, le_refl _, List.prefix_refl _, id, id⟩

theorem Kept.trans {u : State} (h : Kept s t) (k : Kept t u) : Kept s u :=
  ⟨k.pending.trans h.pending, k.ident.trans h.ident, h.free.trans k.free, h.out.trans k.out, k.store ∘ h.store, k.nor ∘ h.nor⟩

/-- A record update that touches none of what is kept. -/
theorem Kept.upd {p fc o i pins clk dict ctr snap log win bus maint anvil commit pd ports budget queues sched pcs} {st : Store}
    {seam ha snoops agents cipher phy hk quench repair boot nor} (h : Kept s₀ s) (hp : p = s.pending) (hf : fc = s.freeCount) (ho : o = s.out)
    (hi : i = s.ident) (hs : st.data = s.store.data) (hn : nor = s.nor) :
    Kept s₀ ⟨p, fc, o, i, pins, clk, dict, ctr, snap, log, win, bus, maint, anvil, commit, pd, ports, budget, queues, sched, pcs, st, seam, ha, snoops,
      agents, cipher, phy, hk, quench, repair, boot, nor⟩ := by
  subst hp hf ho hi hn
  exact h.trans ⟨rfl, rfl, le_refl _, List.prefix_refl _, fun w => by simpa [hs] using w, id⟩

theorem Kept.foldl {α : Type} (l : List α) (f : State → α → State) (h : Kept s₀ s) (hf : ∀ a x, Kept s₀ a → Kept s₀ (f a x)) :
    Kept s₀ (l.foldl f s) := by
  induction l generalizing s with
  | nil => exact h
  | cons x r ih => exact ih (hf s x h)

theorem Kept.foldlFst {α β : Type} (l : List α) (f : State × β → α → State × β) (a : State × β) (h : Kept s₀ a.1)
    (hf : ∀ a x, Kept s₀ a.1 → Kept s₀ (f a x).1) : Kept s₀ (l.foldl f a).1 := by
  induction l generalizing a with
  | nil => exact h
  | cons x r ih => exact ih _ (hf a x h)

theorem Kept.emit {o : Out} (h : Kept s₀ s) : Kept s₀ (s.emit o) :=
  h.trans ⟨rfl, rfl, le_refl _, List.prefix_append _ _, id, id⟩

theorem Kept.draw (h : Kept s₀ s) : Kept s₀ s.draw :=
  h.trans ⟨rfl, rfl, Nat.le_succ _, List.prefix_refl _, id, id⟩

theorem Kept.ite {c : Prop} [Decidable c] {a b : State} (ha : Kept s₀ a) (hb : Kept s₀ b) : Kept s₀ (if c then a else b) := by
  split
  · exact ha
  · exact hb

theorem Kept.getD {o : Option State} (h : ∀ t, o = some t → Kept s₀ t) (hs : Kept s₀ s) : Kept s₀ (o.getD s) := by
  cases o with
  | none => exact hs
  | some t => exact h t rfl

end Sys2Proof.Machine
end

