-- ==== Sys2Proof/Laws/KeptPorts.lean ====
section
/-!
SUPPORT. What every operation keeps (`Kept`): the ports, the cipher lanes and the faults.
-/
namespace Sys2Proof.Machine
open Sys2Proof
set_option linter.unusedTactic false
set_option linter.unreachableTactic false
variable {s₀ s t : State}

theorem Kept.setReg {i : Nat} {x : Nat} {v : Word} (h : Kept s₀ s) : Kept s₀ (@State.setReg s i x v) := by
  unfold State.setReg
  try dsimp only [State.each]
  repeat' first
    | with_reducible assumption
    | fail_if_no_progress with_reducible refine Kept.upd ?_ rfl rfl rfl rfl rfl rfl
    | refine Kept.foldl _ _ ?_ ?_
    | intro _
    | split

theorem Kept.dropStaged {i : Nat} {x : Nat} (h : Kept s₀ s) : Kept s₀ (@State.dropStaged s i x) := by
  unfold State.dropStaged
  try dsimp only [State.each]
  repeat' first
    | with_reducible assumption
    | fail_if_no_progress with_reducible refine Kept.upd ?_ rfl rfl rfl rfl rfl rfl
    | refine Kept.foldl _ _ ?_ ?_
    | intro _
    | split

theorem Kept.setStaged {i : Nat} {x : Nat} {v : Word} (h : Kept s₀ s) : Kept s₀ (@State.setStaged s i x v) := by
  unfold State.setStaged
  try dsimp only [State.each]
  repeat' first
    | with_reducible assumption
    | fail_if_no_progress with_reducible refine Kept.upd ?_ rfl rfl rfl rfl rfl rfl
    | refine Kept.foldl _ _ ?_ ?_
    | intro _
    | split

theorem Kept.toCycle {c : Nat} (h : Kept s₀ s) : Kept s₀ (@State.toCycle s c) := by
  unfold State.toCycle
  try dsimp only [State.each]
  repeat' first
    | with_reducible assumption
    | fail_if_no_progress with_reducible refine Kept.upd ?_ rfl rfl rfl rfl rfl rfl
    | refine Kept.foldl _ _ ?_ ?_
    | intro _
    | split

theorem Kept.toTime {ns : Nat} (h : Kept s₀ s) : Kept s₀ (@State.toTime s ns) := by
  unfold State.toTime
  try dsimp only [State.each]
  repeat' first
    | with_reducible assumption
    | fail_if_no_progress with_reducible refine Kept.upd ?_ rfl rfl rfl rfl rfl rfl
    | refine Kept.foldl _ _ ?_ ?_
    | intro _
    | split

theorem Kept.idle (h : Kept s₀ s) : Kept s₀ (@State.idle s) := by
  unfold State.idle
  try dsimp only [State.each]
  repeat' first
    | with_reducible assumption
    | with_reducible apply Kept.toCycle
    | fail_if_no_progress with_reducible refine Kept.upd ?_ rfl rfl rfl rfl rfl rfl
    | refine Kept.foldl _ _ ?_ ?_
    | intro _
    | split

theorem Kept.takeMarker {m : Marker} (h : Kept s₀ s) : Kept s₀ (@State.takeMarker s m) := by
  unfold State.takeMarker
  try dsimp only [State.each]
  repeat' first
    | with_reducible assumption
    | fail_if_no_progress with_reducible refine Kept.upd ?_ rfl rfl rfl rfl rfl rfl
    | refine Kept.foldl _ _ ?_ ?_
    | intro _
    | split

theorem Kept.ring {m : RingMsg} (h : Kept s₀ s) : Kept s₀ (@State.ring s m) := by
  unfold State.ring
  try dsimp only [State.each]
  repeat' first
    | with_reducible assumption
    | with_reducible apply Kept.emit
    | fail_if_no_progress with_reducible refine Kept.upd ?_ rfl rfl rfl rfl rfl rfl
    | refine Kept.foldl _ _ ?_ ?_
    | intro _
    | split

theorem Kept.count {i : Nat} {x : Nat} {by_ : Nat} (h : Kept s₀ s) : Kept s₀ (@State.count s i x by_) := by
  unfold State.count
  try dsimp only [State.each]
  repeat' first
    | with_reducible assumption
    | fail_if_no_progress with_reducible refine Kept.upd ?_ rfl rfl rfl rfl rfl rfl
    | refine Kept.foldl _ _ ?_ ?_
    | intro _
    | split

theorem Kept.raiseIbi {code : Nat} (h : Kept s₀ s) : Kept s₀ (@State.raiseIbi s code) := by
  unfold State.raiseIbi
  try dsimp only [State.each]
  repeat' first
    | with_reducible assumption
    | with_reducible apply Kept.emit
    | fail_if_no_progress with_reducible refine Kept.upd ?_ rfl rfl rfl rfl rfl rfl
    | refine Kept.foldl _ _ ?_ ?_
    | intro _
    | split

theorem Kept.log1 {code : Nat} {args : List Word} (h : Kept s₀ s) : Kept s₀ (@State.log1 s code args) := by
  unfold State.log1
  try dsimp only [State.each]
  repeat' first
    | with_reducible assumption
    | with_reducible apply Kept.raiseIbi
    | fail_if_no_progress with_reducible refine Kept.upd ?_ rfl rfl rfl rfl rfl rfl
    | refine Kept.foldl _ _ ?_ ?_
    | intro _
    | split

theorem Kept.logLimAs {lim : Nat} {code : Nat} {key : Nat} {n : Nat} {w : Nat} {args : Nat → List Word} (h : Kept s₀ s) : Kept s₀ (@State.logLimAs s lim code key n w args) := by
  unfold State.logLimAs
  try dsimp only [State.each]
  repeat' first
    | with_reducible assumption
    | with_reducible apply Kept.log1
    | fail_if_no_progress with_reducible refine Kept.upd ?_ rfl rfl rfl rfl rfl rfl
    | refine Kept.foldl _ _ ?_ ?_
    | intro _
    | split

theorem Kept.logLim {code : Nat} {key : Nat} {n : Nat} {w : Nat} {args : Nat → List Word} (h : Kept s₀ s) : Kept s₀ (@State.logLim s code key n w args) := by
  unfold State.logLim
  try dsimp only [State.each]
  repeat' first
    | with_reducible assumption
    | with_reducible apply Kept.logLimAs
    | fail_if_no_progress with_reducible refine Kept.upd ?_ rfl rfl rfl rfl rfl rfl
    | refine Kept.foldl _ _ ?_ ?_
    | intro _
    | split

theorem Kept.logFrame {code : Nat} {key : Nat} {args : List Word} (h : Kept s₀ s) : Kept s₀ (@State.logFrame s code key args) := by
  unfold State.logFrame
  try dsimp only [State.each]
  repeat' first
    | with_reducible assumption
    | with_reducible apply Kept.logLim
    | fail_if_no_progress with_reducible refine Kept.upd ?_ rfl rfl rfl rfl rfl rfl
    | refine Kept.foldl _ _ ?_ ?_
    | intro _
    | split

theorem Kept.logRound {code : Nat} {key : Nat} {args : List Word} (h : Kept s₀ s) : Kept s₀ (@State.logRound s code key args) := by
  unfold State.logRound
  try dsimp only [State.each]
  repeat' first
    | with_reducible assumption
    | with_reducible apply Kept.log1
    | fail_if_no_progress with_reducible refine Kept.upd ?_ rfl rfl rfl rfl rfl rfl
    | refine Kept.foldl _ _ ?_ ?_
    | intro _
    | split

theorem Kept.ignored {i : Nat} {x : Nat} {v : Nat} (h : Kept s₀ s) : Kept s₀ (@State.ignored s i x v) := by
  unfold State.ignored
  try dsimp only [State.each]
  repeat' first
    | with_reducible assumption
    | with_reducible apply Kept.log1
    | fail_if_no_progress with_reducible refine Kept.upd ?_ rfl rfl rfl rfl rfl rfl
    | refine Kept.foldl _ _ ?_ ?_
    | intro _
    | split

theorem Kept.wrongTile {i : Nat} {x : Nat} {v : Nat} (h : Kept s₀ s) : Kept s₀ (@State.wrongTile s i x v) := by
  unfold State.wrongTile
  try dsimp only [State.each]
  repeat' first
    | with_reducible assumption
    | with_reducible apply Kept.log1
    | fail_if_no_progress with_reducible refine Kept.upd ?_ rfl rfl rfl rfl rfl rfl
    | refine Kept.foldl _ _ ?_ ?_
    | intro _
    | split

theorem Kept.setPort {p : Nat} {v : PortSt} (h : Kept s₀ s) : Kept s₀ (@State.setPort s p v) := by
  unfold State.setPort
  try dsimp only [State.each]
  repeat' first
    | with_reducible assumption
    | fail_if_no_progress with_reducible refine Kept.upd ?_ rfl rfl rfl rfl rfl rfl
    | refine Kept.foldl _ _ ?_ ?_
    | intro _
    | split

theorem Kept.setPc {c : Nat} {v : PcSt} (h : Kept s₀ s) : Kept s₀ (@State.setPc s c v) := by
  unfold State.setPc
  try dsimp only [State.each]
  repeat' first
    | with_reducible assumption
    | fail_if_no_progress with_reducible refine Kept.upd ?_ rfl rfl rfl rfl rfl rfl
    | refine Kept.foldl _ _ ?_ ?_
    | intro _
    | split

theorem Kept.setQ {k : Nat} {v : QSt} (h : Kept s₀ s) : Kept s₀ (@State.setQ s k v) := by
  unfold State.setQ
  try dsimp only [State.each]
  repeat' first
    | with_reducible assumption
    | fail_if_no_progress with_reducible refine Kept.upd ?_ rfl rfl rfl rfl rfl rfl
    | refine Kept.foldl _ _ ?_ ?_
    | intro _
    | split

theorem Kept.setSlot {k : Nat} {v : Slot} (h : Kept s₀ s) : Kept s₀ (@State.setSlot s k v) := by
  unfold State.setSlot
  try dsimp only [State.each]
  repeat' first
    | with_reducible assumption
    | fail_if_no_progress with_reducible refine Kept.upd ?_ rfl rfl rfl rfl rfl rfl
    | refine Kept.foldl _ _ ?_ ?_
    | intro _
    | split

theorem Kept.setPath {h_ : Path} {v : PathSt} (h : Kept s₀ s) : Kept s₀ (@State.setPath s h_ v) := by
  unfold State.setPath
  try dsimp only [State.each]
  repeat' first
    | with_reducible assumption
    | fail_if_no_progress with_reducible refine Kept.upd ?_ rfl rfl rfl rfl rfl rfl
    | refine Kept.foldl _ _ ?_ ?_
    | intro _
    | split

theorem Kept.sendRequest {home : Nat} {r : HReq} (h : Kept s₀ s) : Kept s₀ (@State.sendRequest s home r) := by
  unfold State.sendRequest
  try dsimp only [State.each]
  repeat' first
    | with_reducible assumption
    | with_reducible apply Kept.ring
    | fail_if_no_progress with_reducible refine Kept.upd ?_ rfl rfl rfl rfl rfl rfl
    | refine Kept.foldl _ _ ?_ ?_
    | intro _
    | split

theorem Kept.sendResponse {tile : Nat} {m : RespMsg} (h : Kept s₀ s) : Kept s₀ (@State.sendResponse s tile m) := by
  unfold State.sendResponse
  try dsimp only [State.each]
  repeat' first
    | with_reducible assumption
    | with_reducible apply Kept.ring
    | with_reducible apply Kept.response
    | fail_if_no_progress with_reducible refine Kept.upd ?_ rfl rfl rfl rfl rfl rfl
    | refine Kept.foldl _ _ ?_ ?_
    | intro _
    | split

theorem putBytes_wf (m : List Host.Cell) (a : Nat) (bs : List Byte) (h : SMap.wf 0 m = true) : SMap.wf 0 (putBytes m a bs) = true := by
  induction bs generalizing m a with
  | nil => exact h
  | cons b r ih => exact ih _ _ (SMap.wf_put _ _ h)

theorem Kept.writeLine {l : Nat} {d : Line} {poison : Bool} (h : Kept s₀ s) : Kept s₀ (s.writeLine l d poison) :=
  h.trans ⟨rfl, rfl, le_refl _, List.prefix_refl _, fun w => putBytes_wf _ _ _ w, id⟩

theorem Kept.poisonLine {l : Nat} (h : Kept s₀ s) : Kept s₀ (@State.poisonLine s l) := by
  unfold State.poisonLine
  try dsimp only [State.each]
  repeat' first
    | with_reducible assumption
    | with_reducible apply Kept.writeLine
    | fail_if_no_progress with_reducible refine Kept.upd ?_ rfl rfl rfl rfl rfl rfl
    | refine Kept.foldl _ _ ?_ ?_
    | intro _
    | split

theorem Kept.zeroStore (h : Kept s₀ s) : Kept s₀ s.zeroStore :=
  h.trans ⟨rfl, rfl, le_refl _, List.prefix_refl _, fun _ => rfl, id⟩

theorem Kept.poisonBelow {a : Nat} (h : Kept s₀ s) : Kept s₀ (@State.poisonBelow s a) := by
  unfold State.poisonBelow
  try dsimp only [State.each]
  repeat' first
    | with_reducible assumption
    | fail_if_no_progress with_reducible refine Kept.upd ?_ rfl rfl rfl rfl rfl rfl
    | refine Kept.foldl _ _ ?_ ?_
    | intro _
    | split

theorem Kept.setPanic {p : Port} {b : Bool} (h : Kept s₀ s) : Kept s₀ (@State.setPanic s p b) := by
  unfold State.setPanic
  try dsimp only [State.each]
  repeat' first
    | with_reducible assumption
    | with_reducible apply Kept.setPort
    | with_reducible apply Kept.ring
    | fail_if_no_progress with_reducible refine Kept.upd ?_ rfl rfl rfl rfl rfl rfl
    | refine Kept.foldl _ _ ?_ ?_
    | intro _
    | split

theorem Kept.watch {p : Port} (h : Kept s₀ s) : Kept s₀ (@State.watch s p) := by
  unfold State.watch
  try dsimp only [State.each]
  repeat' first
    | with_reducible assumption
    | with_reducible apply Kept.setPort
    | with_reducible apply Kept.setPanic
    | fail_if_no_progress with_reducible refine Kept.upd ?_ rfl rfl rfl rfl rfl rfl
    | refine Kept.foldl _ _ ?_ ?_
    | intro _
    | split

theorem Kept.sendInit {p : Port} (h : Kept s₀ s) : Kept s₀ (@State.sendInit s p) := by
  unfold State.sendInit
  try dsimp only [State.each]
  repeat' first
    | with_reducible assumption
    | with_reducible apply Kept.setPort
    | with_reducible apply Kept.emit
    | with_reducible apply Kept.watch
    | fail_if_no_progress with_reducible refine Kept.upd ?_ rfl rfl rfl rfl rfl rfl
    | refine Kept.foldl _ _ ?_ ?_
    | intro _
    | split

theorem Kept.retCred {p : Port} {nr : Nat} {nw : Nat} (h : Kept s₀ s) : Kept s₀ (@State.retCred s p nr nw) := by
  unfold State.retCred
  try dsimp only [State.each]
  repeat' first
    | with_reducible assumption
    | with_reducible apply Kept.setPort
    | with_reducible apply Kept.emit
    | fail_if_no_progress with_reducible refine Kept.upd ?_ rfl rfl rfl rfl rfl rfl
    | refine Kept.foldl _ _ ?_ ?_
    | intro _
    | split

theorem Kept.retCredOf {p : Port} {e : BitVec 2} {nr : Nat} {nw : Nat} (h : Kept s₀ s) : Kept s₀ (@State.retCredOf s p e nr nw) := by
  unfold State.retCredOf
  try dsimp only [State.each]
  repeat' first
    | with_reducible assumption
    | with_reducible apply Kept.retCred
    | fail_if_no_progress with_reducible refine Kept.upd ?_ rfl rfl rfl rfl rfl rfl
    | refine Kept.foldl _ _ ?_ ?_
    | intro _
    | split

theorem Kept.pushBeat {p : Port} {b : Beat} {addr : Nat} (h : Kept s₀ s) : Kept s₀ (@State.pushBeat s p b addr) := by
  unfold State.pushBeat
  try dsimp only [State.each]
  repeat' first
    | with_reducible assumption
    | with_reducible apply Kept.setPort
    | with_reducible apply Kept.watch
    | fail_if_no_progress with_reducible refine Kept.upd ?_ rfl rfl rfl rfl rfl rfl
    | refine Kept.foldl _ _ ?_ ?_
    | intro _
    | split

theorem Kept.addOut {m : BitVec 8} {d : ℤ} (h : Kept s₀ s) : Kept s₀ (@State.addOut s m d) := by
  unfold State.addOut
  try dsimp only [State.each]
  repeat' first
    | with_reducible assumption
    | fail_if_no_progress with_reducible refine Kept.upd ?_ rfl rfl rfl rfl rfl rfl
    | refine Kept.foldl _ _ ?_ ?_
    | intro _
    | split

theorem Kept.addShare {home : Nat} {d : ℤ} (h : Kept s₀ s) : Kept s₀ (@State.addShare s home d) := by
  unfold State.addShare
  try dsimp only [State.each]
  repeat' first
    | with_reducible assumption
    | fail_if_no_progress with_reducible refine Kept.upd ?_ rfl rfl rfl rfl rfl rfl
    | refine Kept.foldl _ _ ?_ ?_
    | intro _
    | split

theorem Kept.finishResets {p : Port} (h : Kept s₀ s) : Kept s₀ (@State.finishResets s p) := by
  unfold State.finishResets
  try dsimp only [State.each]
  repeat' first
    | with_reducible assumption
    | with_reducible apply Kept.pushBeat
    | with_reducible apply Kept.setPort
    | fail_if_no_progress with_reducible refine Kept.upd ?_ rfl rfl rfl rfl rfl rfl
    | refine Kept.foldl _ _ ?_ ?_
    | intro _
    | split

theorem Kept.freeEnt {e : Nat} (h : Kept s₀ s) : Kept s₀ (@State.freeEnt s e) := by
  unfold State.freeEnt
  try dsimp only [State.each]
  repeat' first
    | with_reducible assumption
    | fail_if_no_progress with_reducible refine Kept.upd ?_ rfl rfl rfl rfl rfl rfl
    | refine Kept.foldl _ _ ?_ ?_
    | intro _
    | split

theorem Kept.freeIfDone {k : Nat} (h : Kept s₀ s) : Kept s₀ (@State.freeIfDone s k) := by
  unfold State.freeIfDone
  try dsimp only [State.each]
  repeat' first
    | with_reducible assumption
    | with_reducible apply Kept.freeEnt
    | fail_if_no_progress with_reducible refine Kept.upd ?_ rfl rfl rfl rfl rfl rfl
    | refine Kept.foldl _ _ ?_ ?_
    | intro _
    | split

theorem Kept.setOnward {p : Port} {o : Onward} (h : Kept s₀ s) : Kept s₀ (@State.setOnward s p o) := by
  unfold State.setOnward
  try dsimp only [State.each]
  repeat' first
    | with_reducible assumption
    | with_reducible apply Kept.setPort
    | fail_if_no_progress with_reducible refine Kept.upd ?_ rfl rfl rfl rfl rfl rfl
    | refine Kept.foldl _ _ ?_ ?_
    | intro _
    | split

theorem Kept.endOnward {p : Port} {o : Onward} (h : Kept s₀ s) : Kept s₀ (@State.endOnward s p o) := by
  unfold State.endOnward
  try dsimp only [State.each]
  repeat' first
    | with_reducible assumption
    | with_reducible apply Kept.setPort
    | with_reducible apply Kept.addOut
    | with_reducible apply Kept.addShare
    | with_reducible apply Kept.watch
    | with_reducible apply Kept.finishResets
    | with_reducible apply Kept.freeIfDone
    | fail_if_no_progress with_reducible refine Kept.upd ?_ rfl rfl rfl rfl rfl rfl
    | refine Kept.foldl _ _ ?_ ?_
    | intro _
    | split

theorem Kept.endWith {p : Port} {o : Onward} {b : Beat} (h : Kept s₀ s) : Kept s₀ (@State.endWith s p o b) := by
  unfold State.endWith
  try dsimp only [State.each]
  repeat' first
    | with_reducible assumption
    | with_reducible apply Kept.setOnward
    | with_reducible apply Kept.pushBeat
    | with_reducible apply Kept.endOnward
    | fail_if_no_progress with_reducible refine Kept.upd ?_ rfl rfl rfl rfl rfl rfl
    | refine Kept.foldl _ _ ?_ ?_
    | intro _
    | split

theorem Kept.failOnward {p : Port} {o : Onward} {st : Status} {cresp : Cresp} {cstat : Nat} (h : Kept s₀ s) : Kept s₀ (@State.failOnward s p o st cresp cstat) := by
  unfold State.failOnward
  try dsimp only [State.each]
  repeat' first
    | with_reducible assumption
    | with_reducible apply Kept.endWith
    | fail_if_no_progress with_reducible refine Kept.upd ?_ rfl rfl rfl rfl rfl rfl
    | refine Kept.foldl _ _ ?_ ?_
    | intro _
    | split

theorem Kept.pieceEnd {p : Port} {o : Onward} (h : Kept s₀ s) : Kept s₀ (@State.pieceEnd s p o) := by
  unfold State.pieceEnd
  try dsimp only [State.each]
  repeat' first
    | with_reducible assumption
    | with_reducible apply Kept.setOnward
    | with_reducible apply Kept.endOnward
    | with_reducible apply Kept.endWith
    | fail_if_no_progress with_reducible refine Kept.upd ?_ rfl rfl rfl rfl rfl rfl
    | refine Kept.foldl _ _ ?_ ?_
    | intro _
    | split

theorem Kept.pieceDone {p : Port} {o : Onward} {txid : Nat} {st : Status} (h : Kept s₀ s) : Kept s₀ (@State.pieceDone s p o txid st) := by
  unfold State.pieceDone
  try dsimp only [State.each]
  repeat' first
    | with_reducible assumption
    | with_reducible apply Kept.pieceEnd
    | fail_if_no_progress with_reducible refine Kept.upd ?_ rfl rfl rfl rfl rfl rfl
    | refine Kept.foldl _ _ ?_ ?_
    | intro _
    | split

theorem Kept.putFail {p : Port} {r : MboxRec} (h : Kept s₀ s) : Kept s₀ (@State.putFail s p r) := by
  unfold State.putFail
  try dsimp only [State.each]
  repeat' first
    | with_reducible assumption
    | with_reducible apply Kept.log1
    | with_reducible apply Kept.setPort
    | fail_if_no_progress with_reducible refine Kept.upd ?_ rfl rfl rfl rfl rfl rfl
    | refine Kept.foldl _ _ ?_ ?_
    | intro _
    | split

theorem Kept.postedFail {p : Port} {o : Onward} {line : Nat} {cause : Nat} {tile : Nat} (h : Kept s₀ s) : Kept s₀ (@State.postedFail s p o line cause tile) := by
  unfold State.postedFail
  try dsimp only [State.each]
  repeat' first
    | with_reducible assumption
    | with_reducible apply Kept.putFail
    | fail_if_no_progress with_reducible refine Kept.upd ?_ rfl rfl rfl rfl rfl rfl
    | refine Kept.foldl _ _ ?_ ?_
    | intro _
    | split

theorem Kept.closeStreams {p : Nat} {m : Option (BitVec 8)} (h : Kept s₀ s) : Kept s₀ (@State.closeStreams s p m) := by
  unfold State.closeStreams
  try dsimp only [State.each]
  repeat' first
    | with_reducible assumption
    | fail_if_no_progress with_reducible refine Kept.upd ?_ rfl rfl rfl rfl rfl rfl
    | refine Kept.foldl _ _ ?_ ?_
    | intro _
    | split

theorem Kept.dropCipherWork {p : Port} {m : Option (BitVec 8)} (h : Kept s₀ s) : Kept s₀ (@State.dropCipherWork s p m) := by
  unfold State.dropCipherWork
  try dsimp only [State.each]
  repeat' first
    | with_reducible assumption
    | with_reducible apply Kept.endOnward
    | with_reducible apply Kept.setOnward
    | fail_if_no_progress with_reducible refine Kept.upd ?_ rfl rfl rfl rfl rfl rfl
    | refine Kept.foldl _ _ ?_ ?_
    | intro _
    | split

theorem Kept.endReturned {p : Port} (h : Kept s₀ s) : Kept s₀ (@State.endReturned s p) := by
  unfold State.endReturned
  try dsimp only [State.each]
  repeat' first
    | with_reducible assumption
    | with_reducible apply Kept.endOnward
    | fail_if_no_progress with_reducible refine Kept.upd ?_ rfl rfl rfl rfl rfl rfl
    | refine Kept.foldl _ _ ?_ ?_
    | intro _
    | split

theorem Kept.killAgent {p : Nat} {c : DeadCause} (h : Kept s₀ s) : Kept s₀ (@State.killAgent s p c) := by
  unfold State.killAgent
  try dsimp only [State.each]
  repeat' first
    | with_reducible assumption
    | with_reducible apply Kept.ring
    | with_reducible apply Kept.deadAgent
    | fail_if_no_progress with_reducible refine Kept.upd ?_ rfl rfl rfl rfl rfl rfl
    | refine Kept.foldl _ _ ?_ ?_
    | intro _
    | split

theorem Kept.flushWith {p : Port} {cause : Word} {off : Bool} {dead : DeadCause} (h : Kept s₀ s) : Kept s₀ (@State.flushWith s p cause off dead) := by
  unfold State.flushWith
  try dsimp only [State.each]
  repeat' first
    | with_reducible assumption
    | with_reducible apply Kept.setPort
    | with_reducible apply Kept.log1
    | with_reducible apply Kept.dropCipherWork
    | with_reducible apply Kept.closeStreams
    | with_reducible apply Kept.endReturned
    | with_reducible apply Kept.setPanic
    | with_reducible apply Kept.killAgent
    | fail_if_no_progress with_reducible refine Kept.upd ?_ rfl rfl rfl rfl rfl rfl
    | refine Kept.foldl _ _ ?_ ?_
    | intro _
    | split

theorem Kept.flushPort {p : Port} {cause : Nat} (h : Kept s₀ s) : Kept s₀ (@State.flushPort s p cause) := by
  unfold State.flushPort
  try dsimp only [State.each]
  repeat' first
    | with_reducible assumption
    | with_reducible apply Kept.flushWith
    | fail_if_no_progress with_reducible refine Kept.upd ?_ rfl rfl rfl rfl rfl rfl
    | refine Kept.foldl _ _ ?_ ?_
    | intro _
    | split

theorem Kept.logAccess {p : Port} {op : Op} {w : ReqWord} {code : Nat} {entry : Nat} (h : Kept s₀ s) : Kept s₀ (@State.logAccess s p op w code entry) := by
  unfold State.logAccess
  try dsimp only [State.each]
  repeat' first
    | with_reducible assumption
    | with_reducible apply Kept.count
    | with_reducible apply Kept.logLim
    | fail_if_no_progress with_reducible refine Kept.upd ?_ rfl rfl rfl rfl rfl rfl
    | refine Kept.foldl _ _ ?_ ?_
    | intro _
    | split

theorem Kept.answer {r : HReq} {lines : List LineAns} {cresp : Cresp} (h : Kept s₀ s) : Kept s₀ (@State.answer s r lines cresp) := by
  unfold State.answer
  try dsimp only [State.each]
  repeat' first
    | with_reducible assumption
    | with_reducible apply Kept.sendResponse
    | fail_if_no_progress with_reducible refine Kept.upd ?_ rfl rfl rfl rfl rfl rfl
    | refine Kept.foldl _ _ ?_ ?_
    | intro _
    | split

theorem Kept.answerPosted {r : HReq} {line : Nat} {cause : Nat} (h : Kept s₀ s) : Kept s₀ (@State.answerPosted s r line cause) := by
  unfold State.answerPosted
  try dsimp only [State.each]
  repeat' first
    | with_reducible assumption
    | with_reducible apply Kept.putFail
    | with_reducible apply Kept.sendResponse
    | fail_if_no_progress with_reducible refine Kept.upd ?_ rfl rfl rfl rfl rfl rfl
    | refine Kept.foldl _ _ ?_ ?_
    | intro _
    | split

theorem Kept.retiredHit {addr : Nat} {op : Op} (h : Kept s₀ s) : Kept s₀ (@State.retiredHit s addr op) := by
  unfold State.retiredHit
  try dsimp only [State.each]
  repeat' first
    | with_reducible assumption
    | with_reducible apply Kept.count
    | with_reducible apply Kept.logLim
    | fail_if_no_progress with_reducible refine Kept.upd ?_ rfl rfl rfl rfl rfl rfl
    | refine Kept.foldl _ _ ?_ ?_
    | intro _
    | split

theorem Kept.answerRetired {r : HReq} {idxs : List Nat} {addr : Nat} (h : Kept s₀ s) : Kept s₀ (@State.answerRetired s r idxs addr) := by
  unfold State.answerRetired
  try dsimp only [State.each]
  repeat' first
    | with_reducible assumption
    | with_reducible apply Kept.retiredHit
    | with_reducible apply Kept.answer
    | with_reducible apply Kept.answerPosted
    | with_reducible apply Kept.masterReset
    | fail_if_no_progress with_reducible refine Kept.upd ?_ rfl rfl rfl rfl rfl rfl
    | refine Kept.foldl _ _ ?_ ?_
    | intro _
    | split

theorem Kept.selfRefresh (h : Kept s₀ s) : Kept s₀ (@State.selfRefresh s) := by
  unfold State.selfRefresh
  try dsimp only [State.each]
  repeat' first
    | with_reducible assumption
    | with_reducible apply Kept.emit
    | fail_if_no_progress with_reducible refine Kept.upd ?_ rfl rfl rfl rfl rfl rfl
    | refine Kept.foldl _ _ ?_ ?_
    | intro _
    | split

theorem Kept.leaveSelfRefresh (h : Kept s₀ s) : Kept s₀ (@State.leaveSelfRefresh s) := by
  unfold State.leaveSelfRefresh
  try dsimp only [State.each]
  repeat' first
    | with_reducible assumption
    | with_reducible apply Kept.emit
    | fail_if_no_progress with_reducible refine Kept.upd ?_ rfl rfl rfl rfl rfl rfl
    | refine Kept.foldl _ _ ?_ ?_
    | intro _
    | split

theorem Kept.emptySlots (h : Kept s₀ s) : Kept s₀ (@State.emptySlots s) := by
  unfold State.emptySlots
  try dsimp only [State.each]
  repeat' first
    | with_reducible assumption
    | fail_if_no_progress with_reducible refine Kept.upd ?_ rfl rfl rfl rfl rfl rfl
    | refine Kept.foldl _ _ ?_ ?_
    | intro _
    | split

theorem Kept.measureBound {r : Recov} (h : Kept s₀ s) : Kept s₀ (@State.measureBound s r) := by
  unfold State.measureBound
  try dsimp only [State.each]
  repeat' first
    | with_reducible assumption
    | with_reducible apply Kept.log1
    | fail_if_no_progress with_reducible refine Kept.upd ?_ rfl rfl rfl rfl rfl rfl
    | refine Kept.foldl _ _ ?_ ?_
    | intro _
    | split

theorem Kept.dropRowParts (h : Kept s₀ s) : Kept s₀ (@State.dropRowParts s) := by
  unfold State.dropRowParts
  try dsimp only [State.each]
  repeat' first
    | with_reducible assumption
    | fail_if_no_progress with_reducible refine Kept.upd ?_ rfl rfl rfl rfl rfl rfl
    | refine Kept.foldl _ _ ?_ ?_
    | intro _
    | split

theorem Kept.closeRecovery {res : RecResult} (h : Kept s₀ s) : Kept s₀ (@State.closeRecovery s res) := by
  unfold State.closeRecovery
  try dsimp only [State.each]
  repeat' first
    | with_reducible assumption
    | with_reducible apply Kept.dropRowParts
    | with_reducible apply Kept.count
    | with_reducible apply Kept.measureBound
    | with_reducible apply Kept.log1
    | fail_if_no_progress with_reducible refine Kept.upd ?_ rfl rfl rfl rfl rfl rfl
    | refine Kept.foldl _ _ ?_ ?_
    | intro _
    | split

theorem Kept.fenceTile {c : FenceCause} (h : Kept s₀ s) : Kept s₀ (@State.fenceTile s c) := by
  unfold State.fenceTile
  try dsimp only [State.each]
  repeat' first
    | with_reducible assumption
    | with_reducible apply Kept.closeRecovery
    | with_reducible apply Kept.selfRefresh
    | with_reducible apply Kept.emptySlots
    | with_reducible apply Kept.log1
    | fail_if_no_progress with_reducible refine Kept.upd ?_ rfl rfl rfl rfl rfl rfl
    | refine Kept.foldl _ _ ?_ ?_
    | intro _
    | split

theorem Kept.fault {c : FClass} {u : RUnit} (h : Kept s₀ s) : Kept s₀ (@State.fault s c u) := by
  unfold State.fault
  try dsimp only [State.each]
  repeat' first
    | with_reducible assumption
    | with_reducible apply Kept.count
    | with_reducible apply Kept.log1
    | with_reducible apply Kept.setPc
    | fail_if_no_progress with_reducible refine Kept.upd ?_ rfl rfl rfl rfl rfl rfl
    | refine Kept.foldl _ _ ?_ ?_
    | intro _
    | split

theorem Kept.dueAct {a : RungAct} (h : Kept s₀ s) : Kept s₀ (@State.dueAct s a) := by
  unfold State.dueAct
  try dsimp only [State.each]
  repeat' first
    | with_reducible assumption
    | fail_if_no_progress with_reducible refine Kept.upd ?_ rfl rfl rfl rfl rfl rfl
    | refine Kept.foldl _ _ ?_ ?_
    | intro _
    | split

theorem Kept.rungUp {u : RUnit} {a : Nat} {b : Nat} (h : Kept s₀ s) : Kept s₀ (@State.rungUp s u a b) := by
  unfold State.rungUp
  try dsimp only [State.each]
  repeat' first
    | with_reducible assumption
    | with_reducible apply Kept.log1
    | fail_if_no_progress with_reducible refine Kept.upd ?_ rfl rfl rfl rfl rfl rfl
    | refine Kept.foldl _ _ ?_ ?_
    | intro _
    | split

theorem Kept.stackFault {u : RUnit} {c : FClass} (h : Kept s₀ s) : Kept s₀ (@State.stackFault s u c) := by
  unfold State.stackFault
  try dsimp only [State.each]
  repeat' first
    | with_reducible assumption
    | with_reducible apply Kept.fault
    | with_reducible apply Kept.dueAct
    | fail_if_no_progress with_reducible refine Kept.upd ?_ rfl rfl rfl rfl rfl rfl
    | refine Kept.foldl _ _ ?_ ?_
    | intro _
    | split

theorem Kept.pcFault {u : RUnit} {c : FClass} (h : Kept s₀ s) : Kept s₀ (@State.pcFault s u c) := by
  unfold State.pcFault
  try dsimp only [State.each]
  repeat' first
    | with_reducible assumption
    | with_reducible apply Kept.fault
    | with_reducible apply Kept.rungUp
    | with_reducible apply Kept.stackFault
    | with_reducible apply Kept.dueAct
    | fail_if_no_progress with_reducible refine Kept.upd ?_ rfl rfl rfl rfl rfl rfl
    | refine Kept.foldl _ _ ?_ ?_
    | intro _
    | split

theorem Kept.bankFault {u : RUnit} (h : Kept s₀ s) : Kept s₀ (@State.bankFault s u) := by
  unfold State.bankFault
  try dsimp only [State.each]
  repeat' first
    | with_reducible assumption
    | with_reducible apply Kept.fault
    | with_reducible apply Kept.rungUp
    | with_reducible apply Kept.pcFault
    | with_reducible apply Kept.dueAct
    | fail_if_no_progress with_reducible refine Kept.upd ?_ rfl rfl rfl rfl rfl rfl
    | refine Kept.foldl _ _ ?_ ?_
    | intro _
    | split

theorem Kept.await {rung : Nat} {u : RUnit} {c : FClass} (h : Kept s₀ s) : Kept s₀ (@State.await s rung u c) := by
  unfold State.await
  try dsimp only [State.each]
  repeat' first
    | with_reducible assumption
    | fail_if_no_progress with_reducible refine Kept.upd ?_ rfl rfl rfl rfl rfl rfl
    | refine Kept.foldl _ _ ?_ ?_
    | intro _
    | split

theorem Kept.rowFault {pc : Nat} {bank : Nat} {row : Nat} (h : Kept s₀ s) : Kept s₀ (@State.rowFault s pc bank row) := by
  unfold State.rowFault
  try dsimp only [State.each]
  repeat' first
    | with_reducible assumption
    | with_reducible apply Kept.fault
    | with_reducible apply Kept.rungUp
    | with_reducible apply Kept.bankFault
    | with_reducible apply Kept.await
    | fail_if_no_progress with_reducible refine Kept.upd ?_ rfl rfl rfl rfl rfl rfl
    | refine Kept.foldl _ _ ?_ ?_
    | intro _
    | split

theorem Kept.laneFault {pc : Nat} {lane : Nat} (h : Kept s₀ s) : Kept s₀ (@State.laneFault s pc lane) := by
  unfold State.laneFault
  try dsimp only [State.each]
  repeat' first
    | with_reducible assumption
    | with_reducible apply Kept.fault
    | with_reducible apply Kept.rungUp
    | with_reducible apply Kept.pcFault
    | with_reducible apply Kept.setPc
    | with_reducible apply Kept.await
    | fail_if_no_progress with_reducible refine Kept.upd ?_ rfl rfl rfl rfl rfl rfl
    | refine Kept.foldl _ _ ?_ ?_
    | intro _
    | split

theorem Kept.calFault {g : Nat} (h : Kept s₀ s) : Kept s₀ (@State.calFault s g) := by
  unfold State.calFault
  try dsimp only [State.each]
  repeat' first
    | with_reducible assumption
    | with_reducible apply Kept.fault
    | with_reducible apply Kept.await
    | fail_if_no_progress with_reducible refine Kept.upd ?_ rfl rfl rfl rfl rfl rfl
    | refine Kept.foldl _ _ ?_ ?_
    | intro _
    | split

theorem Kept.tileFault {c : FenceCause} (h : Kept s₀ s) : Kept s₀ (@State.tileFault s c) := by
  unfold State.tileFault
  try dsimp only [State.each]
  repeat' first
    | with_reducible assumption
    | with_reducible apply Kept.fault
    | with_reducible apply Kept.dueAct
    | fail_if_no_progress with_reducible refine Kept.upd ?_ rfl rfl rfl rfl rfl rfl
    | refine Kept.foldl _ _ ?_ ?_
    | intro _
    | split

theorem Kept.addMap {kind : Nat} {pc : Nat} {bl : Nat} {d : Nat} (h : Kept s₀ s) : Kept s₀ (@State.addMap s kind pc bl d) := by
  unfold State.addMap
  try dsimp only [State.each]
  repeat' first
    | with_reducible assumption
    | with_reducible apply Kept.ring
    | fail_if_no_progress with_reducible refine Kept.upd ?_ rfl rfl rfl rfl rfl rfl
    | refine Kept.foldl _ _ ?_ ?_
    | intro _
    | split

theorem Kept.setEnt {k : Nat} {e : CEnt} (h : Kept s₀ s) : Kept s₀ (@State.setEnt s k e) := by
  unfold State.setEnt
  try dsimp only [State.each]
  repeat' first
    | with_reducible assumption
    | fail_if_no_progress with_reducible refine Kept.upd ?_ rfl rfl rfl rfl rfl rfl
    | refine Kept.foldl _ _ ?_ ?_
    | intro _
    | split

theorem Kept.runSeg {k : Nat} {first : Nat} {p : Nat} {failedOn : Option Nat} (h : Kept s₀ s) : Kept s₀ (@State.runSeg s k first p failedOn) := by
  unfold State.runSeg
  try dsimp only [State.each]
  repeat' first
    | with_reducible assumption
    | with_reducible apply Kept.count
    | with_reducible apply Kept.setEnt
    | fail_if_no_progress with_reducible refine Kept.upd ?_ rfl rfl rfl rfl rfl rfl
    | refine Kept.foldl _ _ ?_ ?_
    | intro _
    | split

theorem Kept.sendCipherWrite {p : Port} {o : Onward} {first : Nat} {data : List PLine} {final : Bool} {cstat : Nat} {st : Status} (h : Kept s₀ s) : Kept s₀ (@State.sendCipherWrite s p o first data final cstat st) := by
  unfold State.sendCipherWrite
  try dsimp only [State.each]
  repeat' first
    | with_reducible assumption
    | with_reducible apply Kept.postedFail
    | with_reducible apply Kept.pieceEnd
    | with_reducible apply Kept.addShare
    | with_reducible apply Kept.setOnward
    | with_reducible apply Kept.sendRequest
    | fail_if_no_progress with_reducible refine Kept.upd ?_ rfl rfl rfl rfl rfl rfl
    | refine Kept.foldl _ _ ?_ ?_
    | intro _
    | split

theorem Kept.cipherBeat {p : Port} {o : Onward} {e : CEnt} {first : Nat} {k : Nat} {st : Status} {tag : BitVec 128} (h : Kept s₀ s) : Kept s₀ (@State.cipherBeat s p o e first k st tag) := by
  unfold State.cipherBeat
  try dsimp only [State.each]
  repeat' first
    | with_reducible assumption
    | with_reducible apply Kept.setOnward
    | with_reducible apply Kept.pushBeat
    | with_reducible apply Kept.endOnward
    | fail_if_no_progress with_reducible refine Kept.upd ?_ rfl rfl rfl rfl rfl rfl
    | refine Kept.foldl _ _ ?_ ?_
    | intro _
    | split

theorem Kept.leaveSeg {k : Nat} {g : Seg} (h : Kept s₀ s) : Kept s₀ (@State.leaveSeg s k g) := by
  unfold State.leaveSeg
  try dsimp only [State.each]
  repeat' first
    | with_reducible assumption
    | with_reducible apply Kept.count
    | with_reducible apply Kept.setEnt
    | with_reducible apply Kept.sendCipherWrite
    | with_reducible apply Kept.postedFail
    | fail_if_no_progress with_reducible refine Kept.upd ?_ rfl rfl rfl rfl rfl rfl
    | refine Kept.foldl _ _ ?_ ?_
    | intro _
    | split

theorem Kept.closeStream {k : Nat} (h : Kept s₀ s) : Kept s₀ (@State.closeStream s k) := by
  unfold State.closeStream
  try dsimp only [State.each]
  repeat' first
    | with_reducible assumption
    | with_reducible apply Kept.setPort
    | with_reducible apply Kept.draw
    | with_reducible apply Kept.freeEnt
    | fail_if_no_progress with_reducible refine Kept.upd ?_ rfl rfl rfl rfl rfl rfl
    | refine Kept.foldl _ _ ?_ ?_
    | intro _
    | split

theorem Kept.settleEnt {k : Nat} (h : Kept s₀ s) : Kept s₀ (@State.settleEnt s k) := by
  unfold State.settleEnt
  try dsimp only [State.each]
  repeat' first
    | with_reducible assumption
    | with_reducible apply Kept.leaveSeg
    | with_reducible apply Kept.count
    | with_reducible apply Kept.setEnt
    | with_reducible apply Kept.closeStream
    | with_reducible apply Kept.freeIfDone
    | fail_if_no_progress with_reducible refine Kept.upd ?_ rfl rfl rfl rfl rfl rfl
    | refine Kept.foldl _ _ ?_ ?_
    | intro _
    | split

theorem Kept.releaseLine {k : Nat} {idx : Nat} (h : Kept s₀ s) : Kept s₀ (@State.releaseLine s k idx) := by
  unfold State.releaseLine
  try dsimp only [State.each]
  repeat' first
    | with_reducible assumption
    | with_reducible apply Kept.setEnt
    | with_reducible apply Kept.count
    | with_reducible apply Kept.cipherBeat
    | fail_if_no_progress with_reducible refine Kept.upd ?_ rfl rfl rfl rfl rfl rfl
    | refine Kept.foldl _ _ ?_ ?_
    | intro _
    | split

theorem Kept.failLines {k : Nat} (h : Kept s₀ s) : Kept s₀ (@State.failLines s k) := by
  unfold State.failLines
  try dsimp only [State.each]
  repeat' first
    | with_reducible assumption
    | with_reducible apply Kept.setEnt
    | with_reducible apply Kept.draw
    | with_reducible apply Kept.cipherBeat
    | with_reducible apply Kept.settleEnt
    | fail_if_no_progress with_reducible refine Kept.upd ?_ rfl rfl rfl rfl rfl rfl
    | refine Kept.foldl _ _ ?_ ?_
    | intro _
    | split

theorem Kept.failStream {k : Nat} {code : Nat} (h : Kept s₀ s) : Kept s₀ (@State.failStream s k code) := by
  unfold State.failStream
  try dsimp only [State.each]
  repeat' first
    | with_reducible assumption
    | with_reducible apply Kept.setEnt
    | with_reducible apply Kept.failLines
    | fail_if_no_progress with_reducible refine Kept.upd ?_ rfl rfl rfl rfl rfl rfl
    | refine Kept.foldl _ _ ?_ ?_
    | intro _
    | split

theorem Kept.failSegs (h : Kept s₀ s) : Kept s₀ (@State.failSegs s) := by
  unfold State.failSegs
  try dsimp only [State.each]
  repeat' first
    | with_reducible assumption
    | with_reducible apply Kept.failStream
    | fail_if_no_progress with_reducible refine Kept.upd ?_ rfl rfl rfl rfl rfl rfl
    | refine Kept.foldl _ _ ?_ ?_
    | intro _
    | split

theorem Kept.fencePair {p : Nat} {cause : Option Nat} (h : Kept s₀ s) : Kept s₀ (@State.fencePair s p cause) := by
  unfold State.fencePair
  try dsimp only [State.each]
  repeat' first
    | with_reducible assumption
    | with_reducible apply Kept.runSeg
    | with_reducible apply Kept.log1
    | with_reducible apply Kept.failSegs
    | fail_if_no_progress with_reducible refine Kept.upd ?_ rfl rfl rfl rfl rfl rfl
    | refine Kept.foldl _ _ ?_ ?_
    | intro _
    | split

theorem Kept.mismatch {p : Nat} (h : Kept s₀ s) : Kept s₀ (@State.mismatch s p) := by
  unfold State.mismatch
  try dsimp only [State.each]
  repeat' first
    | with_reducible assumption
    | with_reducible apply Kept.count
    | with_reducible apply Kept.fencePair
    | fail_if_no_progress with_reducible refine Kept.upd ?_ rfl rfl rfl rfl rfl rfl
    | refine Kept.foldl _ _ ?_ ?_
    | intro _
    | split

theorem Kept.abortStream {k : Nat} (h : Kept s₀ s) : Kept s₀ (@State.abortStream s k) := by
  unfold State.abortStream
  try dsimp only [State.each]
  repeat' first
    | with_reducible assumption
    | with_reducible apply Kept.count
    | with_reducible apply Kept.log1
    | with_reducible apply Kept.failStream
    | fail_if_no_progress with_reducible refine Kept.upd ?_ rfl rfl rfl rfl rfl rfl
    | refine Kept.foldl _ _ ?_ ?_
    | intro _
    | split

theorem Kept.releaseReady {k : Nat} (h : Kept s₀ s) : Kept s₀ (@State.releaseReady s k) := by
  unfold State.releaseReady
  try dsimp only [State.each]
  repeat' first
    | with_reducible assumption
    | with_reducible apply Kept.count
    | with_reducible apply Kept.log1
    | with_reducible apply Kept.failStream
    | with_reducible apply Kept.releaseLine
    | with_reducible apply Kept.settleEnt
    | fail_if_no_progress with_reducible refine Kept.upd ?_ rfl rfl rfl rfl rfl rfl
    | refine Kept.foldl _ _ ?_ ?_
    | intro _
    | split

theorem Kept.passSeg {k : Nat} {g : Seg} (h : Kept s₀ s) : Kept s₀ (@State.passSeg s k g) := by
  unfold State.passSeg
  try dsimp only [State.each]
  repeat' first
    | with_reducible assumption
    | with_reducible apply Kept.setEnt
    | with_reducible apply Kept.count
    | with_reducible apply Kept.releaseReady
    | fail_if_no_progress with_reducible refine Kept.upd ?_ rfl rfl rfl rfl rfl rfl
    | refine Kept.foldl _ _ ?_ ?_
    | intro _
    | split

theorem Kept.missSeg {k : Nat} {e : CEnt} {g : Seg} {pair : Nat} (h : Kept s₀ s) : Kept s₀ (@State.missSeg s k e g pair) := by
  unfold State.missSeg
  try dsimp only [State.each]
  repeat' first
    | with_reducible assumption
    | with_reducible apply Kept.runSeg
    | with_reducible apply Kept.log1
    | with_reducible apply Kept.mismatch
    | with_reducible apply Kept.failStream
    | with_reducible apply Kept.fencePair
    | with_reducible apply Kept.count
    | fail_if_no_progress with_reducible refine Kept.upd ?_ rfl rfl rfl rfl rfl rfl
    | refine Kept.foldl _ _ ?_ ?_
    | intro _
    | split

theorem Kept.slotBad {k : Nat} (h : Kept s₀ s) : Kept s₀ (@State.slotBad s k) := by
  unfold State.slotBad
  try dsimp only [State.each]
  repeat' first
    | with_reducible assumption
    | with_reducible apply Kept.setSlot
    | with_reducible apply Kept.log1
    | fail_if_no_progress with_reducible refine Kept.upd ?_ rfl rfl rfl rfl rfl rfl
    | refine Kept.foldl _ _ ?_ ?_
    | intro _
    | split

theorem Kept.assignEnt {k : Nat} (h : Kept s₀ s) : Kept s₀ (@State.assignEnt s k) := by
  unfold State.assignEnt
  try dsimp only [State.each]
  repeat' first
    | with_reducible assumption
    | with_reducible apply Kept.failStream
    | with_reducible apply Kept.runSeg
    | fail_if_no_progress with_reducible refine Kept.upd ?_ rfl rfl rfl rfl rfl rfl
    | refine Kept.foldl _ _ ?_ ?_
    | intro _
    | split

theorem Kept.assignPairs (h : Kept s₀ s) : Kept s₀ (@State.assignPairs s) := by
  unfold State.assignPairs
  try dsimp only [State.each]
  repeat' first
    | with_reducible assumption
    | with_reducible apply Kept.assignEnt
    | fail_if_no_progress with_reducible refine Kept.upd ?_ rfl rfl rfl rfl rfl rfl
    | refine Kept.foldl _ _ ?_ ?_
    | intro _
    | split

theorem Kept.takeStream {p : Port} {w : ReqWord} {d : CDesc} {m : BitVec 8} {tn : BitVec 12} (h : Kept s₀ s) : Kept s₀ (@State.takeStream s p w d m tn) := by
  unfold State.takeStream
  try dsimp only [State.each]
  repeat' first
    | with_reducible assumption
    | with_reducible apply Kept.slotBad
    | with_reducible apply Kept.setEnt
    | with_reducible apply Kept.count
    | with_reducible apply Kept.log1
    | fail_if_no_progress with_reducible refine Kept.upd ?_ rfl rfl rfl rfl rfl rfl
    | refine Kept.foldl _ _ ?_ ?_
    | intro _
    | split

theorem Kept.takeLines {k : Nat} {txid : Nat} {count : Nat} {data : List PLine} {d : CDesc} (h : Kept s₀ s) : Kept s₀ (@State.takeLines s k txid count data d) := by
  unfold State.takeLines
  try dsimp only [State.each]
  repeat' first
    | with_reducible assumption
    | with_reducible apply Kept.setEnt
    | with_reducible apply Kept.failLines
    | with_reducible apply Kept.assignPairs
    | fail_if_no_progress with_reducible refine Kept.upd ?_ rfl rfl rfl rfl rfl rfl
    | refine Kept.foldl _ _ ?_ ?_
    | intro _
    | split

theorem Kept.openSeg {k : Nat} {txid : Nat} {count : Nat} {d : CDesc} (h : Kept s₀ s) : Kept s₀ (@State.openSeg s k txid count d) := by
  unfold State.openSeg
  try dsimp only [State.each]
  repeat' first
    | with_reducible assumption
    | with_reducible apply Kept.setEnt
    | fail_if_no_progress with_reducible refine Kept.upd ?_ rfl rfl rfl rfl rfl rfl
    | refine Kept.foldl _ _ ?_ ?_
    | intro _
    | split

theorem Kept.fillLines {k : Nat} {txid : Nat} {ls : List LineAns} (h : Kept s₀ s) : Kept s₀ (@State.fillLines s k txid ls) := by
  unfold State.fillLines
  try dsimp only [State.each]
  repeat' first
    | with_reducible assumption
    | with_reducible apply Kept.setEnt
    | with_reducible apply Kept.failLines
    | with_reducible apply Kept.assignPairs
    | fail_if_no_progress with_reducible refine Kept.upd ?_ rfl rfl rfl rfl rfl rfl
    | refine Kept.foldl _ _ ?_ ?_
    | intro _
    | split

theorem Kept.skipLines {k : Nat} {txid : Nat} {count : Nat} {d : CDesc} (h : Kept s₀ s) : Kept s₀ (@State.skipLines s k txid count d) := by
  unfold State.skipLines
  try dsimp only [State.each]
  repeat' first
    | with_reducible assumption
    | with_reducible apply Kept.setEnt
    | with_reducible apply Kept.settleEnt
    | fail_if_no_progress with_reducible refine Kept.upd ?_ rfl rfl rfl rfl rfl rfl
    | refine Kept.foldl _ _ ?_ ?_
    | intro _
    | split

theorem Kept.endCipherRead {p : Port} {o : Onward} {k : Nat} {st : Status} (h : Kept s₀ s) : Kept s₀ (@State.endCipherRead s p o k st) := by
  unfold State.endCipherRead
  try dsimp only [State.each]
  repeat' first
    | with_reducible assumption
    | with_reducible apply Kept.failOnward
    | with_reducible apply Kept.setEnt
    | with_reducible apply Kept.settleEnt
    | fail_if_no_progress with_reducible refine Kept.upd ?_ rfl rfl rfl rfl rfl rfl
    | refine Kept.foldl _ _ ?_ ?_
    | intro _
    | split

theorem Kept.failAllStreams (h : Kept s₀ s) : Kept s₀ (@State.failAllStreams s) := by
  unfold State.failAllStreams
  try dsimp only [State.each]
  repeat' first
    | with_reducible assumption
    | with_reducible apply Kept.log1
    | with_reducible apply Kept.failStream
    | fail_if_no_progress with_reducible refine Kept.upd ?_ rfl rfl rfl rfl rfl rfl
    | refine Kept.foldl _ _ ?_ ?_
    | intro _
    | split

theorem Kept.epochDrop {p : Port} (h : Kept s₀ s) : Kept s₀ (@State.epochDrop s p) := by
  unfold State.epochDrop
  try dsimp only [State.each]
  repeat' first
    | with_reducible assumption
    | with_reducible apply Kept.count
    | with_reducible apply Kept.logLim
    | fail_if_no_progress with_reducible refine Kept.upd ?_ rfl rfl rfl rfl rfl rfl
    | refine Kept.foldl _ _ ?_ ?_
    | intro _
    | split

theorem Kept.overrun {p : Port} {channel : Nat} (h : Kept s₀ s) : Kept s₀ (@State.overrun s p channel) := by
  unfold State.overrun
  try dsimp only [State.each]
  repeat' first
    | with_reducible assumption
    | with_reducible apply Kept.log1
    | with_reducible apply Kept.flushPort
    | fail_if_no_progress with_reducible refine Kept.upd ?_ rfl rfl rfl rfl rfl rfl
    | refine Kept.foldl _ _ ?_ ?_
    | intro _
    | split

theorem Kept.formatFault {p : Port} {code : BitVec 4} {cause : Nat} {w : ReqWord} {lines : Nat} (h : Kept s₀ s) : Kept s₀ (@State.formatFault s p code cause w lines) := by
  unfold State.formatFault
  extract_lets s1
  have h1 : Kept s₀ s1 := (h.log1.retCredOf).pushBeat
  clear_value s1
  repeat' first
    | with_reducible assumption
    | with_reducible apply Kept.closeStream
    | split

theorem Kept.giveLines {p : Port} {ls : List WLine} (h : Kept s₀ s) : Kept s₀ (s.giveLines p ls) := by
  induction ls generalizing s with
  | nil => exact h.setPort
  | cons l r ih =>
    unfold State.giveLines
    split
    · exact h.setPort
    · exact ih h.setPort
    · exact (h.setPort.log1).flushPort

theorem Kept.enqueue {p : Port} {r : QReq} (h : Kept s₀ s) : Kept s₀ (@State.enqueue s p r) := by
  unfold State.enqueue
  try dsimp only [State.each]
  repeat' first
    | with_reducible assumption
    | with_reducible apply Kept.setPort
    | with_reducible apply Kept.giveLines
    | with_reducible apply Kept.watch
    | fail_if_no_progress with_reducible refine Kept.upd ?_ rfl rfl rfl rfl rfl rfl
    | refine Kept.foldl _ _ ?_ ?_
    | intro _
    | split

theorem Kept.malformed {p : Port} {op : Op} {code : BitVec 4} {cause : Nat} {w : ReqWord} (h : Kept s₀ s) : Kept s₀ (@State.malformed s p op code cause w) := by
  unfold State.malformed
  try dsimp only [State.each]
  repeat' first
    | with_reducible assumption
    | with_reducible apply Kept.formatFault
    | with_reducible apply Kept.watch
    | with_reducible apply Kept.enqueue
    | fail_if_no_progress with_reducible refine Kept.upd ?_ rfl rfl rfl rfl rfl rfl
    | refine Kept.foldl _ _ ?_ ?_
    | intro _
    | split

theorem Kept.spendReq {p : Port} {w : ReqWord} {f : State → State} (hf : ∀ a, Kept s₀ a → Kept s₀ (f a)) (h : Kept s₀ s) : Kept s₀ (@State.spendReq s p w f) := by
  unfold State.spendReq
  try dsimp only [State.each]
  repeat' first
    | with_reducible assumption
    | with_reducible apply Kept.epochDrop
    | with_reducible apply Kept.overrun
    | with_reducible apply Kept.setPort
    | with_reducible apply hf
    | fail_if_no_progress with_reducible refine Kept.upd ?_ rfl rfl rfl rfl rfl rfl
    | refine Kept.foldl _ _ ?_ ?_
    | intro _
    | split

theorem Kept.accept {p : Port} {op : Op} {w : ReqWord} (h : Kept s₀ s) : Kept s₀ (@State.accept s p op w) := by
  unfold State.accept
  try dsimp only [State.each]
  repeat' first
    | with_reducible assumption
    | with_reducible apply Kept.spendReq
    | with_reducible apply Kept.malformed
    | with_reducible apply Kept.enqueue
    | fail_if_no_progress with_reducible refine Kept.upd ?_ rfl rfl rfl rfl rfl rfl
    | refine Kept.foldl _ _ ?_ ?_
    | intro _
    | split

theorem Kept.takeLine {p : Port} {l : WLine} (h : Kept s₀ s) : Kept s₀ (@State.takeLine s p l) := by
  unfold State.takeLine
  try dsimp only [State.each]
  repeat' first
    | with_reducible assumption
    | with_reducible apply Kept.epochDrop
    | with_reducible apply Kept.overrun
    | with_reducible apply Kept.setPort
    | with_reducible apply Kept.giveLines
    | with_reducible apply Kept.watch
    | fail_if_no_progress with_reducible refine Kept.upd ?_ rfl rfl rfl rfl rfl rfl
    | refine Kept.foldl _ _ ?_ ?_
    | intro _
    | split

theorem Kept.masterReset {p : Port} {w : ReqWord} {before : List QReq} {rest : List QReq} (h : Kept s₀ s) : Kept s₀ (@State.masterReset s p w before rest) := by
  unfold State.masterReset
  try dsimp only [State.each]
  repeat' first
    | with_reducible assumption
    | with_reducible apply Kept.count
    | with_reducible apply Kept.dropCipherWork
    | with_reducible apply Kept.closeStreams
    | with_reducible apply Kept.setPort
    | with_reducible apply Kept.log1
    | with_reducible apply Kept.retCredOf
    | with_reducible apply Kept.endReturned
    | with_reducible apply Kept.finishResets
    | with_reducible apply Kept.watch
    | with_reducible apply Kept.killAgent
    | fail_if_no_progress with_reducible refine Kept.upd ?_ rfl rfl rfl rfl rfl rfl
    | refine Kept.foldl _ _ ?_ ?_
    | intro _
    | split

theorem Kept.charge {p : Port} {m : BitVec 8} {op : Op} {lines : Nat} (h : Kept s₀ s) : Kept s₀ (@State.charge s p m op lines).1 := by
  unfold State.charge
  try dsimp only [State.each]
  repeat' first
    | with_reducible assumption
    | with_reducible apply Kept.count
    | with_reducible apply Kept.logLim
    | fail_if_no_progress with_reducible refine Kept.upd ?_ rfl rfl rfl rfl rfl rfl
    | refine Kept.foldl _ _ ?_ ?_
    | intro _
    | split

theorem Kept.refuse {p : Port} {r : QReq} {st : Status} {code : Nat} {entry : Nat} (h : Kept s₀ s) : Kept s₀ (@State.refuse s p r st code entry) := by
  unfold State.refuse
  try dsimp only [State.each]
  repeat' first
    | with_reducible assumption
    | with_reducible apply Kept.setEnt
    | with_reducible apply Kept.count
    | with_reducible apply Kept.logAccess
    | with_reducible apply Kept.retCredOf
    | with_reducible apply Kept.pushBeat
    | with_reducible apply Kept.abortStream
    | with_reducible apply Kept.closeStream
    | fail_if_no_progress with_reducible refine Kept.upd ?_ rfl rfl rfl rfl rfl rfl
    | refine Kept.foldl _ _ ?_ ?_
    | intro _
    | split

theorem Kept.hereBeats {p : Port} {r : QReq} {h_ : Here} {cstat : Nat} (h : Kept s₀ s) : Kept s₀ (@State.hereBeats s p r h_ cstat) := by
  unfold State.hereBeats
  try dsimp only [State.each]
  repeat' first
    | with_reducible assumption
    | with_reducible apply Kept.count
    | with_reducible apply Kept.pushBeat
    | fail_if_no_progress with_reducible refine Kept.upd ?_ rfl rfl rfl rfl rfl rfl
    | refine Kept.foldl _ _ ?_ ?_
    | intro _
    | split

theorem Kept.answerHere {p : Port} {r : QReq} {h_ : Here} {cent : Option (Nat × CDesc)} (h : Kept s₀ s) : Kept s₀ (@State.answerHere s p r h_ cent) := by
  unfold State.answerHere
  try dsimp only [State.each]
  repeat' first
    | with_reducible assumption
    | with_reducible apply Kept.charge
    | with_reducible apply Kept.count
    | with_reducible apply Kept.retCredOf
    | with_reducible apply Kept.retiredHit
    | with_reducible apply Kept.skipLines
    | with_reducible apply Kept.putFail
    | with_reducible apply Kept.hereBeats
    | fail_if_no_progress with_reducible refine Kept.upd ?_ rfl rfl rfl rfl rfl rfl
    | refine Kept.foldl _ _ ?_ ?_
    | intro _
    | split

theorem Kept.passOn {p : Port} {r : QReq} {coh : Bool} {cent : Option (Nat × CDesc)} (h : Kept s₀ s) : Kept s₀ (s.passOn p r coh cent) := by
  have hc : Kept s₀ (s.charge p r.w.master r.op r.w.count).1 := h.charge
  unfold State.passOn
  generalize s.charge p r.w.master r.op r.w.count = c at hc ⊢
  extract_lets addr home c1 txid failed o0 o _ _ s1 _ s2 s3 s4
  have h1 : Kept s₀ s1 := Kept.upd hc rfl rfl rfl rfl rfl rfl
  have h3 : Kept s₀ s3 := (h1.setPort.addOut).retCredOf
  have h4 : Kept s₀ s4 := by
    refine Kept.watch ?_
    split
    · exact h3.addShare
    · exact h3
  split
  · exact h4.sendRequest
  · split
    · exact h4.takeLines
    · split
      · exact h4.takeLines
      · exact (h4.openSeg).sendRequest

/-- The outcome of a request's turn keeps it. -/
theorem Kept.tryLeave {p : Port} {r : QReq} {before rest : List QReq} (h : Kept s₀ s) : ∀ t, s.tryLeave p r before rest = .go t → Kept s₀ t := by
  have h0 : Kept s₀ (s.setPort p { s.port p with queue := before ++ rest }) := h.setPort
  have go : ∀ a : State, Kept s₀ a → ∀ t, Leave.go a = .go t → Kept s₀ t := fun a k t e => Leave.go.inj e ▸ k
  have wait : ∀ t, Leave.wait = .go t → Kept s₀ t := fun t e => by simp at e
  have turn : ∀ d t, Leave.turn d = .go t → Kept s₀ t := fun d t e => by simp at e
  unfold State.tryLeave
  generalize s.setPort p { s.port p with queue := before ++ rest } = s0 at h0 ⊢
  dsimp only
  repeat' first
    | with_reducible exact wait
    | with_reducible exact turn _
    | with_reducible refine go _ ?_
    | with_reducible exact h0.formatFault
    | with_reducible exact h0.refuse
    | with_reducible exact h0.masterReset
    | with_reducible exact h0.answerHere
    | with_reducible exact h0.passOn
    | split

theorem Kept.leaveFrom {p : Port} {blocked : List (BitVec 8)} {before l : List QReq} (h : Kept s₀ s) : Kept s₀ (s.leaveFrom p blocked before l) := by
  induction l generalizing blocked before with
  | nil => exact h.setPort
  | cons r rest ih =>
    unfold State.leaveFrom
    split
    · exact ih
    · split
      · rename_i hl
        exact (h.tryLeave _ hl).watch.finishResets
      · exact ih
      · exact ih

theorem Kept.admitFirst {p : Port} (h : Kept s₀ s) : Kept s₀ (s.admitFirst p) := by
  unfold State.admitFirst
  split
  · exact h
  · dsimp only
    split
    · exact h.setPort
    · split
      · exact h
      · split
        · exact (h.setPort.takeStream.answerHere).watch.finishResets
        · exact (h.setPort.takeStream.passOn).watch

theorem Kept.readBeats {p : Port} {txid fuel : Nat} (h : Kept s₀ s) : Kept s₀ (s.readBeats p txid fuel) := by
  induction fuel generalizing s with
  | zero => exact h
  | succ n ih =>
    unfold State.readBeats
    split
    · exact h
    · dsimp only
      split
      · exact h
      · split
        · exact h
        · split
          · split
            · exact (h.setOnward.pushBeat).endOnward
            · exact h.setOnward.pushBeat
          · exact ih h.setOnward.pushBeat

theorem Kept.readReturn {p : Port} {o : Onward} {ls : List LineAns} (h : Kept s₀ s) : Kept s₀ (@State.readReturn s p o ls) := by
  unfold State.readReturn
  try dsimp only [State.each]
  repeat' first
    | with_reducible assumption
    | with_reducible apply Kept.setOnward
    | with_reducible apply Kept.endOnward
    | with_reducible apply Kept.readBeats
    | with_reducible apply Kept.fillLines
    | with_reducible apply Kept.draw
    | fail_if_no_progress with_reducible refine Kept.upd ?_ rfl rfl rfl rfl rfl rfl
    | refine Kept.foldl _ _ ?_ ?_
    | intro _
    | split

theorem Kept.response {m : RespMsg} (h : Kept s₀ s) : Kept s₀ (@State.response s m) := by
  unfold State.response
  try dsimp only [State.each]
  repeat' first
    | with_reducible assumption
    | with_reducible apply Kept.putFail
    | with_reducible apply Kept.pieceDone
    | with_reducible apply Kept.readReturn
    | with_reducible apply Kept.ring
    | with_reducible apply Kept.endWith
    | fail_if_no_progress with_reducible refine Kept.upd ?_ rfl rfl rfl rfl rfl rfl
    | refine Kept.foldl _ _ ?_ ?_
    | intro _
    | split

theorem Kept.deliver {p : Port} (h : Kept s₀ s) (hd : s.deliver p = some t) : Kept s₀ t := by
  unfold State.deliver at hd
  dsimp only at hd
  split at hd <;> cases hd
  · exact h.setPort.emit
  · exact (h.setPort.emit).watch

theorem Kept.initPort {p : Port} (h : Kept s₀ s) : Kept s₀ (@State.initPort s p) := by
  unfold State.initPort
  try dsimp only [State.each]
  repeat' first
    | with_reducible assumption
    | with_reducible apply Kept.setPort
    | with_reducible apply Kept.sendInit
    | fail_if_no_progress with_reducible refine Kept.upd ?_ rfl rfl rfl rfl rfl rfl
    | refine Kept.foldl _ _ ?_ ?_
    | intro _
    | split

theorem Kept.clearBuffer {h_ : Path} (h : Kept s₀ s) : Kept s₀ (@State.clearBuffer s h_) := by
  unfold State.clearBuffer
  try dsimp only [State.each]
  repeat' first
    | with_reducible assumption
    | with_reducible apply Kept.setPath
    | fail_if_no_progress with_reducible refine Kept.upd ?_ rfl rfl rfl rfl rfl rfl
    | refine Kept.foldl _ _ ?_ ?_
    | intro _
    | split

theorem Kept.keyWord {h_ : Path} {k : Nat} {w : Nat} {v : Word} (h : Kept s₀ s) : Kept s₀ (@State.keyWord s h_ k w v) := by
  unfold State.keyWord
  try dsimp only [State.each]
  repeat' first
    | with_reducible assumption
    | with_reducible apply Kept.setPath
    | fail_if_no_progress with_reducible refine Kept.upd ?_ rfl rfl rfl rfl rfl rfl
    | refine Kept.foldl _ _ ?_ ?_
    | intro _
    | split

theorem Kept.slotLoad {h_ : Path} {k : Nat} {kind : Nat} (h : Kept s₀ s) : Kept s₀ (@State.slotLoad s h_ k kind) := by
  unfold State.slotLoad
  try dsimp only [State.each]
  repeat' first
    | with_reducible assumption
    | with_reducible apply Kept.log1
    | with_reducible apply Kept.setSlot
    | with_reducible apply Kept.clearBuffer
    | fail_if_no_progress with_reducible refine Kept.upd ?_ rfl rfl rfl rfl rfl rfl
    | refine Kept.foldl _ _ ?_ ?_
    | intro _
    | split

theorem Kept.slotErase {k : Nat} (h : Kept s₀ s) : Kept s₀ (@State.slotErase s k) := by
  unfold State.slotErase
  try dsimp only [State.each]
  repeat' first
    | with_reducible assumption
    | with_reducible apply Kept.setSlot
    | fail_if_no_progress with_reducible refine Kept.upd ?_ rfl rfl rfl rfl rfl rfl
    | refine Kept.foldl _ _ ?_ ?_
    | intro _
    | split

theorem Kept.eraseSlots (h : Kept s₀ s) : Kept s₀ (@State.eraseSlots s) := by
  unfold State.eraseSlots
  try dsimp only [State.each]
  repeat' first
    | with_reducible assumption
    | fail_if_no_progress with_reducible refine Kept.upd ?_ rfl rfl rfl rfl rfl rfl
    | refine Kept.foldl _ _ ?_ ?_
    | intro _
    | split

theorem Kept.slotApply {k : Nat} (h : Kept s₀ s) : Kept s₀ (@State.slotApply s k) := by
  unfold State.slotApply
  try dsimp only [State.each]
  repeat' first
    | with_reducible assumption
    | with_reducible apply Kept.setSlot
    | with_reducible apply Kept.log1
    | fail_if_no_progress with_reducible refine Kept.upd ?_ rfl rfl rfl rfl rfl rfl
    | refine Kept.foldl _ _ ?_ ?_
    | intro _
    | split

theorem Kept.slotDone {k : Nat} (h : Kept s₀ s) : Kept s₀ (@State.slotDone s k) := by
  unfold State.slotDone
  try dsimp only [State.each]
  repeat' first
    | with_reducible assumption
    | with_reducible apply Kept.slotBad
    | with_reducible apply Kept.setSlot
    | with_reducible apply Kept.log1
    | fail_if_no_progress with_reducible refine Kept.upd ?_ rfl rfl rfl rfl rfl rfl
    | refine Kept.foldl _ _ ?_ ?_
    | intro _
    | split

theorem Kept.checkPWorst {before : Nat} (h : Kept s₀ s) : Kept s₀ (@State.checkPWorst s before) := by
  unfold State.checkPWorst
  try dsimp only [State.each]
  repeat' first
    | with_reducible assumption
    | with_reducible apply Kept.log1
    | fail_if_no_progress with_reducible refine Kept.upd ?_ rfl rfl rfl rfl rfl rfl
    | refine Kept.foldl _ _ ?_ ?_
    | intro _
    | split

end Sys2Proof.Machine
end

