-- ==== Sys2Proof/Laws/KeptHome.lean ====
section
/-!
SUPPORT. What every operation keeps (`Kept`): the queues, the schedulers, Pickle, Seam and the home agent.
-/
namespace Sys2Proof.Machine
open Sys2Proof
set_option linter.unusedTactic false
set_option linter.unreachableTactic false
variable {s₀ s t : State}

theorem Kept.chooseQueue {r : HReq} (h : Kept s₀ s) : Kept s₀ (@State.chooseQueue s r).1 := by
  unfold State.chooseQueue
  try dsimp only [State.each]
  repeat' first
    | with_reducible assumption
    | with_reducible apply Kept.count
    | with_reducible apply Kept.log1
    | fail_if_no_progress with_reducible refine Kept.upd ?_ rfl rfl rfl rfl rfl rfl
    | refine Kept.foldl _ _ ?_ ?_
    | intro _
    | split

theorem Kept.mark {q : Nat} (h : Kept s₀ s) : Kept s₀ (@State.mark s q) := by
  unfold State.mark
  try dsimp only [State.each]
  repeat' first
    | with_reducible assumption
    | with_reducible apply Kept.setQ
    | fail_if_no_progress with_reducible refine Kept.upd ?_ rfl rfl rfl rfl rfl rfl
    | refine Kept.foldl _ _ ?_ ?_
    | intro _
    | split

theorem Kept.fixV (h : Kept s₀ s) : Kept s₀ (@State.fixV s) := by
  unfold State.fixV
  try dsimp only [State.each]
  repeat' first
    | with_reducible assumption
    | fail_if_no_progress with_reducible refine Kept.upd ?_ rfl rfl rfl rfl rfl rfl
    | refine Kept.foldl _ _ ?_ ?_
    | intro _
    | split

theorem Kept.correctV (h : Kept s₀ s) : Kept s₀ (@State.correctV s) := by
  unfold State.correctV
  try dsimp only [State.each]
  repeat' first
    | with_reducible assumption
    | fail_if_no_progress with_reducible refine Kept.upd ?_ rfl rfl rfl rfl rfl rfl
    | refine Kept.foldl _ _ ?_ ?_
    | intro _
    | split

theorem Kept.wakePc {c : Nat} (h : Kept s₀ s) : Kept s₀ (@State.wakePc s c) := by
  unfold State.wakePc
  try dsimp only [State.each]
  repeat' first
    | with_reducible assumption
    | with_reducible apply Kept.setPc
    | with_reducible apply Kept.count
    | with_reducible apply Kept.emit
    | fail_if_no_progress with_reducible refine Kept.upd ?_ rfl rfl rfl rfl rfl rfl
    | refine Kept.foldl _ _ ?_ ?_
    | intro _
    | split

theorem Kept.stamp {r : HReq} (h : Kept s₀ s) : Kept s₀ (@State.stamp s r).1 := by
  unfold State.stamp
  try dsimp only [State.each]
  repeat' first
    | with_reducible assumption
    | with_reducible apply Kept.chooseQueue
    | with_reducible apply Kept.setQ
    | fail_if_no_progress with_reducible refine Kept.upd ?_ rfl rfl rfl rfl rfl rfl
    | refine Kept.foldl _ _ ?_ ?_
    | intro _
    | split

theorem Kept.addPart {p : Part} (h : Kept s₀ s) : Kept s₀ (@State.addPart s p) := by
  unfold State.addPart
  try dsimp only [State.each]
  repeat' first
    | with_reducible assumption
    | fail_if_no_progress with_reducible refine Kept.upd ?_ rfl rfl rfl rfl rfl rfl
    | refine Kept.foldl _ _ ?_ ?_
    | intro _
    | split

theorem Kept.joinAs {r : HReq} {o : Origin} {write : Bool} {g : Tag} {ls : List PLn} (h : Kept s₀ s) : Kept s₀ (@State.joinAs s r o write g ls) := by
  unfold State.joinAs
  try dsimp only [State.each]
  repeat' first
    | with_reducible assumption
    | with_reducible apply Kept.write
    | with_reducible apply Kept.start
    | with_reducible apply Kept.addPart
    | with_reducible apply Kept.fixV
    | with_reducible apply Kept.mark
    | fail_if_no_progress with_reducible refine Kept.upd ?_ rfl rfl rfl rfl rfl rfl
    | refine Kept.foldl _ _ ?_ ?_
    | intro _
    | split

theorem Kept.joinQueue {r : HReq} {o : Origin} {write : Bool} {ls : List PLn} (h : Kept s₀ s) : Kept s₀ (@State.joinQueue s r o write ls) := by
  unfold State.joinQueue
  try dsimp only [State.each]
  repeat' first
    | with_reducible assumption
    | with_reducible apply Kept.stamp
    | with_reducible apply Kept.joinAs
    | fail_if_no_progress with_reducible refine Kept.upd ?_ rfl rfl rfl rfl rfl rfl
    | refine Kept.foldl _ _ ?_ ?_
    | intro _
    | split

theorem Kept.drainCheck {c : Nat} (h : Kept s₀ s) : Kept s₀ (@State.drainCheck s c) := by
  unfold State.drainCheck
  try dsimp only [State.each]
  repeat' first
    | with_reducible assumption
    | with_reducible apply Kept.setPc
    | fail_if_no_progress with_reducible refine Kept.upd ?_ rfl rfl rfl rfl rfl rfl
    | refine Kept.foldl _ _ ?_ ?_
    | intro _
    | split

theorem Kept.dropParts {f : Part → Bool} (h : Kept s₀ s) : Kept s₀ (@State.dropParts s f) := by
  unfold State.dropParts
  try dsimp only [State.each]
  repeat' first
    | with_reducible assumption
    | with_reducible apply Kept.mark
    | with_reducible apply Kept.fixV
    | with_reducible apply Kept.setPc
    | with_reducible apply Kept.drainCheck
    | fail_if_no_progress with_reducible refine Kept.upd ?_ rfl rfl rfl rfl rfl rfl
    | refine Kept.foldl _ _ ?_ ?_
    | intro _
    | split

theorem Kept.overtake {p : Part} (h : Kept s₀ s) : Kept s₀ (@State.overtake s p) := by
  unfold State.overtake
  try dsimp only [State.each]
  repeat' first
    | with_reducible assumption
    | with_reducible apply Kept.dropParts
    | fail_if_no_progress with_reducible refine Kept.upd ?_ rfl rfl rfl rfl rfl rfl
    | refine Kept.foldl _ _ ?_ ?_
    | intro _
    | split

theorem Kept.setSeam {w : SeamWr} (h : Kept s₀ s) : Kept s₀ (@State.setSeam s w) := by
  unfold State.setSeam
  try dsimp only [State.each]
  repeat' first
    | with_reducible assumption
    | fail_if_no_progress with_reducible refine Kept.upd ?_ rfl rfl rfl rfl rfl rfl
    | refine Kept.foldl _ _ ?_ ?_
    | intro _
    | split

theorem Kept.setNew {no : Nat} {loc : Nat} {d : PLine} (h : Kept s₀ s) : Kept s₀ (@State.setNew s no loc d) := by
  unfold State.setNew
  try dsimp only [State.each]
  repeat' first
    | with_reducible assumption
    | fail_if_no_progress with_reducible refine Kept.upd ?_ rfl rfl rfl rfl rfl rfl
    | refine Kept.foldl _ _ ?_ ?_
    | intro _
    | split

theorem Kept.releasePart {p : Part} (h : Kept s₀ s) : Kept s₀ (@State.releasePart s p) := by
  unfold State.releasePart
  try dsimp only [State.each]
  repeat' first
    | with_reducible assumption
    | with_reducible apply Kept.setQ
    | with_reducible apply Kept.write
    | with_reducible apply Kept.overtake
    | with_reducible apply Kept.wakePc
    | with_reducible apply Kept.drainCheck
    | fail_if_no_progress with_reducible refine Kept.upd ?_ rfl rfl rfl rfl rfl rfl
    | refine Kept.foldl _ _ ?_ ?_
    | intro _
    | split

theorem Kept.release {c : Nat} (h : Kept s₀ s) : Kept s₀ (@State.release s c) := by
  unfold State.release
  try dsimp only [State.each]
  repeat' first
    | with_reducible assumption
    | with_reducible apply Kept.releasePart
    | fail_if_no_progress with_reducible refine Kept.upd ?_ rfl rfl rfl rfl rfl rfl
    | refine Kept.foldl _ _ ?_ ?_
    | intro _
    | split

theorem Kept.late {c : Nat} {p : Part} {first : Nat} (h : Kept s₀ s) : Kept s₀ (@State.late s c p first) := by
  unfold State.late
  try dsimp only [State.each]
  repeat' first
    | with_reducible assumption
    | with_reducible apply Kept.count
    | with_reducible apply Kept.logLim
    | fail_if_no_progress with_reducible refine Kept.upd ?_ rfl rfl rfl rfl rfl rfl
    | refine Kept.foldl _ _ ?_ ?_
    | intro _
    | split

theorem Kept.freeShare {r : HReq} (h : Kept s₀ s) : Kept s₀ (@State.freeShare s r) := by
  unfold State.freeShare
  try dsimp only [State.each]
  repeat' first
    | with_reducible assumption
    | with_reducible apply Kept.setOnward
    | with_reducible apply Kept.addShare
    | fail_if_no_progress with_reducible refine Kept.upd ?_ rfl rfl rfl rfl rfl rfl
    | refine Kept.foldl _ _ ?_ ?_
    | intro _
    | split

theorem Kept.partIssued {c : Nat} {p : Part} {first : Nat} (h : Kept s₀ s) : Kept s₀ (@State.partIssued s c p first) := by
  unfold State.partIssued
  try dsimp only [State.each]
  repeat' first
    | with_reducible assumption
    | with_reducible apply Kept.count
    | with_reducible apply Kept.write
    | with_reducible apply Kept.late
    | with_reducible apply Kept.ring
    | with_reducible apply Kept.freeShare
    | fail_if_no_progress with_reducible refine Kept.upd ?_ rfl rfl rfl rfl rfl rfl
    | refine Kept.foldl _ _ ?_ ?_
    | intro _
    | split

theorem Kept.issue {c : Nat} {ps : List Part} (h : Kept s₀ s) : Kept s₀ (@State.issue s c ps) := by
  unfold State.issue
  try dsimp only [State.each]
  repeat' first
    | with_reducible assumption
    | with_reducible apply Kept.write
    | with_reducible apply Kept.emit
    | with_reducible apply Kept.setPc
    | with_reducible apply Kept.mark
    | with_reducible apply Kept.count
    | with_reducible apply Kept.partIssued
    | with_reducible apply Kept.fixV
    | with_reducible apply Kept.drainCheck
    | fail_if_no_progress with_reducible refine Kept.upd ?_ rfl rfl rfl rfl rfl rfl
    | refine Kept.foldl _ _ ?_ ?_
    | intro _
    | split

theorem Kept.mapReqs {f : HReq → HReq} {g : Onward → Onward} {h_ : SeamWr → Bool} (h : Kept s₀ s) : Kept s₀ (@State.mapReqs s f g h_) := by
  unfold State.mapReqs
  try dsimp only [State.each]
  repeat' first
    | with_reducible assumption
    | fail_if_no_progress with_reducible refine Kept.upd ?_ rfl rfl rfl rfl rfl rfl
    | refine Kept.foldl _ _ ?_ ?_
    | intro _
    | split

theorem Kept.lineWritten {r : HReq} {idx : Nat} {cause : Nat} {notice : Bool} (h : Kept s₀ s) : Kept s₀ (@State.lineWritten s r idx cause notice) := by
  unfold State.lineWritten
  try dsimp only [State.each]
  repeat' first
    | with_reducible assumption
    | with_reducible apply Kept.answerPosted
    | with_reducible apply Kept.answer
    | with_reducible apply Kept.ring
    | fail_if_no_progress with_reducible refine Kept.upd ?_ rfl rfl rfl rfl rfl rfl
    | refine Kept.foldl _ _ ?_ ?_
    | intro _
    | split

theorem Kept.askRow {l : Nat} {but : List Nat} (h : Kept s₀ s) : Kept s₀ (@State.askRow s l but) := by
  unfold State.askRow
  try dsimp only [State.each]
  repeat' first
    | with_reducible assumption
    | with_reducible apply Kept.ring
    | fail_if_no_progress with_reducible refine Kept.upd ?_ rfl rfl rfl rfl rfl rfl
    | refine Kept.foldl _ _ ?_ ?_
    | intro _
    | split

theorem Kept.askUpdate {w : SeamWr} {old : Member} {u : SeamUpd} (h : Kept s₀ s) : Kept s₀ (@State.askUpdate s w old u) := by
  unfold State.askUpdate
  try dsimp only [State.each]
  repeat' first
    | with_reducible assumption
    | with_reducible apply Kept.setSeam
    | with_reducible apply Kept.askRow
    | fail_if_no_progress with_reducible refine Kept.upd ?_ rfl rfl rfl rfl rfl rfl
    | refine Kept.foldl _ _ ?_ ?_
    | intro _
    | split

theorem Kept.parityNew {w : SeamWr} {p : PLine} (h : Kept s₀ s) : Kept s₀ (@State.parityNew s w p) := by
  unfold State.parityNew
  try dsimp only [State.each]
  repeat' first
    | with_reducible assumption
    | with_reducible apply Kept.setSeam
    | with_reducible apply Kept.setNew
    | fail_if_no_progress with_reducible refine Kept.upd ?_ rfl rfl rfl rfl rfl rfl
    | refine Kept.foldl _ _ ?_ ?_
    | intro _
    | split

theorem Kept.seamOldRead {no : Nat} {loc : Nat} {old : Member} (h : Kept s₀ s) : Kept s₀ (@State.seamOldRead s no loc old) := by
  unfold State.seamOldRead
  try dsimp only [State.each]
  repeat' first
    | with_reducible assumption
    | with_reducible apply Kept.setSeam
    | with_reducible apply Kept.setNew
    | with_reducible apply Kept.ring
    | with_reducible apply Kept.askUpdate
    | with_reducible apply Kept.parityNew
    | fail_if_no_progress with_reducible refine Kept.upd ?_ rfl rfl rfl rfl rfl rfl
    | refine Kept.foldl _ _ ?_ ?_
    | intro _
    | split

theorem Kept.startAlone {w : SeamWr} (h : Kept s₀ s) : Kept s₀ (@State.startAlone s w) := by
  unfold State.startAlone
  try dsimp only [State.each]
  repeat' first
    | with_reducible assumption
    | with_reducible apply Kept.setSeam
    | with_reducible apply Kept.askRow
    | with_reducible apply Kept.askUpdate
    | with_reducible apply Kept.parityNew
    | with_reducible apply Kept.ring
    | fail_if_no_progress with_reducible refine Kept.upd ?_ rfl rfl rfl rfl rfl rfl
    | refine Kept.foldl _ _ ?_ ?_
    | intro _
    | split

theorem Kept.seamStart {p : Part} {no : Nat} (h : Kept s₀ s) : Kept s₀ (@State.seamStart s p no) := by
  unfold State.seamStart
  try dsimp only [State.each]
  repeat' first
    | with_reducible assumption
    | with_reducible apply Kept.setSeam
    | with_reducible apply Kept.startAlone
    | fail_if_no_progress with_reducible refine Kept.upd ?_ rfl rfl rfl rfl rfl rfl
    | refine Kept.foldl _ _ ?_ ?_
    | intro _
    | split

theorem Kept.poisonAgain {w : SeamWr} (h : Kept s₀ s) : Kept s₀ (@State.poisonAgain s w) := by
  unfold State.poisonAgain
  try dsimp only [State.each]
  repeat' first
    | with_reducible assumption
    | with_reducible apply Kept.write
    | with_reducible apply Kept.start
    | with_reducible apply Kept.overtake
    | with_reducible apply Kept.setSeam
    | with_reducible apply Kept.wakePc
    | with_reducible apply Kept.drainCheck
    | fail_if_no_progress with_reducible refine Kept.upd ?_ rfl rfl rfl rfl rfl rfl
    | refine Kept.foldl _ _ ?_ ?_
    | intro _
    | split

theorem Kept.seamPump {c : Nat} (h : Kept s₀ s) : Kept s₀ (@State.seamPump s c) := by
  unfold State.seamPump
  try dsimp only [State.each]
  repeat' first
    | with_reducible assumption
    | with_reducible apply Kept.poisonAgain
    | with_reducible apply Kept.seamStart
    | with_reducible apply Kept.homeRead
    | fail_if_no_progress with_reducible refine Kept.upd ?_ rfl rfl rfl rfl rfl rfl
    | refine Kept.foldl _ _ ?_ ?_
    | intro _
    | split

theorem Kept.seamWriteAs {g : Tag} {r : HReq} {o : Origin} {kind : SeamKind} {keep : Bool} {ls : List PLn} (h : Kept s₀ s) : Kept s₀ (@State.seamWriteAs s g r o kind keep ls) := by
  unfold State.seamWriteAs
  try dsimp only [State.each]
  repeat' first
    | with_reducible assumption
    | with_reducible apply Kept.joinAs
    | fail_if_no_progress with_reducible refine Kept.upd ?_ rfl rfl rfl rfl rfl rfl
    | refine Kept.foldl _ _ ?_ ?_
    | intro _
    | split

theorem Kept.seamWrite {r : HReq} {o : Origin} {kind : SeamKind} {keep : Bool} {ls : List PLn} (h : Kept s₀ s) : Kept s₀ (@State.seamWrite s r o kind keep ls) := by
  unfold State.seamWrite
  try dsimp only [State.each]
  repeat' first
    | with_reducible assumption
    | with_reducible apply Kept.stamp
    | with_reducible apply Kept.seamWriteAs
    | fail_if_no_progress with_reducible refine Kept.upd ?_ rfl rfl rfl rfl rfl rfl
    | refine Kept.foldl _ _ ?_ ?_
    | intro _
    | split

theorem Kept.seamDone {w : SeamWr} {cause : Nat} (h : Kept s₀ s) : Kept s₀ (@State.seamDone s w cause) := by
  unfold State.seamDone
  try dsimp only [State.each]
  repeat' first
    | with_reducible assumption
    | with_reducible apply Kept.ring
    | with_reducible apply Kept.lineWritten
    | fail_if_no_progress with_reducible refine Kept.upd ?_ rfl rfl rfl rfl rfl rfl
    | refine Kept.foldl _ _ ?_ ?_
    | intro _
    | split

theorem Kept.endSeam {w : SeamWr} {cause : Nat} (h : Kept s₀ s) : Kept s₀ (@State.endSeam s w cause) := by
  unfold State.endSeam
  try dsimp only [State.each]
  repeat' first
    | with_reducible assumption
    | with_reducible apply Kept.ring
    | with_reducible apply Kept.setSeam
    | with_reducible apply Kept.seamPump
    | with_reducible apply Kept.seamDone
    | fail_if_no_progress with_reducible refine Kept.upd ?_ rfl rfl rfl rfl rfl rfl
    | refine Kept.foldl _ _ ?_ ?_
    | intro _
    | split

theorem Kept.seamWritten {no : Nat} {loc : Nat} {ok : Bool} (h : Kept s₀ s) : Kept s₀ (@State.seamWritten s no loc ok) := by
  unfold State.seamWritten
  try dsimp only [State.each]
  repeat' first
    | with_reducible assumption
    | with_reducible apply Kept.setSeam
    | with_reducible apply Kept.endSeam
    | fail_if_no_progress with_reducible refine Kept.upd ?_ rfl rfl rfl rfl rfl rfl
    | refine Kept.foldl _ _ ?_ ?_
    | intro _
    | split

theorem Kept.homeLost {no : Nat} (h : Kept s₀ s) : Kept s₀ (@State.homeLost s no) := by
  unfold State.homeLost
  try dsimp only [State.each]
  repeat' first
    | with_reducible assumption
    | fail_if_no_progress with_reducible refine Kept.upd ?_ rfl rfl rfl rfl rfl rfl
    | refine Kept.foldl _ _ ?_ ?_
    | intro _
    | split

theorem Kept.linesRetired {r : HReq} {idxs : List Nat} {addr : Nat} (h : Kept s₀ s) : Kept s₀ (@State.linesRetired s r idxs addr) := by
  unfold State.linesRetired
  try dsimp only [State.each]
  repeat' first
    | with_reducible assumption
    | with_reducible apply Kept.lineWritten
    | with_reducible apply Kept.retiredHit
    | with_reducible apply Kept.answerRetired
    | with_reducible apply Kept.ring
    | fail_if_no_progress with_reducible refine Kept.upd ?_ rfl rfl rfl rfl rfl rfl
    | refine Kept.foldl _ _ ?_ ?_
    | intro _
    | split

theorem Kept.queueOrdinary {r : HReq} {o : Origin} {ls : List PLn} (h : Kept s₀ s) : Kept s₀ (@State.queueOrdinary s r o ls) := by
  unfold State.queueOrdinary
  try dsimp only [State.each]
  repeat' first
    | with_reducible assumption
    | with_reducible apply Kept.joinQueue
    | with_reducible apply Kept.homeRead
    | with_reducible apply Kept.homeLost
    | with_reducible apply Kept.retiredHit
    | with_reducible apply Kept.linesRetired
    | fail_if_no_progress with_reducible refine Kept.upd ?_ rfl rfl rfl rfl rfl rfl
    | refine Kept.foldl _ _ ?_ ?_
    | intro _
    | split

theorem Kept.addRecon {no : Nat} {l : Nat} {o : Origin} {r : HReq} {idx : Nat} {own : Option Member} {stale : Bool} {was : Line} (h : Kept s₀ s) : Kept s₀ (@State.addRecon s no l o r idx own stale was) := by
  unfold State.addRecon
  try dsimp only [State.each]
  repeat' first
    | with_reducible assumption
    | fail_if_no_progress with_reducible refine Kept.upd ?_ rfl rfl rfl rfl rfl rfl
    | refine Kept.foldl _ _ ?_ ?_
    | intro _
    | split

theorem Kept.askMembers {l : Nat} {o : Origin} {r : HReq} {idx : Nat} {stale : Bool} {was : Line} (h : Kept s₀ s) : Kept s₀ (@State.askMembers s l o r idx stale was) := by
  unfold State.askMembers
  try dsimp only [State.each]
  repeat' first
    | with_reducible assumption
    | with_reducible apply Kept.addRecon
    | with_reducible apply Kept.askRow
    | fail_if_no_progress with_reducible refine Kept.upd ?_ rfl rfl rfl rfl rfl rfl
    | refine Kept.foldl _ _ ?_ ?_
    | intro _
    | split

theorem Kept.lineLost {r : HReq} {o : Origin} {idx : Nat} (h : Kept s₀ s) : Kept s₀ (@State.lineLost s r o idx) := by
  unfold State.lineLost
  try dsimp only [State.each]
  repeat' first
    | with_reducible assumption
    | with_reducible apply Kept.lineWritten
    | with_reducible apply Kept.answer
    | with_reducible apply Kept.homeRead
    | with_reducible apply Kept.homeLost
    | fail_if_no_progress with_reducible refine Kept.upd ?_ rfl rfl rfl rfl rfl rfl
    | refine Kept.foldl _ _ ?_ ?_
    | intro _
    | split

theorem Kept.standIn {r : HReq} {o : Origin} {ls : List PLn} (h : Kept s₀ s) : Kept s₀ (@State.standIn s r o ls) := by
  unfold State.standIn
  try dsimp only [State.each]
  repeat' first
    | with_reducible assumption
    | with_reducible apply Kept.lineLost
    | with_reducible apply Kept.joinQueue
    | with_reducible apply Kept.seamWrite
    | with_reducible apply Kept.stamp
    | with_reducible apply Kept.addRecon
    | fail_if_no_progress with_reducible refine Kept.upd ?_ rfl rfl rfl rfl rfl rfl
    | refine Kept.foldl _ _ ?_ ?_
    | intro _
    | split

theorem Kept.passLine {q : Nat} {r : HReq} {o : Origin} {l : PLn} (h : Kept s₀ s) : Kept s₀ (@State.passLine s q r o l) := by
  unfold State.passLine
  try dsimp only [State.each]
  repeat' first
    | with_reducible assumption
    | with_reducible apply Kept.sendRequest
    | fail_if_no_progress with_reducible refine Kept.upd ?_ rfl rfl rfl rfl rfl rfl
    | refine Kept.foldl _ _ ?_ ?_
    | intro _
    | split

theorem Kept.queueHome {r : HReq} {o : Origin} (h : Kept s₀ s) : Kept s₀ (@State.queueHome s r o) := by
  unfold State.queueHome
  try dsimp only [State.each]
  repeat' first
    | with_reducible assumption
    | with_reducible apply Kept.queueOrdinary
    | with_reducible apply Kept.sendRequest
    | with_reducible apply Kept.passLine
    | with_reducible apply Kept.seamWrite
    | with_reducible apply Kept.joinQueue
    | with_reducible apply Kept.standIn
    | fail_if_no_progress with_reducible refine Kept.upd ?_ rfl rfl rfl rfl rfl rfl
    | refine Kept.foldl _ _ ?_ ?_
    | intro _
    | split

theorem Kept.countDecode {c : Nat} {l : Nat} {r : Decoded} (h : Kept s₀ s) : Kept s₀ (@State.countDecode s c l r) := by
  unfold State.countDecode
  try dsimp only [State.each]
  repeat' first
    | with_reducible assumption
    | with_reducible apply Kept.logLim
    | with_reducible apply Kept.count
    | fail_if_no_progress with_reducible refine Kept.upd ?_ rfl rfl rfl rfl rfl rfl
    | refine Kept.foldl _ _ ?_ ?_
    | intro _
    | split

theorem Kept.countLane {c : Nat} {d : Decode1} (h : Kept s₀ s) : Kept s₀ (@State.countLane s c d) := by
  unfold State.countLane
  try dsimp only [State.each]
  repeat' first
    | with_reducible assumption
    | with_reducible apply Kept.setPc
    | with_reducible apply Kept.log1
    | with_reducible apply Kept.laneFault
    | fail_if_no_progress with_reducible refine Kept.upd ?_ rfl rfl rfl rfl rfl rfl
    | refine Kept.foldl _ _ ?_ ?_
    | intro _
    | split

theorem Kept.countRow {pl : Place} {r : Decoded} (h : Kept s₀ s) : Kept s₀ (@State.countRow s pl r) := by
  unfold State.countRow
  try dsimp only [State.each]
  repeat' first
    | with_reducible assumption
    | with_reducible apply Kept.setPc
    | with_reducible apply Kept.rowFault
    | fail_if_no_progress with_reducible refine Kept.upd ?_ rfl rfl rfl rfl rfl rfl
    | refine Kept.foldl _ _ ?_ ?_
    | intro _
    | split

theorem Kept.groupJoin {pl : Place} {o : Origin} (h : Kept s₀ s) : Kept s₀ (@State.groupJoin s pl o) := by
  unfold State.groupJoin
  try dsimp only [State.each]
  repeat' first
    | with_reducible assumption
    | with_reducible apply Kept.joinAs
    | fail_if_no_progress with_reducible refine Kept.upd ?_ rfl rfl rfl rfl rfl rfl
    | refine Kept.foldl _ _ ?_ ?_
    | intro _
    | split

theorem Kept.walkFeed {c : Nat} (h : Kept s₀ s) : Kept s₀ (@State.walkFeed s c) := by
  unfold State.walkFeed
  try dsimp only [State.each]
  repeat' first
    | with_reducible assumption
    | with_reducible apply Kept.setPc
    | with_reducible apply Kept.groupJoin
    | fail_if_no_progress with_reducible refine Kept.upd ?_ rfl rfl rfl rfl rfl rfl
    | refine Kept.foldl _ _ ?_ ?_
    | intro _
    | split

theorem Kept.walkOn {c : Nat} (h : Kept s₀ s) : Kept s₀ (@State.walkOn s c) := by
  unfold State.walkOn
  try dsimp only [State.each]
  repeat' first
    | with_reducible assumption
    | with_reducible apply Kept.setPc
    | with_reducible apply Kept.walkFeed
    | fail_if_no_progress with_reducible refine Kept.upd ?_ rfl rfl rfl rfl rfl rfl
    | refine Kept.foldl _ _ ?_ ?_
    | intro _
    | split

theorem Kept.queueFix {c : Nat} {l : Nat} (h : Kept s₀ s) : Kept s₀ (@State.queueFix s c l) := by
  unfold State.queueFix
  try dsimp only [State.each]
  repeat' first
    | with_reducible assumption
    | with_reducible apply Kept.groupJoin
    | with_reducible apply Kept.count
    | with_reducible apply Kept.logLim
    | fail_if_no_progress with_reducible refine Kept.upd ?_ rfl rfl rfl rfl rfl rfl
    | refine Kept.foldl _ _ ?_ ?_
    | intro _
    | split

theorem Kept.writeBack {stale : Bool} {l : Nat} {d : PLine} (h : Kept s₀ s) : Kept s₀ (@State.writeBack s stale l d) := by
  unfold State.writeBack
  try dsimp only [State.each]
  repeat' first
    | with_reducible assumption
    | with_reducible apply Kept.joinAs
    | fail_if_no_progress with_reducible refine Kept.upd ?_ rfl rfl rfl rfl rfl rfl
    | refine Kept.foldl _ _ ?_ ?_
    | intro _
    | split

theorem Kept.pickleActGo {stale : Bool} {l : Nat} {d : Decode1} {o : Origin} (h : Kept s₀ s) : Kept s₀ (State.pickleAct.go stale l d o s) := by
  unfold State.pickleAct.go
  split
  · exact (h.writeBack).log1
  · split
    · exact h.askMembers
    · exact h

theorem Kept.pickleAct {stale : Bool} {l : Nat} {d : Decode1} {o : Origin} (h : Kept s₀ s) : Kept s₀ (s.pickleAct stale l d o) := by
  unfold State.pickleAct
  split
  · exact h
  · exact h
  · exact h.writeBack
  · exact h.pickleActGo
  · exact h.pickleActGo

theorem Kept.answerLine {r : HReq} {idx : Nat} {st : Status} {corrected : Bool} {data : Line} (h : Kept s₀ s) : Kept s₀ (@State.answerLine s r idx st corrected data) := by
  unfold State.answerLine
  try dsimp only [State.each]
  repeat' first
    | with_reducible assumption
    | with_reducible apply Kept.answer
    | fail_if_no_progress with_reducible refine Kept.upd ?_ rfl rfl rfl rfl rfl rfl
    | refine Kept.foldl _ _ ?_ ?_
    | intro _
    | split

theorem Kept.readDone {o : Origin} {r : HReq} {idx : Nat} {d : PLine} {corrected : Bool} (h : Kept s₀ s) : Kept s₀ (@State.readDone s o r idx d corrected) := by
  unfold State.readDone
  try dsimp only [State.each]
  repeat' first
    | with_reducible assumption
    | with_reducible apply Kept.answerLine
    | with_reducible apply Kept.homeRead
    | fail_if_no_progress with_reducible refine Kept.upd ?_ rfl rfl rfl rfl rfl rfl
    | refine Kept.foldl _ _ ?_ ?_
    | intro _
    | split

theorem Kept.readerDecode {o : Origin} {r : HReq} {idx : Nat} {l : Nat} {d : Decode1} (h : Kept s₀ s) : Kept s₀ (@State.readerDecode s o r idx l d) := by
  unfold State.readerDecode
  try dsimp only [State.each]
  repeat' first
    | with_reducible assumption
    | with_reducible apply Kept.ring
    | with_reducible apply Kept.askMembers
    | with_reducible apply Kept.readDone
    | fail_if_no_progress with_reducible refine Kept.upd ?_ rfl rfl rfl rfl rfl rfl
    | refine Kept.foldl _ _ ?_ ?_
    | intro _
    | split

theorem Kept.ownRead {f : Recon → Bool} {l : Nat} {m : Member} (h : Kept s₀ s) : Kept s₀ (@State.ownRead s f l m) := by
  unfold State.ownRead
  try dsimp only [State.each]
  repeat' first
    | with_reducible assumption
    | with_reducible apply Kept.askRow
    | fail_if_no_progress with_reducible refine Kept.upd ?_ rfl rfl rfl rfl rfl rfl
    | refine Kept.foldl _ _ ?_ ?_
    | intro _
    | split

theorem Kept.rowRead {pl : Place} {l : Nat} {d : Decode1} (h : Kept s₀ s) : Kept s₀ (@State.rowRead s pl l d) := by
  unfold State.rowRead
  try dsimp only [State.each]
  repeat' first
    | with_reducible assumption
    | with_reducible apply Kept.askRow
    | fail_if_no_progress with_reducible refine Kept.upd ?_ rfl rfl rfl rfl rfl rfl
    | refine Kept.foldl _ _ ?_ ?_
    | intro _
    | split

theorem Kept.standRead {no : Nat} {l : Nat} {d : Decode1} (h : Kept s₀ s) : Kept s₀ (@State.standRead s no l d) := by
  unfold State.standRead
  try dsimp only [State.each]
  repeat' first
    | with_reducible assumption
    | with_reducible apply Kept.ownRead
    | with_reducible apply Kept.readDone
    | fail_if_no_progress with_reducible refine Kept.upd ?_ rfl rfl rfl rfl rfl rfl
    | refine Kept.foldl _ _ ?_ ?_
    | intro _
    | split

theorem Kept.useDecode {f : Flight} {d : Decode1} (h : Kept s₀ s) : Kept s₀ (@State.useDecode s f d) := by
  unfold State.useDecode
  try dsimp only [State.each]
  repeat' first
    | with_reducible assumption
    | with_reducible apply Kept.count
    | with_reducible apply Kept.pickleAct
    | with_reducible apply Kept.seamOldRead
    | with_reducible apply Kept.readerDecode
    | with_reducible apply Kept.homeRead
    | with_reducible apply Kept.standRead
    | with_reducible apply Kept.rowRead
    | with_reducible apply Kept.ring
    | with_reducible apply Kept.start
    | with_reducible apply Kept.ownRead
    | fail_if_no_progress with_reducible refine Kept.upd ?_ rfl rfl rfl rfl rfl rfl
    | refine Kept.foldl _ _ ?_ ?_
    | intro _
    | split

theorem Kept.nextFlight {c : Nat} {f : Flight} (h : Kept s₀ s) (hn : s.nextFlight c = some (f, t)) : Kept s₀ t := by
  unfold State.nextFlight at hn
  split at hn
  · cases hn
    exact Kept.toCycle (Kept.upd h rfl rfl rfl rfl rfl rfl)
  · cases hn

theorem Kept.readArrives {c : Nat} {errs : List (Nat × Word)} (h : Kept s₀ s) : Kept s₀ (s.readArrives c errs) := by
  unfold State.readArrives
  split
  · exact h
  · rename_i f s0 hn
    have h0 : Kept s₀ s0 := h.nextFlight hn
    split
    · exact h
    · extract_lets l d _ s1 s2 s3
      have h2 : Kept s₀ s2 := (h0.setPc.countDecode.countLane).countRow
      exact (Kept.ite h2.queueFix h2).useDecode

theorem Kept.readAbsent {c : Nat} (h : Kept s₀ s) : Kept s₀ (s.readAbsent c) := by
  unfold State.readAbsent
  split
  · exact h
  · rename_i f s0 hn
    have h0 : Kept s₀ s0 := h.nextFlight hn
    split
    · exact h
    · extract_lets q since s1 s2 out
      have h2 : Kept s₀ s2 := Kept.ite h0.setPc h0.setPc.useDecode
      split
      · split
        · exact h2.stackFault
        · split
          · exact h2
          · exact h2.pcFault
      · exact h2

theorem Kept.feedJob {j : SeamJob} (h : Kept s₀ s) : Kept s₀ (@State.feedJob s j) := by
  unfold State.feedJob
  try dsimp only [State.each]
  repeat' first
    | with_reducible assumption
    | with_reducible apply Kept.addRecon
    | with_reducible apply Kept.askRow
    | with_reducible apply Kept.joinAs
    | fail_if_no_progress with_reducible refine Kept.upd ?_ rfl rfl rfl rfl rfl rfl
    | refine Kept.foldl _ _ ?_ ?_
    | intro _
    | split

theorem Kept.rowReady {j : Nat} (h : Kept s₀ s) : Kept s₀ (@State.rowReady s j) := by
  unfold State.rowReady
  try dsimp only [State.each]
  repeat' first
    | with_reducible assumption
    | fail_if_no_progress with_reducible refine Kept.upd ?_ rfl rfl rfl rfl rfl rfl
    | refine Kept.foldl _ _ ?_ ?_
    | intro _
    | split

theorem Kept.rowBack {j : Nat} (h : Kept s₀ s) : Kept s₀ (@State.rowBack s j) := by
  unfold State.rowBack
  try dsimp only [State.each]
  repeat' first
    | with_reducible assumption
    | fail_if_no_progress with_reducible refine Kept.upd ?_ rfl rfl rfl rfl rfl rfl
    | refine Kept.foldl _ _ ?_ ?_
    | intro _
    | split

theorem Kept.rowResynced {j : Nat} (h : Kept s₀ s) : Kept s₀ (@State.rowResynced s j) := by
  unfold State.rowResynced
  try dsimp only [State.each]
  repeat' first
    | with_reducible assumption
    | with_reducible apply Kept.rowBack
    | with_reducible apply Kept.rowReady
    | fail_if_no_progress with_reducible refine Kept.upd ?_ rfl rfl rfl rfl rfl rfl
    | refine Kept.foldl _ _ ?_ ?_
    | intro _
    | split

theorem Kept.resyncStep (h : Kept s₀ s) : Kept s₀ (@State.resyncStep s) := by
  unfold State.resyncStep
  try dsimp only [State.each]
  repeat' first
    | with_reducible assumption
    | with_reducible apply Kept.rowResynced
    | with_reducible apply Kept.feedJob
    | fail_if_no_progress with_reducible refine Kept.upd ?_ rfl rfl rfl rfl rfl rfl
    | refine Kept.foldl _ _ ?_ ?_
    | intro _
    | split

theorem Kept.jobLine {l : Nat} (h : Kept s₀ s) : Kept s₀ (@State.jobLine s l) := by
  unfold State.jobLine
  try dsimp only [State.each]
  repeat' first
    | with_reducible assumption
    | with_reducible apply Kept.rowResynced
    | with_reducible apply Kept.resyncStep
    | fail_if_no_progress with_reducible refine Kept.upd ?_ rfl rfl rfl rfl rfl rfl
    | refine Kept.foldl _ _ ?_ ?_
    | intro _
    | split

theorem Kept.jobWritten {l : Nat} {d : PLine} (h : Kept s₀ s) : Kept s₀ (@State.jobWritten s l d) := by
  unfold State.jobWritten
  try dsimp only [State.each]
  repeat' first
    | with_reducible assumption
    | with_reducible apply Kept.ring
    | with_reducible apply Kept.jobLine
    | fail_if_no_progress with_reducible refine Kept.upd ?_ rfl rfl rfl rfl rfl rfl
    | refine Kept.foldl _ _ ?_ ?_
    | intro _
    | split

theorem Kept.writeArrives {c : Nat} {ok : Bool} (h : Kept s₀ s) : Kept s₀ (s.writeArrives c ok) := by
  unfold State.writeArrives
  split
  · exact h
  · rename_i f s0 hn
    have h0 : Kept s₀ s0 := h.nextFlight hn
    split
    · exact h
    · dsimp only
      split
      · exact h0.writeLine.lineWritten
      · exact h0.writeLine.seamWritten
      · split
        · exact h0.writeLine.endSeam
        · exact h0.writeLine
      · exact h0.writeLine.jobWritten
      all_goals exact h0.writeLine

theorem Kept.poisonHere {loc : Nat} (h : Kept s₀ s) : Kept s₀ (@State.poisonHere s loc) := by
  unfold State.poisonHere
  try dsimp only [State.each]
  repeat' first
    | with_reducible assumption
    | with_reducible apply Kept.seamWrite
    | with_reducible apply Kept.joinQueue
    | fail_if_no_progress with_reducible refine Kept.upd ?_ rfl rfl rfl rfl rfl rfl
    | refine Kept.foldl _ _ ?_ ?_
    | intro _
    | split

theorem Kept.poisonStand {line : Nat} {loc : Nat} (h : Kept s₀ s) : Kept s₀ (@State.poisonStand s line loc) := by
  unfold State.poisonStand
  try dsimp only [State.each]
  repeat' first
    | with_reducible assumption
    | with_reducible apply Kept.standIn
    | fail_if_no_progress with_reducible refine Kept.upd ?_ rfl rfl rfl rfl rfl rfl
    | refine Kept.foldl _ _ ?_ ?_
    | intro _
    | split

theorem Kept.standNew {w : SeamWr} {ms : List Member} (h : Kept s₀ s) : Kept s₀ (@State.standNew s w ms) := by
  unfold State.standNew
  try dsimp only [State.each]
  repeat' first
    | with_reducible assumption
    | with_reducible apply Kept.setSeam
    | with_reducible apply Kept.setNew
    | fail_if_no_progress with_reducible refine Kept.upd ?_ rfl rfl rfl rfl rfl rfl
    | refine Kept.foldl _ _ ?_ ?_
    | intro _
    | split

theorem Kept.jobWrite {l : Nat} {d : PLine} (h : Kept s₀ s) : Kept s₀ (@State.jobWrite s l d) := by
  unfold State.jobWrite
  try dsimp only [State.each]
  repeat' first
    | with_reducible assumption
    | with_reducible apply Kept.joinAs
    | fail_if_no_progress with_reducible refine Kept.upd ?_ rfl rfl rfl rfl rfl rfl
    | refine Kept.foldl _ _ ?_ ?_
    | intro _
    | split

theorem Kept.pickleGone {x : Recon} (h : Kept s₀ s) : Kept s₀ (@State.pickleGone s x) := by
  unfold State.pickleGone
  try dsimp only [State.each]
  repeat' first
    | with_reducible assumption
    | with_reducible apply Kept.poisonHere
    | fail_if_no_progress with_reducible refine Kept.upd ?_ rfl rfl rfl rfl rfl rfl
    | refine Kept.foldl _ _ ?_ ?_
    | intro _
    | split

theorem Kept.reconDone {x : Recon} {ms : List Member} {par : Member} (h : Kept s₀ s) : Kept s₀ (@State.reconDone s x ms par) := by
  unfold State.reconDone
  try dsimp only [State.each]
  repeat' first
    | with_reducible assumption
    | with_reducible apply Kept.jobWrite
    | with_reducible apply Kept.pickleGone
    | with_reducible apply Kept.writeBack
    | with_reducible apply Kept.readDone
    | with_reducible apply Kept.count
    | with_reducible apply Kept.log1
    | fail_if_no_progress with_reducible refine Kept.upd ?_ rfl rfl rfl rfl rfl rfl
    | refine Kept.foldl _ _ ?_ ?_
    | intro _
    | split

theorem Kept.fixHeld {l : Nat} {ms : List Member} {par : Member} (h : Kept s₀ s) : Kept s₀ (@State.fixHeld s l ms par) := by
  unfold State.fixHeld
  try dsimp only [State.each]
  repeat' first
    | with_reducible assumption
    | with_reducible apply Kept.count
    | with_reducible apply Kept.log1
    | fail_if_no_progress with_reducible refine Kept.upd ?_ rfl rfl rfl rfl rfl rfl
    | refine Kept.foldl _ _ ?_ ?_
    | intro _
    | split

theorem Kept.reconstruct {l : Nat} {ms : List Member} {par : Member} (h : Kept s₀ s) : Kept s₀ (@State.reconstruct s l ms par) := by
  unfold State.reconstruct
  try dsimp only [State.each]
  repeat' first
    | with_reducible assumption
    | with_reducible apply Kept.reconDone
    | with_reducible apply Kept.parityNew
    | with_reducible apply Kept.standNew
    | with_reducible apply Kept.fixHeld
    | fail_if_no_progress with_reducible refine Kept.upd ?_ rfl rfl rfl rfl rfl rfl
    | refine Kept.foldl _ _ ?_ ?_
    | intro _
    | split

theorem Kept.enginesIssued {c : Nat} {ps : List Part} (h : Kept s₀ s) : Kept s₀ (@State.enginesIssued s c ps) := by
  unfold State.enginesIssued
  try dsimp only [State.each]
  repeat' first
    | with_reducible assumption
    | with_reducible apply Kept.walkOn
    | with_reducible apply Kept.homeRead
    | fail_if_no_progress with_reducible refine Kept.upd ?_ rfl rfl rfl rfl rfl rfl
    | refine Kept.foldl _ _ ?_ ?_
    | intro _
    | split

theorem Kept.runAccess {c : Nat} {ps : List Part} (h : Kept s₀ s) : Kept s₀ (@State.runAccess s c ps) := by
  unfold State.runAccess
  try dsimp only [State.each]
  repeat' first
    | with_reducible assumption
    | with_reducible apply Kept.issue
    | with_reducible apply Kept.enginesIssued
    | with_reducible apply Kept.seamPump
    | fail_if_no_progress with_reducible refine Kept.upd ?_ rfl rfl rfl rfl rfl rfl
    | refine Kept.foldl _ _ ?_ ?_
    | intro _
    | split

theorem Kept.accessNow {c : Nat} (h : Kept s₀ s) : Kept s₀ (@State.accessNow s c) := by
  unfold State.accessNow
  try dsimp only [State.each]
  repeat' first
    | with_reducible assumption
    | with_reducible apply Kept.setPc
    | with_reducible apply Kept.runAccess
    | fail_if_no_progress with_reducible refine Kept.upd ?_ rfl rfl rfl rfl rfl rfl
    | refine Kept.foldl _ _ ?_ ?_
    | intro _
    | split

theorem Kept.giveBack {u : SeamUpd} (h : Kept s₀ s) : Kept s₀ (@State.giveBack s u) := by
  unfold State.giveBack
  try dsimp only [State.each]
  repeat' first
    | with_reducible assumption
    | fail_if_no_progress with_reducible refine Kept.upd ?_ rfl rfl rfl rfl rfl rfl
    | refine Kept.foldl _ _ ?_ ?_
    | intro _
    | split

theorem Kept.takeUpdate {u : SeamUpd} (h : Kept s₀ s) : Kept s₀ (@State.takeUpdate s u) := by
  unfold State.takeUpdate
  try dsimp only [State.each]
  repeat' first
    | with_reducible assumption
    | with_reducible apply Kept.giveBack
    | with_reducible apply Kept.ring
    | with_reducible apply Kept.seamWriteAs
    | with_reducible apply Kept.start
    | with_reducible apply Kept.seamPump
    | fail_if_no_progress with_reducible refine Kept.upd ?_ rfl rfl rfl rfl rfl rfl
    | refine Kept.foldl _ _ ?_ ?_
    | intro _
    | split

theorem Kept.releaseUpdates (h : Kept s₀ s) : Kept s₀ (@State.releaseUpdates s) := by
  unfold State.releaseUpdates
  try dsimp only [State.each]
  repeat' first
    | with_reducible assumption
    | with_reducible apply Kept.takeUpdate
    | fail_if_no_progress with_reducible refine Kept.upd ?_ rfl rfl rfl rfl rfl rfl
    | refine Kept.foldl _ _ ?_ ?_
    | intro _
    | split

theorem Kept.abortJob (h : Kept s₀ s) : Kept s₀ (@State.abortJob s) := by
  unfold State.abortJob
  try dsimp only [State.each]
  repeat' first
    | with_reducible assumption
    | with_reducible apply Kept.dropParts
    | with_reducible apply Kept.releaseUpdates
    | fail_if_no_progress with_reducible refine Kept.upd ?_ rfl rfl rfl rfl rfl rfl
    | refine Kept.foldl _ _ ?_ ?_
    | intro _
    | split

theorem Kept.countGone {old : State} {stack : Bool} (h : Kept s₀ s) : Kept s₀ (@State.countGone s old stack) := by
  unfold State.countGone
  try dsimp only [State.each]
  repeat' first
    | with_reducible assumption
    | with_reducible apply Kept.count
    | with_reducible apply Kept.log1
    | fail_if_no_progress with_reducible refine Kept.upd ?_ rfl rfl rfl rfl rfl rfl
    | refine Kept.foldl _ _ ?_ ?_
    | intro _
    | split

theorem Kept.setEntry {line : Nat} {e : Entry} (h : Kept s₀ s) : Kept s₀ (@State.setEntry s line e) := by
  unfold State.setEntry
  try dsimp only [State.each]
  repeat' first
    | with_reducible assumption
    | fail_if_no_progress with_reducible refine Kept.upd ?_ rfl rfl rfl rfl rfl rfl
    | refine Kept.foldl _ _ ?_ ?_
    | intro _
    | split

theorem Kept.freeEntryOf {line : Nat} (h : Kept s₀ s) : Kept s₀ (@State.freeEntryOf s line) := by
  unfold State.freeEntryOf
  try dsimp only [State.each]
  repeat' first
    | with_reducible assumption
    | fail_if_no_progress with_reducible refine Kept.upd ?_ rfl rfl rfl rfl rfl rfl
    | refine Kept.foldl _ _ ?_ ?_
    | intro _
    | split

theorem Kept.touch {line : Nat} (h : Kept s₀ s) : Kept s₀ (@State.touch s line) := by
  unfold State.touch
  try dsimp only [State.each]
  repeat' first
    | with_reducible assumption
    | with_reducible apply Kept.stamp
    | fail_if_no_progress with_reducible refine Kept.upd ?_ rfl rfl rfl rfl rfl rfl
    | refine Kept.foldl _ _ ?_ ?_
    | intro _
    | split

theorem Kept.setTxn {x : Txn} (h : Kept s₀ s) : Kept s₀ (@State.setTxn s x) := by
  unfold State.setTxn
  try dsimp only [State.each]
  repeat' first
    | with_reducible assumption
    | fail_if_no_progress with_reducible refine Kept.upd ?_ rfl rfl rfl rfl rfl rfl
    | refine Kept.foldl _ _ ?_ ?_
    | intro _
    | split

theorem Kept.homePoison {line : Nat} (h : Kept s₀ s) : Kept s₀ (@State.homePoison s line) := by
  unfold State.homePoison
  try dsimp only [State.each]
  repeat' first
    | with_reducible assumption
    | with_reducible apply Kept.poisonHere
    | with_reducible apply Kept.poisonStand
    | fail_if_no_progress with_reducible refine Kept.upd ?_ rfl rfl rfl rfl rfl rfl
    | refine Kept.foldl _ _ ?_ ?_
    | intro _
    | split

theorem Kept.loseLine {line : Nat} (h : Kept s₀ s) : Kept s₀ (@State.loseLine s line) := by
  unfold State.loseLine
  try dsimp only [State.each]
  repeat' first
    | with_reducible assumption
    | with_reducible apply Kept.homePoison
    | with_reducible apply Kept.count
    | fail_if_no_progress with_reducible refine Kept.upd ?_ rfl rfl rfl rfl rfl rfl
    | refine Kept.foldl _ _ ?_ ?_
    | intro _
    | split

theorem Kept.violation {a : Nat} {line : Nat} {msg : Nat} {st : Nat} (h : Kept s₀ s) : Kept s₀ (@State.violation s a line msg st) := by
  unfold State.violation
  try dsimp only [State.each]
  repeat' first
    | with_reducible assumption
    | with_reducible apply Kept.logLim
    | fail_if_no_progress with_reducible refine Kept.upd ?_ rfl rfl rfl rfl rfl rfl
    | refine Kept.foldl _ _ ?_ ?_
    | intro _
    | split

theorem Kept.reclaim {line : Nat} (h : Kept s₀ s) : Kept s₀ (@State.reclaim s line) := by
  unfold State.reclaim
  try dsimp only [State.each]
  repeat' first
    | with_reducible assumption
    | with_reducible apply Kept.loseLine
    | with_reducible apply Kept.setEntry
    | fail_if_no_progress with_reducible refine Kept.upd ?_ rfl rfl rfl rfl rfl rfl
    | refine Kept.foldl _ _ ?_ ?_
    | intro _
    | split

theorem Kept.classify1 {line : Nat} (h : Kept s₀ s) : Kept s₀ (@State.classify1 s line) := by
  unfold State.classify1
  try dsimp only [State.each]
  repeat' first
    | with_reducible assumption
    | with_reducible apply Kept.setEntry
    | fail_if_no_progress with_reducible refine Kept.upd ?_ rfl rfl rfl rfl rfl rfl
    | refine Kept.foldl _ _ ?_ ?_
    | intro _
    | split

theorem Kept.holdSnoops {m : SnoopMsg} (h : Kept s₀ s) : Kept s₀ (@State.holdSnoops s m) := by
  unfold State.holdSnoops
  try dsimp only [State.each]
  repeat' first
    | with_reducible assumption
    | fail_if_no_progress with_reducible refine Kept.upd ?_ rfl rfl rfl rfl rfl rfl
    | refine Kept.foldl _ _ ?_ ?_
    | intro _
    | split

theorem Kept.sendSnoops {id : Nat} {line : Nat} {req : Nat} {ty : SnpType} {sup : Option Nat} {targets : List Nat} (h : Kept s₀ s) : Kept s₀ (@State.sendSnoops s id line req ty sup targets) := by
  unfold State.sendSnoops
  try dsimp only [State.each]
  repeat' first
    | with_reducible assumption
    | with_reducible apply Kept.ring
    | with_reducible apply Kept.count
    | with_reducible apply Kept.holdSnoops
    | fail_if_no_progress with_reducible refine Kept.upd ?_ rfl rfl rfl rfl rfl rfl
    | refine Kept.foldl _ _ ?_ ?_
    | intro _
    | split

theorem Kept.openTxn {x : Txn} (h : Kept s₀ s) : Kept s₀ (@State.openTxn s x) := by
  unfold State.openTxn
  try dsimp only [State.each]
  repeat' first
    | with_reducible assumption
    | fail_if_no_progress with_reducible refine Kept.upd ?_ rfl rfl rfl rfl rfl rfl
    | refine Kept.foldl _ _ ?_ ?_
    | intro _
    | split

theorem Kept.dropRead {x : Txn} (h : Kept s₀ s) : Kept s₀ (@State.dropRead s x) := by
  unfold State.dropRead
  try dsimp only [State.each]
  repeat' first
    | with_reducible assumption
    | with_reducible apply Kept.dropParts
    | with_reducible apply Kept.homeRead
    | fail_if_no_progress with_reducible refine Kept.upd ?_ rfl rfl rfl rfl rfl rfl
    | refine Kept.foldl _ _ ?_ ?_
    | intro _
    | split

theorem Kept.startRead {x : Txn} (h : Kept s₀ s) : Kept s₀ (@State.startRead s x) := by
  unfold State.startRead
  try dsimp only [State.each]
  repeat' first
    | with_reducible assumption
    | with_reducible apply Kept.setTxn
    | with_reducible apply Kept.queueHome
    | with_reducible apply Kept.homeRead
    | fail_if_no_progress with_reducible refine Kept.upd ?_ rfl rfl rfl rfl rfl rfl
    | refine Kept.foldl _ _ ?_ ?_
    | intro _
    | split

theorem Kept.startWrite {x : Txn} {d : Line} (h : Kept s₀ s) : Kept s₀ (@State.startWrite s x d) := by
  unfold State.startWrite
  try dsimp only [State.each]
  repeat' first
    | with_reducible assumption
    | with_reducible apply Kept.setEntry
    | with_reducible apply Kept.dropRead
    | with_reducible apply Kept.setTxn
    | with_reducible apply Kept.queueHome
    | fail_if_no_progress with_reducible refine Kept.upd ?_ rfl rfl rfl rfl rfl rfl
    | refine Kept.foldl _ _ ?_ ?_
    | intro _
    | split

theorem Kept.noteGiven {r : HReq} {grant : Bool} (h : Kept s₀ s) : Kept s₀ (@State.noteGiven s r grant) := by
  unfold State.noteGiven
  try dsimp only [State.each]
  repeat' first
    | with_reducible assumption
    | fail_if_no_progress with_reducible refine Kept.upd ?_ rfl rfl rfl rfl rfl rfl
    | refine Kept.foldl _ _ ?_ ?_
    | intro _
    | split

theorem Kept.homeAnswer {r : HReq} {idx : Nat} {c : Cresp} {st : Status} {corr : Bool} {d : Option Line} (h : Kept s₀ s) : Kept s₀ (@State.homeAnswer s r idx c st corr d) := by
  unfold State.homeAnswer
  try dsimp only [State.each]
  repeat' first
    | with_reducible assumption
    | with_reducible apply Kept.noteGiven
    | with_reducible apply Kept.answer
    | fail_if_no_progress with_reducible refine Kept.upd ?_ rfl rfl rfl rfl rfl rfl
    | refine Kept.foldl _ _ ?_ ?_
    | intro _
    | split

theorem Kept.reserveFrom {line : Nat} (h : Kept s₀ s) : Kept s₀ (@State.reserveFrom s line) := by
  unfold State.reserveFrom
  try dsimp only [State.each]
  repeat' first
    | with_reducible assumption
    | fail_if_no_progress with_reducible refine Kept.upd ?_ rfl rfl rfl rfl rfl rfl
    | refine Kept.foldl _ _ ?_ ?_
    | intro _
    | split

theorem Kept.dropResv {f : Resv → Bool} (h : Kept s₀ s) : Kept s₀ (@State.dropResv s f) := by
  unfold State.dropResv
  try dsimp only [State.each]
  repeat' first
    | with_reducible assumption
    | fail_if_no_progress with_reducible refine Kept.upd ?_ rfl rfl rfl rfl rfl rfl
    | refine Kept.foldl _ _ ?_ ?_
    | intro _
    | split

theorem Kept.retry {r : HReq} {mayReserve : Bool} (h : Kept s₀ s) : Kept s₀ (@State.retry s r mayReserve) := by
  unfold State.retry
  try dsimp only [State.each]
  repeat' first
    | with_reducible assumption
    | with_reducible apply Kept.count
    | with_reducible apply Kept.noteGiven
    | with_reducible apply Kept.answer
    | with_reducible apply Kept.reserveFrom
    | with_reducible apply Kept.logLim
    | fail_if_no_progress with_reducible refine Kept.upd ?_ rfl rfl rfl rfl rfl rfl
    | refine Kept.foldl _ _ ?_ ?_
    | intro _
    | split

theorem Kept.grantLate {line : Nat} {r : HReq} (h : Kept s₀ s) : Kept s₀ (@State.grantLate s line r) := by
  unfold State.grantLate
  generalize s.stillCoherent r = c
  split
  · exact h
  · exact Kept.upd h rfl rfl rfl rfl rfl rfl

theorem Kept.serve {x : Txn} {r : HReq} (h : Kept s₀ s) : Kept s₀ (@State.serve s x r) := by
  unfold State.serve
  extract_lets d s0 used g ha1 s1 s2
  have h0 : Kept s₀ s0 := by
    simp only [s0]
    split
    · exact h.count
    · exact h
  have h1 : Kept s₀ s1 := Kept.upd h0 rfl rfl rfl rfl rfl rfl
  have h2 : Kept s₀ s2 := by
    simp only [s2]
    split
    · exact h1
    · exact h1.setEntry.grantLate
  clear_value s0 s1 s2
  repeat' first
    | exact h0.homeAnswer
    | exact h2.homeAnswer
    | split

theorem Kept.closeTxn {x : Txn} (h : Kept s₀ s) : Kept s₀ (@State.closeTxn s x) := by
  unfold State.closeTxn
  try dsimp only [State.each]
  repeat' first
    | with_reducible assumption
    | with_reducible apply Kept.dropRead
    | fail_if_no_progress with_reducible refine Kept.upd ?_ rfl rfl rfl rfl rfl rfl
    | refine Kept.foldl _ _ ?_ ?_
    | intro _
    | split

theorem Kept.endBad {x : Txn} (h : Kept s₀ s) : Kept s₀ (@State.endBad s x) := by
  unfold State.endBad
  try dsimp only [State.each]
  repeat' first
    | with_reducible assumption
    | with_reducible apply Kept.homePoison
    | with_reducible apply Kept.freeEntryOf
    | with_reducible apply Kept.closeTxn
    | with_reducible apply Kept.lineWritten
    | with_reducible apply Kept.homeAnswer
    | fail_if_no_progress with_reducible refine Kept.upd ?_ rfl rfl rfl rfl rfl rfl
    | refine Kept.foldl _ _ ?_ ?_
    | intro _
    | split

theorem Kept.plainWriteNow {x : Txn} (h : Kept s₀ s) : Kept s₀ (@State.plainWriteNow s x) := by
  unfold State.plainWriteNow
  try dsimp only [State.each]
  repeat' first
    | with_reducible assumption
    | with_reducible apply Kept.freeEntryOf
    | with_reducible apply Kept.closeTxn
    | with_reducible apply Kept.queueHome
    | fail_if_no_progress with_reducible refine Kept.upd ?_ rfl rfl rfl rfl rfl rfl
    | refine Kept.foldl _ _ ?_ ?_
    | intro _
    | split

theorem Kept.endHeal {x : Txn} (h : Kept s₀ s) : Kept s₀ (@State.endHeal s x) := by
  unfold State.endHeal
  try dsimp only [State.each]
  repeat' first
    | with_reducible assumption
    | with_reducible apply Kept.freeEntryOf
    | with_reducible apply Kept.closeTxn
    | with_reducible apply Kept.startWrite
    | with_reducible apply Kept.loseLine
    | fail_if_no_progress with_reducible refine Kept.upd ?_ rfl rfl rfl rfl rfl rfl
    | refine Kept.foldl _ _ ?_ ?_
    | intro _
    | split

theorem Kept.lostWrite {x : Txn} {d : Line} (h : Kept s₀ s) : Kept s₀ (@State.lostWrite s x d) := by
  unfold State.lostWrite
  try dsimp only [State.each]
  repeat' first
    | with_reducible assumption
    | with_reducible apply Kept.queueHome
    | fail_if_no_progress with_reducible refine Kept.upd ?_ rfl rfl rfl rfl rfl rfl
    | refine Kept.foldl _ _ ?_ ?_
    | intro _
    | split

theorem Kept.storeOrEnd {x : Txn} (h : Kept s₀ s) : Kept s₀ (@State.storeOrEnd s x) := by
  unfold State.storeOrEnd
  try dsimp only [State.each]
  repeat' first
    | with_reducible assumption
    | with_reducible apply Kept.startWrite
    | with_reducible apply Kept.closeTxn
    | fail_if_no_progress with_reducible refine Kept.upd ?_ rfl rfl rfl rfl rfl rfl
    | refine Kept.foldl _ _ ?_ ?_
    | intro _
    | split

theorem Kept.useData {x : Txn} (h : Kept s₀ s) : Kept s₀ (@State.useData s x) := by
  unfold State.useData
  try dsimp only [State.each]
  repeat' first
    | with_reducible assumption
    | with_reducible apply Kept.startWrite
    | with_reducible apply Kept.closeTxn
    | with_reducible apply Kept.serve
    | with_reducible apply Kept.setTxn
    | with_reducible apply Kept.startRead
    | fail_if_no_progress with_reducible refine Kept.upd ?_ rfl rfl rfl rfl rfl rfl
    | refine Kept.foldl _ _ ?_ ?_
    | intro _
    | split

theorem Kept.endLostRead {x : Txn} (h : Kept s₀ s) : Kept s₀ (State.endLost.read s x) := by
  unfold State.endLost.read
  split
  · exact h.lostWrite.useData
  · exact h.useData

theorem Kept.endLost {x : Txn} (h : Kept s₀ s) : Kept s₀ (s.endLost x) := by
  unfold State.endLost
  split
  · exact h.storeOrEnd
  · dsimp only
    split
    · exact h.plainWriteNow
    · exact h.plainWriteNow
    · split
      · exact (h.lostWrite.homeAnswer).closeTxn
      · exact h.homeAnswer.closeTxn
    · exact h.endLostRead
    · exact h.endLostRead
    · exact h.endLostRead
    · exact h.endLostRead
    · exact h.closeTxn

theorem Kept.settle {x : Txn} (h : Kept s₀ s) : Kept s₀ (@State.settle s x) := by
  unfold State.settle
  try dsimp only [State.each]
  repeat' first
    | with_reducible assumption
    | with_reducible apply Kept.endBad
    | with_reducible apply Kept.useData
    | with_reducible apply Kept.endLost
    | with_reducible apply Kept.serve
    | with_reducible apply Kept.closeTxn
    | with_reducible apply Kept.plainWriteNow
    | with_reducible apply Kept.storeOrEnd
    | with_reducible apply Kept.freeEntryOf
    | with_reducible apply Kept.endHeal
    | fail_if_no_progress with_reducible refine Kept.upd ?_ rfl rfl rfl rfl rfl rfl
    | refine Kept.foldl _ _ ?_ ?_
    | intro _
    | split

theorem Kept.begin {line : Nat} {kind : TxKind} {r : Option HReq} {idx : Nat} {ty : SnpType} {sup : Option Nat} {targets : List Nat} {grant : Cresp} {early : Bool} {next : (Option (Nat × HReq))} (h : Kept s₀ s) : Kept s₀ (@State.begin s line kind r idx ty sup targets grant early next) := by
  unfold State.begin
  try dsimp only [State.each]
  repeat' first
    | with_reducible assumption
    | with_reducible apply Kept.count
    | with_reducible apply Kept.openTxn
    | with_reducible apply Kept.sendSnoops
    | with_reducible apply Kept.touch
    | with_reducible apply Kept.settle
    | with_reducible apply Kept.startRead
    | fail_if_no_progress with_reducible refine Kept.upd ?_ rfl rfl rfl rfl rfl rfl
    | refine Kept.foldl _ _ ?_ ?_
    | intro _
    | split

theorem Kept.violate {r : HReq} {st : Nat} (h : Kept s₀ s) : Kept s₀ (@State.violate s r st) := by
  unfold State.violate
  try dsimp only [State.each]
  repeat' first
    | with_reducible assumption
    | with_reducible apply Kept.loseLine
    | with_reducible apply Kept.freeEntryOf
    | with_reducible apply Kept.violation
    | with_reducible apply Kept.count
    | with_reducible apply Kept.homeAnswer
    | fail_if_no_progress with_reducible refine Kept.upd ?_ rfl rfl rfl rfl rfl rfl
    | refine Kept.foldl _ _ ?_ ?_
    | intro _
    | split

theorem Kept.ackNow {r : HReq} {e : Option Entry} (h : Kept s₀ s) : Kept s₀ (@State.ackNow s r e) := by
  unfold State.ackNow
  try dsimp only [State.each]
  repeat' first
    | with_reducible assumption
    | with_reducible apply Kept.count
    | with_reducible apply Kept.setEntry
    | with_reducible apply Kept.homeAnswer
    | fail_if_no_progress with_reducible refine Kept.upd ?_ rfl rfl rfl rfl rfl rfl
    | refine Kept.foldl _ _ ?_ ?_
    | intro _
    | split

theorem Kept.orderWrBack {r : HReq} {e : Option Entry} (h : Kept s₀ s) : Kept s₀ (@State.orderWrBack s r e) := by
  unfold State.orderWrBack
  try dsimp only [State.each]
  repeat' first
    | with_reducible assumption
    | with_reducible apply Kept.ackNow
    | with_reducible apply Kept.count
    | with_reducible apply Kept.setEntry
    | with_reducible apply Kept.openTxn
    | with_reducible apply Kept.queueHome
    | with_reducible apply Kept.violate
    | fail_if_no_progress with_reducible refine Kept.upd ?_ rfl rfl rfl rfl rfl rfl
    | refine Kept.foldl _ _ ?_ ?_
    | intro _
    | split

theorem Kept.orderUnique {r : HReq} {e : Option Entry} (h : Kept s₀ s) : Kept s₀ (@State.orderUnique s r e) := by
  unfold State.orderUnique
  try dsimp only [State.each]
  repeat' first
    | with_reducible assumption
    | with_reducible apply Kept.begin
    | with_reducible apply Kept.violate
    | with_reducible apply Kept.setEntry
    | fail_if_no_progress with_reducible refine Kept.upd ?_ rfl rfl rfl rfl rfl rfl
    | refine Kept.foldl _ _ ?_ ?_
    | intro _
    | split

theorem Kept.orderShared {r : HReq} {e : Option Entry} (h : Kept s₀ s) : Kept s₀ (@State.orderShared s r e) := by
  unfold State.orderShared
  try dsimp only [State.each]
  repeat' first
    | with_reducible assumption
    | with_reducible apply Kept.begin
    | with_reducible apply Kept.violate
    | with_reducible apply Kept.setEntry
    | fail_if_no_progress with_reducible refine Kept.upd ?_ rfl rfl rfl rfl rfl rfl
    | refine Kept.foldl _ _ ?_ ?_
    | intro _
    | split

theorem Kept.orderUpgrade {r : HReq} {e : Option Entry} (h : Kept s₀ s) : Kept s₀ (@State.orderUpgrade s r e) := by
  unfold State.orderUpgrade
  try dsimp only [State.each]
  repeat' first
    | with_reducible assumption
    | with_reducible apply Kept.orderUnique
    | with_reducible apply Kept.begin
    | fail_if_no_progress with_reducible refine Kept.upd ?_ rfl rfl rfl rfl rfl rfl
    | refine Kept.foldl _ _ ?_ ?_
    | intro _
    | split

theorem Kept.orderPlainRead {r : HReq} {idx : Nat} {line : Nat} {e : Option Entry} (h : Kept s₀ s) : Kept s₀ (@State.orderPlainRead s r idx line e) := by
  unfold State.orderPlainRead
  try dsimp only [State.each]
  repeat' first
    | with_reducible assumption
    | with_reducible apply Kept.begin
    | fail_if_no_progress with_reducible refine Kept.upd ?_ rfl rfl rfl rfl rfl rfl
    | refine Kept.foldl _ _ ?_ ?_
    | intro _
    | split

theorem Kept.orderPlainWrite {r : HReq} {idx : Nat} {line : Nat} {e : Option Entry} (h : Kept s₀ s) : Kept s₀ (@State.orderPlainWrite s r idx line e) := by
  unfold State.orderPlainWrite
  try dsimp only [State.each]
  repeat' first
    | with_reducible assumption
    | with_reducible apply Kept.begin
    | fail_if_no_progress with_reducible refine Kept.upd ?_ rfl rfl rfl rfl rfl rfl
    | refine Kept.foldl _ _ ?_ ?_
    | intro _
    | split

theorem Kept.orderOp {r : HReq} {idx : Nat} {line : Nat} (h : Kept s₀ s) : Kept s₀ (@State.orderOp s r idx line) := by
  unfold State.orderOp
  try dsimp only [State.each]
  repeat' first
    | with_reducible assumption
    | with_reducible apply Kept.orderPlainRead
    | with_reducible apply Kept.orderPlainWrite
    | with_reducible apply Kept.orderShared
    | with_reducible apply Kept.orderUnique
    | with_reducible apply Kept.orderUpgrade
    | with_reducible apply Kept.orderWrBack
    | with_reducible apply Kept.masterReset
    | fail_if_no_progress with_reducible refine Kept.upd ?_ rfl rfl rfl rfl rfl rfl
    | refine Kept.foldl _ _ ?_ ?_
    | intro _
    | split

theorem Kept.orderInto {r : HReq} {idx : Nat} {line : Nat} (h : Kept s₀ s) : Kept s₀ (@State.orderInto s r idx line) := by
  unfold State.orderInto
  try dsimp only [State.each]
  repeat' first
    | with_reducible assumption
    | with_reducible apply Kept.retry
    | with_reducible apply Kept.reclaim
    | with_reducible apply Kept.orderOp
    | with_reducible apply Kept.count
    | with_reducible apply Kept.freeEntryOf
    | with_reducible apply Kept.begin
    | fail_if_no_progress with_reducible refine Kept.upd ?_ rfl rfl rfl rfl rfl rfl
    | refine Kept.foldl _ _ ?_ ?_
    | intro _
    | split

theorem Kept.inDoubt {r : HReq} {idx : Nat} {d : Doubt} (h : Kept s₀ s) (hd : s.inDoubt r idx d = some t) : Kept s₀ t := by
  unfold State.inDoubt at hd
  split at hd
  all_goals first
    | cases hd; done
    | (cases hd; first | exact h.ackNow | exact h.homeAnswer | exact h.lineWritten | exact h.count.homeAnswer)

theorem Kept.order {r : HReq} {idx : Nat} (h : Kept s₀ s) : Kept s₀ (s.order r idx) := by
  unfold State.order
  extract_lets line z e grants
  have hz : Kept s₀ z := h.classify1.reclaim
  split
  · exact hz.begin
  · cases e with
    | none => exact Kept.ite hz.orderInto hz.orderOp
    | some x =>
      cases hd : z.inDoubt r idx x.doubt with
      | none => simpa only [hd] using Kept.ite hz.orderInto hz.orderOp
      | some y => simpa only [hd] using hz.inDoubt hd

theorem Kept.ownWork {line : Nat} {k : TxKind} (h : Kept s₀ s) : Kept s₀ (@State.ownWork s line k) := by
  unfold State.ownWork
  try dsimp only [State.each]
  repeat' first
    | with_reducible assumption
    | with_reducible apply Kept.reclaim
    | with_reducible apply Kept.begin
    | fail_if_no_progress with_reducible refine Kept.upd ?_ rfl rfl rfl rfl rfl rfl
    | refine Kept.foldl _ _ ?_ ?_
    | intro _
    | split

theorem Kept.startWork {fuel : Nat} (h : Kept s₀ s) : Kept s₀ (s.startWork fuel) := by
  induction fuel generalizing s with
  | zero => exact h
  | succ n ih =>
    unfold State.startWork
    split
    · exact h
    · split
      · exact h
      · exact ih (Kept.ownWork (Kept.upd h rfl rfl rfl rfl rfl rfl))

theorem Kept.servePlain {fuel : Nat} (h : Kept s₀ s) : Kept s₀ (s.servePlain fuel) := by
  induction fuel generalizing s with
  | zero => exact h
  | succ n ih =>
    unfold State.servePlain
    dsimp only
    split
    · exact ih (Kept.order (Kept.upd h rfl rfl rfl rfl rfl rfl))
    · split
      · exact h
      · split
        · exact ih (Kept.upd h rfl rfl rfl rfl rfl rfl)
        · exact h

theorem Kept.afterFree {line : Nat} (h : Kept s₀ s) : Kept s₀ (@State.afterFree s line) := by
  unfold State.afterFree
  try dsimp only [State.each]
  repeat' first
    | with_reducible assumption
    | with_reducible apply Kept.reserveFrom
    | with_reducible apply Kept.startWork
    | with_reducible apply Kept.servePlain
    | fail_if_no_progress with_reducible refine Kept.upd ?_ rfl rfl rfl rfl rfl rfl
    | refine Kept.foldl _ _ ?_ ?_
    | intro _
    | split

theorem Kept.afterTxn {x : Txn} (h : Kept s₀ s) : Kept s₀ (@State.afterTxn s x) := by
  unfold State.afterTxn
  try dsimp only [State.each]
  repeat' first
    | with_reducible assumption
    | with_reducible apply Kept.order
    | with_reducible apply Kept.afterFree
    | fail_if_no_progress with_reducible refine Kept.upd ?_ rfl rfl rfl rfl rfl rfl
    | refine Kept.foldl _ _ ?_ ?_
    | intro _
    | split

theorem Kept.heal1 {line : Nat} (h : Kept s₀ s) : Kept s₀ (@State.heal1 s line) := by
  unfold State.heal1
  try dsimp only [State.each]
  repeat' first
    | with_reducible assumption
    | with_reducible apply Kept.setEntry
    | with_reducible apply Kept.ownWork
    | fail_if_no_progress with_reducible refine Kept.upd ?_ rfl rfl rfl rfl rfl rfl
    | refine Kept.foldl _ _ ?_ ?_
    | intro _
    | split

theorem Kept.arriveCoherent {r : HReq} (h : Kept s₀ s) : Kept s₀ (@State.arriveCoherent s r) := by
  unfold State.arriveCoherent
  try dsimp only [State.each]
  repeat' first
    | with_reducible assumption
    | with_reducible apply Kept.retry
    | with_reducible apply Kept.heal1
    | with_reducible apply Kept.dropResv
    | with_reducible apply Kept.order
    | with_reducible apply Kept.afterFree
    | fail_if_no_progress with_reducible refine Kept.upd ?_ rfl rfl rfl rfl rfl rfl
    | refine Kept.foldl _ _ ?_ ?_
    | intro _
    | split

theorem Kept.arrivePlain {r : HReq} {idxs : List Nat} (h : Kept s₀ s) : Kept s₀ (@State.arrivePlain s r idxs) := by
  unfold State.arrivePlain
  try dsimp only [State.each]
  repeat' first
    | with_reducible assumption
    | with_reducible apply Kept.heal1
    | with_reducible apply Kept.servePlain
    | fail_if_no_progress with_reducible refine Kept.upd ?_ rfl rfl rfl rfl rfl rfl
    | refine Kept.foldl _ _ ?_ ?_
    | intro _
    | split

theorem Kept.poisonReport {line : Nat} (h : Kept s₀ s) : Kept s₀ (@State.poisonReport s line) := by
  unfold State.poisonReport
  try dsimp only [State.each]
  repeat' first
    | with_reducible assumption
    | with_reducible apply Kept.sendRequest
    | with_reducible apply Kept.poisonHere
    | with_reducible apply Kept.poisonStand
    | fail_if_no_progress with_reducible refine Kept.upd ?_ rfl rfl rfl rfl rfl rfl
    | refine Kept.foldl _ _ ?_ ?_
    | intro _
    | split

theorem Kept.takeSeam {r : HReq} (h : Kept s₀ s) : Kept s₀ (@State.takeSeam s r) := by
  unfold State.takeSeam
  try dsimp only [State.each]
  repeat' first
    | with_reducible assumption
    | with_reducible apply Kept.poisonReport
    | with_reducible apply Kept.queueHome
    | with_reducible apply Kept.standIn
    | with_reducible apply Kept.joinQueue
    | fail_if_no_progress with_reducible refine Kept.upd ?_ rfl rfl rfl rfl rfl rfl
    | refine Kept.foldl _ _ ?_ ?_
    | intro _
    | split

theorem Kept.takeRequest {r : HReq} (h : Kept s₀ s) : Kept s₀ (@State.takeRequest s r) := by
  unfold State.takeRequest
  try dsimp only [State.each]
  repeat' first
    | with_reducible assumption
    | with_reducible apply Kept.takeSeam
    | with_reducible apply Kept.queueHome
    | with_reducible apply Kept.arriveCoherent
    | with_reducible apply Kept.arrivePlain
    | fail_if_no_progress with_reducible refine Kept.upd ?_ rfl rfl rfl rfl rfl rfl
    | refine Kept.foldl _ _ ?_ ?_
    | intro _
    | split

theorem Kept.homeArrive {r : HReq} (h : Kept s₀ s) : Kept s₀ (@State.homeArrive s r) := by
  unfold State.homeArrive
  try dsimp only [State.each]
  repeat' first
    | with_reducible assumption
    | with_reducible apply Kept.takeRequest
    | fail_if_no_progress with_reducible refine Kept.upd ?_ rfl rfl rfl rfl rfl rfl
    | refine Kept.foldl _ _ ?_ ?_
    | intro _
    | split

theorem Kept.releaseHeld (h : Kept s₀ s) : Kept s₀ (@State.releaseHeld s) := by
  unfold State.releaseHeld
  try dsimp only [State.each]
  repeat' first
    | with_reducible assumption
    | with_reducible apply Kept.homeArrive
    | fail_if_no_progress with_reducible refine Kept.upd ?_ rfl rfl rfl rfl rfl rfl
    | refine Kept.foldl _ _ ?_ ?_
    | intro _
    | split

theorem Kept.snoopAnswer {a : Nat} {id : Nat} {ans : SnpAns} {keep : CState} {dirty : Bool} {d : Line} {zero : Bool} (h : Kept s₀ s) : Kept s₀ (@State.snoopAnswer s a id ans keep dirty d zero) := by
  unfold State.snoopAnswer
  try dsimp only [State.each]
  repeat' first
    | with_reducible assumption
    | with_reducible apply Kept.violation
    | with_reducible apply Kept.setEntry
    | with_reducible apply Kept.setTxn
    | with_reducible apply Kept.settle
    | with_reducible apply Kept.afterTxn
    | fail_if_no_progress with_reducible refine Kept.upd ?_ rfl rfl rfl rfl rfl rfl
    | refine Kept.foldl _ _ ?_ ?_
    | intro _
    | split

theorem Kept.agentReply {a : Nat} {n : SnpName} {ans : SnpAns} {keep : CState} {dirty : Bool} {d : Line} {zero : Bool} (h : Kept s₀ s) : Kept s₀ (@State.agentReply s a n ans keep dirty d zero) := by
  unfold State.agentReply
  try dsimp only [State.each]
  repeat' first
    | with_reducible assumption
    | with_reducible apply Kept.snoopAnswer
    | with_reducible apply Kept.ring
    | fail_if_no_progress with_reducible refine Kept.upd ?_ rfl rfl rfl rfl rfl rfl
    | refine Kept.foldl _ _ ?_ ?_
    | intro _
    | split

theorem Kept.homeRead {id : Nat} {d : PLine} (h : Kept s₀ s) : Kept s₀ (@State.homeRead s id d) := by
  unfold State.homeRead
  try dsimp only [State.each]
  repeat' first
    | with_reducible assumption
    | with_reducible apply Kept.setTxn
    | with_reducible apply Kept.settle
    | with_reducible apply Kept.afterTxn
    | fail_if_no_progress with_reducible refine Kept.upd ?_ rfl rfl rfl rfl rfl rfl
    | refine Kept.foldl _ _ ?_ ?_
    | intro _
    | split

theorem Kept.homeWritten {id : Nat} (h : Kept s₀ s) : Kept s₀ (@State.homeWritten s id) := by
  unfold State.homeWritten
  try dsimp only [State.each]
  repeat' first
    | with_reducible assumption
    | with_reducible apply Kept.closeTxn
    | with_reducible apply Kept.homeAnswer
    | with_reducible apply Kept.afterTxn
    | fail_if_no_progress with_reducible refine Kept.upd ?_ rfl rfl rfl rfl rfl rfl
    | refine Kept.foldl _ _ ?_ ?_
    | intro _
    | split

theorem Kept.goneFor {a : Nat} {x0 : Txn} (h : Kept s₀ s) : Kept s₀ (@State.goneFor s a x0) := by
  unfold State.goneFor
  try dsimp only [State.each]
  repeat' first
    | with_reducible assumption
    | with_reducible apply Kept.setEntry
    | with_reducible apply Kept.reclaim
    | with_reducible apply Kept.setTxn
    | with_reducible apply Kept.settle
    | with_reducible apply Kept.afterTxn
    | fail_if_no_progress with_reducible refine Kept.upd ?_ rfl rfl rfl rfl rfl rfl
    | refine Kept.foldl _ _ ?_ ?_
    | intro _
    | split

theorem Kept.deadAgent {a : Nat} {c : DeadCause} (h : Kept s₀ s) : Kept s₀ (@State.deadAgent s a c) := by
  unfold State.deadAgent
  try dsimp only [State.each]
  repeat' first
    | with_reducible assumption
    | with_reducible apply Kept.log1
    | with_reducible apply Kept.goneFor
    | with_reducible apply Kept.afterFree
    | fail_if_no_progress with_reducible refine Kept.upd ?_ rfl rfl rfl rfl rfl rfl
    | refine Kept.foldl _ _ ?_ ?_
    | intro _
    | split

theorem Kept.reclaimDone {a : Nat} (h : Kept s₀ s) : Kept s₀ (@State.reclaimDone s a) := by
  unfold State.reclaimDone
  try dsimp only [State.each]
  repeat' first
    | with_reducible assumption
    | with_reducible apply Kept.reclaim
    | with_reducible apply Kept.log1
    | fail_if_no_progress with_reducible refine Kept.upd ?_ rfl rfl rfl rfl rfl rfl
    | refine Kept.foldl _ _ ?_ ?_
    | intro _
    | split

theorem Kept.forgetReq {r : HReq} {idx : Nat} (h : Kept s₀ s) : Kept s₀ (@State.forgetReq s r idx) := by
  unfold State.forgetReq
  try dsimp only [State.each]
  repeat' first
    | with_reducible assumption
    | with_reducible apply Kept.homeAnswer
    | with_reducible apply Kept.retry
    | with_reducible apply Kept.lineWritten
    | fail_if_no_progress with_reducible refine Kept.upd ?_ rfl rfl rfl rfl rfl rfl
    | refine Kept.foldl _ _ ?_ ?_
    | intro _
    | split

theorem Kept.forgetCopies (h : Kept s₀ s) : Kept s₀ (@State.forgetCopies s) := by
  unfold State.forgetCopies
  try dsimp only [State.each]
  repeat' first
    | with_reducible assumption
    | with_reducible apply Kept.dropParts
    | with_reducible apply Kept.homeRead
    | with_reducible apply Kept.forgetReq
    | with_reducible apply Kept.startWork
    | fail_if_no_progress with_reducible refine Kept.upd ?_ rfl rfl rfl rfl rfl rfl
    | refine Kept.foldl _ _ ?_ ?_
    | intro _
    | split

theorem Kept.recallLines {ls : List Nat} (h : Kept s₀ s) : Kept s₀ (@State.recallLines s ls) := by
  unfold State.recallLines
  try dsimp only [State.each]
  repeat' first
    | with_reducible assumption
    | with_reducible apply Kept.startWork
    | fail_if_no_progress with_reducible refine Kept.upd ?_ rfl rfl rfl rfl rfl rfl
    | refine Kept.foldl _ _ ?_ ?_
    | intro _
    | split

theorem Kept.splitAnswer {r : HReq} {idx : Nat} {dirty : Bool} (h : Kept s₀ s) : Kept s₀ (@State.splitAnswer s r idx dirty) := by
  unfold State.splitAnswer
  try dsimp only [State.each]
  repeat' first
    | with_reducible assumption
    | with_reducible apply Kept.lineWritten
    | with_reducible apply Kept.homeAnswer
    | with_reducible apply Kept.masterReset
    | fail_if_no_progress with_reducible refine Kept.upd ?_ rfl rfl rfl rfl rfl rfl
    | refine Kept.foldl _ _ ?_ ?_
    | intro _
    | split

theorem Kept.splitTxn {x0 : Txn} (h : Kept s₀ s) : Kept s₀ (@State.splitTxn s x0) := by
  unfold State.splitTxn
  try dsimp only [State.each]
  repeat' first
    | with_reducible assumption
    | with_reducible apply Kept.classify1
    | with_reducible apply Kept.setTxn
    | with_reducible apply Kept.splitAnswer
    | with_reducible apply Kept.retry
    | with_reducible apply Kept.settle
    | with_reducible apply Kept.afterTxn
    | fail_if_no_progress with_reducible refine Kept.upd ?_ rfl rfl rfl rfl rfl rfl
    | refine Kept.foldl _ _ ?_ ?_
    | intro _
    | split

theorem Kept.homeSplit (h : Kept s₀ s) : Kept s₀ (@State.homeSplit s) := by
  unfold State.homeSplit
  try dsimp only [State.each]
  repeat' first
    | with_reducible assumption
    | with_reducible apply Kept.splitTxn
    | fail_if_no_progress with_reducible refine Kept.upd ?_ rfl rfl rfl rfl rfl rfl
    | refine Kept.foldl _ _ ?_ ?_
    | intro _
    | split

theorem Kept.classifyDone (h : Kept s₀ s) : Kept s₀ (@State.classifyDone s) := by
  unfold State.classifyDone
  try dsimp only [State.each]
  repeat' first
    | with_reducible assumption
    | with_reducible apply Kept.classify1
    | with_reducible apply Kept.log1
    | fail_if_no_progress with_reducible refine Kept.upd ?_ rfl rfl rfl rfl rfl rfl
    | refine Kept.foldl _ _ ?_ ?_
    | intro _
    | split

theorem Kept.holdExpire (h : Kept s₀ s) : Kept s₀ (@State.holdExpire s) := by
  unfold State.holdExpire
  try dsimp only [State.each]
  repeat' first
    | with_reducible assumption
    | with_reducible apply Kept.loseLine
    | with_reducible apply Kept.startWork
    | with_reducible apply Kept.log1
    | fail_if_no_progress with_reducible refine Kept.upd ?_ rfl rfl rfl rfl rfl rfl
    | refine Kept.foldl _ _ ?_ ?_
    | intro _
    | split

theorem Kept.healFrame (h : Kept s₀ s) : Kept s₀ (@State.healFrame s) := by
  unfold State.healFrame
  try dsimp only [State.each]
  repeat' first
    | with_reducible assumption
    | with_reducible apply Kept.setEntry
    | with_reducible apply Kept.startWork
    | fail_if_no_progress with_reducible refine Kept.upd ?_ rfl rfl rfl rfl rfl rfl
    | refine Kept.foldl _ _ ?_ ?_
    | intro _
    | split

theorem Kept.homeHeal (h : Kept s₀ s) : Kept s₀ (@State.homeHeal s) := by
  unfold State.homeHeal
  try dsimp only [State.each]
  repeat' first
    | with_reducible assumption
    | with_reducible apply Kept.setEntry
    | with_reducible apply Kept.healFrame
    | fail_if_no_progress with_reducible refine Kept.upd ?_ rfl rfl rfl rfl rfl rfl
    | refine Kept.foldl _ _ ?_ ?_
    | intro _
    | split

theorem Kept.healDone (h : Kept s₀ s) : Kept s₀ (@State.healDone s) := by
  unfold State.healDone
  try dsimp only [State.each]
  repeat' first
    | with_reducible assumption
    | with_reducible apply Kept.log1
    | fail_if_no_progress with_reducible refine Kept.upd ?_ rfl rfl rfl rfl rfl rfl
    | refine Kept.foldl _ _ ?_ ?_
    | intro _
    | split

theorem Kept.lostNotice {line : Nat} {req : Nat} (h : Kept s₀ s) : Kept s₀ (@State.lostNotice s line req) := by
  unfold State.lostNotice
  try dsimp only [State.each]
  repeat' first
    | with_reducible assumption
    | with_reducible apply Kept.setEntry
    | with_reducible apply Kept.loseLine
    | with_reducible apply Kept.log1
    | fail_if_no_progress with_reducible refine Kept.upd ?_ rfl rfl rfl rfl rfl rfl
    | refine Kept.foldl _ _ ?_ ?_
    | intro _
    | split

theorem Kept.recallLost (h : Kept s₀ s) : Kept s₀ (@State.recallLost s) := by
  unfold State.recallLost
  try dsimp only [State.each]
  repeat' first
    | with_reducible assumption
    | with_reducible apply Kept.startWork
    | fail_if_no_progress with_reducible refine Kept.upd ?_ rfl rfl rfl rfl rfl rfl
    | refine Kept.foldl _ _ ?_ ?_
    | intro _
    | split

theorem Kept.pruneGiven (h : Kept s₀ s) : Kept s₀ (@State.pruneGiven s) := by
  unfold State.pruneGiven
  try dsimp only [State.each]
  repeat' first
    | with_reducible assumption
    | fail_if_no_progress with_reducible refine Kept.upd ?_ rfl rfl rfl rfl rfl rfl
    | refine Kept.foldl _ _ ?_ ?_
    | intro _
    | split

theorem Kept.rebuildFeed (h : Kept s₀ s) : Kept s₀ (@State.rebuildFeed s) := by
  unfold State.rebuildFeed
  try dsimp only [State.each]
  repeat' first
    | with_reducible assumption
    | with_reducible apply Kept.feedJob
    | fail_if_no_progress with_reducible refine Kept.upd ?_ rfl rfl rfl rfl rfl rfl
    | refine Kept.foldl _ _ ?_ ?_
    | intro _
    | split

theorem Kept.rebuildStep (h : Kept s₀ s) : Kept s₀ (@State.rebuildStep s) := by
  unfold State.rebuildStep
  try dsimp only [State.each]
  repeat' first
    | with_reducible assumption
    | with_reducible apply Kept.startWork
    | with_reducible apply Kept.rebuildFeed
    | fail_if_no_progress with_reducible refine Kept.upd ?_ rfl rfl rfl rfl rfl rfl
    | refine Kept.foldl _ _ ?_ ?_
    | intro _
    | split

theorem Kept.stacksBack (h : Kept s₀ s) : Kept s₀ (@State.stacksBack s) := by
  unfold State.stacksBack
  try dsimp only [State.each]
  repeat' first
    | with_reducible assumption
    | fail_if_no_progress with_reducible refine Kept.upd ?_ rfl rfl rfl rfl rfl rfl
    | refine Kept.foldl _ _ ?_ ?_
    | intro _
    | split

theorem Kept.seamTick (h : Kept s₀ s) : Kept s₀ (@State.seamTick s) := by
  unfold State.seamTick
  try dsimp only [State.each]
  repeat' first
    | with_reducible assumption
    | with_reducible apply Kept.pruneGiven
    | with_reducible apply Kept.recallLost
    | with_reducible apply Kept.releaseHeld
    | with_reducible apply Kept.resyncStep
    | with_reducible apply Kept.rebuildFeed
    | with_reducible apply Kept.rebuildStep
    | fail_if_no_progress with_reducible refine Kept.upd ?_ rfl rfl rfl rfl rfl rfl
    | refine Kept.foldl _ _ ?_ ?_
    | intro _
    | split

theorem Kept.snoopArrive {m : SnoopMsg} (h : Kept s₀ s) : Kept s₀ (@State.snoopArrive s m) := by
  unfold State.snoopArrive
  try dsimp only [State.each]
  repeat' first
    | with_reducible assumption
    | with_reducible apply Kept.holdSnoops
    | fail_if_no_progress with_reducible refine Kept.upd ?_ rfl rfl rfl rfl rfl rfl
    | refine Kept.foldl _ _ ?_ ?_
    | intro _
    | split

theorem Kept.setAgent {a : Nat} {line : Nat} {v : ALine} (h : Kept s₀ s) : Kept s₀ (@State.setAgent s a line v) := by
  unfold State.setAgent
  try dsimp only [State.each]
  repeat' first
    | with_reducible assumption
    | fail_if_no_progress with_reducible refine Kept.upd ?_ rfl rfl rfl rfl rfl rfl
    | refine Kept.foldl _ _ ?_ ?_
    | intro _
    | split

theorem Kept.agentSend {a : Nat} {op : Op} {line : Nat} {dirty : Bool} {d : Line} (h : Kept s₀ s) : Kept s₀ (@State.agentSend s a op line dirty d) := by
  unfold State.agentSend
  try dsimp only [State.each]
  repeat' first
    | with_reducible assumption
    | with_reducible apply Kept.setAgent
    | with_reducible apply Kept.emit
    | fail_if_no_progress with_reducible refine Kept.upd ?_ rfl rfl rfl rfl rfl rfl
    | refine Kept.foldl _ _ ?_ ?_
    | intro _
    | split

end Sys2Proof.Machine
end

