-- ==== Sys2Proof/Laws/KeptFrame.lean ====
section
/-!
SUPPORT. What every operation keeps (`Kept`): heat, repair, the commit and the frame.
-/
namespace Sys2Proof.Machine
open Sys2Proof
set_option linter.unusedTactic false
set_option linter.unreachableTactic false
variable {s₀ s t : State}

theorem Kept.recompute {atStart : Bool} {skip : List Nat} (h : Kept s₀ s) : Kept s₀ (@State.recompute s atStart skip) := by
  unfold State.recompute
  try dsimp only [State.each]
  repeat' first
    | with_reducible assumption
    | fail_if_no_progress with_reducible refine Kept.upd ?_ rfl rfl rfl rfl rfl rfl
    | refine Kept.foldl _ _ ?_ ?_
    | intro _
    | split

theorem Kept.measure {kind : Nat} {g : Nat} {m : Word} (h : Kept s₀ s) : Kept s₀ (@State.measure s kind g m) := by
  unfold State.measure
  try dsimp only [State.each]
  repeat' first
    | with_reducible assumption
    | with_reducible apply Kept.log1
    | with_reducible apply Kept.calFault
    | with_reducible apply Kept.setReg
    | fail_if_no_progress with_reducible refine Kept.upd ?_ rfl rfl rfl rfl rfl rfl
    | refine Kept.foldl _ _ ?_ ?_
    | intro _
    | split

theorem Kept.measureGroup {g : Nat} {m : AssayMeas} (h : Kept s₀ s) : Kept s₀ (@State.measureGroup s g m) := by
  unfold State.measureGroup
  try dsimp only [State.each]
  repeat' first
    | with_reducible assumption
    | with_reducible apply Kept.measure
    | fail_if_no_progress with_reducible refine Kept.upd ?_ rfl rfl rfl rfl rfl rfl
    | refine Kept.foldl _ _ ?_ ?_
    | intro _
    | split

theorem Kept.measureTile {m : HkMeas} {atStart : Bool} (h : Kept s₀ s) : Kept s₀ (@State.measureTile s m atStart) := by
  unfold State.measureTile
  try dsimp only [State.each]
  repeat' first
    | with_reducible assumption
    | with_reducible apply Kept.measure
    | fail_if_no_progress with_reducible refine Kept.upd ?_ rfl rfl rfl rfl rfl rfl
    | refine Kept.foldl _ _ ?_ ?_
    | intro _
    | split

theorem Kept.startAssay {meas : List AssayMeas} {m : HkMeas} {skip : List Nat} (h : Kept s₀ s) : Kept s₀ (@State.startAssay s meas m skip) := by
  unfold State.startAssay
  try dsimp only [State.each]
  repeat' first
    | with_reducible assumption
    | with_reducible apply Kept.measureGroup
    | with_reducible apply Kept.recompute
    | with_reducible apply Kept.measureTile
    | fail_if_no_progress with_reducible refine Kept.upd ?_ rfl rfl rfl rfl rfl rfl
    | refine Kept.foldl _ _ ?_ ?_
    | intro _
    | split

theorem Kept.setHot {h_ : Nat} (h : Kept s₀ s) : Kept s₀ (@State.setHot s h_) := by
  unfold State.setHot
  try dsimp only [State.each]
  repeat' first
    | with_reducible assumption
    | with_reducible apply Kept.log1
    | fail_if_no_progress with_reducible refine Kept.upd ?_ rfl rfl rfl rfl rfl rfl
    | refine Kept.foldl _ _ ?_ ?_
    | intro _
    | split

theorem Kept.hotTick (h : Kept s₀ s) : Kept s₀ (@State.hotTick s) := by
  unfold State.hotTick
  try dsimp only [State.each]
  repeat' first
    | with_reducible assumption
    | fail_if_no_progress with_reducible refine Kept.upd ?_ rfl rfl rfl rfl rfl rfl
    | refine Kept.foldl _ _ ?_ ?_
    | intro _
    | split

theorem Kept.takeInterval (h : Kept s₀ s) : Kept s₀ (@State.takeInterval s) := by
  unfold State.takeInterval
  try dsimp only [State.each]
  repeat' first
    | with_reducible assumption
    | fail_if_no_progress with_reducible refine Kept.upd ?_ rfl rfl rfl rfl rfl rfl
    | refine Kept.foldl _ _ ?_ ?_
    | intro _
    | split

theorem Kept.narrowEye {c : Nat} {e : LaneEye} (h : Kept s₀ s) : Kept s₀ (@State.narrowEye s c e) := by
  unfold State.narrowEye
  try dsimp only [State.each]
  repeat' first
    | with_reducible assumption
    | with_reducible apply Kept.log1
    | with_reducible apply Kept.laneFault
    | fail_if_no_progress with_reducible refine Kept.upd ?_ rfl rfl rfl rfl rfl rfl
    | refine Kept.foldl _ _ ?_ ?_
    | intro _
    | split

theorem Kept.setEyes {c : Nat} {ls : List LaneEye} (h : Kept s₀ s) : Kept s₀ (@State.setEyes s c ls) := by
  unfold State.setEyes
  try dsimp only [State.each]
  repeat' first
    | with_reducible assumption
    | with_reducible apply Kept.setPc
    | fail_if_no_progress with_reducible refine Kept.upd ?_ rfl rfl rfl rfl rfl rfl
    | refine Kept.foldl _ _ ?_ ?_
    | intro _
    | split

theorem Kept.laneCheck {eyes : List (Nat × LaneEye)} (h : Kept s₀ s) : Kept s₀ (@State.laneCheck s eyes) := by
  unfold State.laneCheck
  try dsimp only [State.each]
  repeat' first
    | with_reducible assumption
    | with_reducible apply Kept.narrowEye
    | with_reducible apply Kept.setEyes
    | fail_if_no_progress with_reducible refine Kept.upd ?_ rfl rfl rfl rfl rfl rfl
    | refine Kept.foldl _ _ ?_ ?_
    | intro _
    | split

theorem Kept.dlyTick (h : Kept s₀ s) : Kept s₀ (@State.dlyTick s) := by
  unfold State.dlyTick
  try dsimp only [State.each]
  repeat' first
    | with_reducible assumption
    | fail_if_no_progress with_reducible refine Kept.upd ?_ rfl rfl rfl rfl rfl rfl
    | refine Kept.foldl _ _ ?_ ?_
    | intro _
    | split

theorem Kept.keepSample {ch : Nat} {v : Option Word} {powered : Bool} (h : Kept s₀ s) : Kept s₀ (@State.keepSample s ch v powered) := by
  unfold State.keepSample
  try dsimp only [State.each]
  repeat' first
    | with_reducible assumption
    | fail_if_no_progress with_reducible refine Kept.upd ?_ rfl rfl rfl rfl rfl rfl
    | refine Kept.foldl _ _ ?_ ?_
    | intro _
    | split

theorem Kept.judgeSample {ch : Nat} (h : Kept s₀ s) : Kept s₀ (@State.judgeSample s ch) := by
  unfold State.judgeSample
  try dsimp only [State.each]
  repeat' first
    | with_reducible assumption
    | with_reducible apply Kept.logRound
    | fail_if_no_progress with_reducible refine Kept.upd ?_ rfl rfl rfl rfl rfl rfl
    | refine Kept.foldl _ _ ?_ ?_
    | intro _
    | split

theorem Kept.judgeStack {ch : Nat} (h : Kept s₀ s) : Kept s₀ (@State.judgeStack s ch) := by
  unfold State.judgeStack
  try dsimp only [State.each]
  repeat' first
    | with_reducible assumption
    | with_reducible apply Kept.setHot
    | fail_if_no_progress with_reducible refine Kept.upd ?_ rfl rfl rfl rfl rfl rfl
    | refine Kept.foldl _ _ ?_ ?_
    | intro _
    | split

theorem Kept.witnessCheck (h : Kept s₀ s) : Kept s₀ (@State.witnessCheck s) := by
  unfold State.witnessCheck
  try dsimp only [State.each]
  repeat' first
    | with_reducible assumption
    | with_reducible apply Kept.log1
    | with_reducible apply Kept.fault
    | fail_if_no_progress with_reducible refine Kept.upd ?_ rfl rfl rfl rfl rfl rfl
    | refine Kept.foldl _ _ ?_ ?_
    | intro _
    | split

theorem Kept.channelFaults (h : Kept s₀ s) : Kept s₀ (@State.channelFaults s) := by
  unfold State.channelFaults
  try dsimp only [State.each]
  repeat' first
    | with_reducible assumption
    | with_reducible apply Kept.log1
    | fail_if_no_progress with_reducible refine Kept.upd ?_ rfl rfl rfl rfl rfl rfl
    | refine Kept.foldl _ _ ?_ ?_
    | intro _
    | split

theorem Kept.coolCheck (h : Kept s₀ s) : Kept s₀ (@State.coolCheck s) := by
  unfold State.coolCheck
  try dsimp only [State.each]
  repeat' first
    | with_reducible assumption
    | with_reducible apply Kept.setHot
    | fail_if_no_progress with_reducible refine Kept.upd ?_ rfl rfl rfl rfl rfl rfl
    | refine Kept.foldl _ _ ?_ ?_
    | intro _
    | split

theorem Kept.ageLife (h : Kept s₀ s) : Kept s₀ (@State.ageLife s) := by
  unfold State.ageLife
  try dsimp only [State.each]
  repeat' first
    | with_reducible assumption
    | with_reducible apply Kept.log1
    | fail_if_no_progress with_reducible refine Kept.upd ?_ rfl rfl rfl rfl rfl rfl
    | refine Kept.foldl _ _ ?_ ?_
    | intro _
    | split

theorem Kept.chainSend {up : Bool} {u : Nat} {samples : List Word} {missing : BitVec 32} (h : Kept s₀ s) : Kept s₀ (@State.chainSend s up u samples missing) := by
  unfold State.chainSend
  try dsimp only [State.each]
  repeat' first
    | with_reducible assumption
    | with_reducible apply Kept.ring
    | fail_if_no_progress with_reducible refine Kept.upd ?_ rfl rfl rfl rfl rfl rfl
    | refine Kept.foldl _ _ ?_ ?_
    | intro _
    | split

theorem Kept.chainStart (h : Kept s₀ s) : Kept s₀ (@State.chainStart s) := by
  unfold State.chainStart
  try dsimp only [State.each]
  repeat' first
    | with_reducible assumption
    | with_reducible apply Kept.chainSend
    | fail_if_no_progress with_reducible refine Kept.upd ?_ rfl rfl rfl rfl rfl rfl
    | refine Kept.foldl _ _ ?_ ?_
    | intro _
    | split

theorem Kept.tripped {byTj : Bool} {counts : Bool} (h : Kept s₀ s) : Kept s₀ (@State.tripped s byTj counts) := by
  unfold State.tripped
  try dsimp only [State.each]
  repeat' first
    | with_reducible assumption
    | with_reducible apply Kept.count
    | fail_if_no_progress with_reducible refine Kept.upd ?_ rfl rfl rfl rfl rfl rfl
    | refine Kept.foldl _ _ ?_ ?_
    | intro _
    | split

theorem Kept.quenchStop (h : Kept s₀ s) : Kept s₀ (@State.quenchStop s) := by
  unfold State.quenchStop
  try dsimp only [State.each]
  repeat' first
    | with_reducible assumption
    | with_reducible apply Kept.dropRowParts
    | with_reducible apply Kept.selfRefresh
    | with_reducible apply Kept.failAllStreams
    | with_reducible apply Kept.emptySlots
    | fail_if_no_progress with_reducible refine Kept.upd ?_ rfl rfl rfl rfl rfl rfl
    | refine Kept.foldl _ _ ?_ ?_
    | intro _
    | split

theorem Kept.retirePart {ps : List Part} {p : Part} (h : Kept s₀ s) : Kept s₀ (@State.retirePart s ps p) := by
  unfold State.retirePart
  try dsimp only [State.each]
  repeat' first
    | with_reducible assumption
    | with_reducible apply Kept.sendRequest
    | with_reducible apply Kept.linesRetired
    | with_reducible apply Kept.homeRead
    | with_reducible apply Kept.homeLost
    | with_reducible apply Kept.retiredHit
    | with_reducible apply Kept.ring
    | with_reducible apply Kept.lineWritten
    | with_reducible apply Kept.answerLine
    | fail_if_no_progress with_reducible refine Kept.upd ?_ rfl rfl rfl rfl rfl rfl
    | refine Kept.foldl _ _ ?_ ?_
    | intro _
    | split

theorem Kept.retireParts {f : Part → Bool} (h : Kept s₀ s) : Kept s₀ (@State.retireParts s f) := by
  unfold State.retireParts
  try dsimp only [State.each]
  repeat' first
    | with_reducible assumption
    | with_reducible apply Kept.abortJob
    | with_reducible apply Kept.dropParts
    | with_reducible apply Kept.retirePart
    | fail_if_no_progress with_reducible refine Kept.upd ?_ rfl rfl rfl rfl rfl rfl
    | refine Kept.foldl _ _ ?_ ?_
    | intro _
    | split

theorem Kept.closeFor {f : Recov → Bool} (h : Kept s₀ s) : Kept s₀ (@State.closeFor s f) := by
  unfold State.closeFor
  try dsimp only [State.each]
  repeat' first
    | with_reducible assumption
    | with_reducible apply Kept.closeRecovery
    | fail_if_no_progress with_reducible refine Kept.upd ?_ rfl rfl rfl rfl rfl rfl
    | refine Kept.foldl _ _ ?_ ?_
    | intro _
    | split

theorem Kept.unguarded (h : Kept s₀ s) : Kept s₀ (@State.unguarded s) := by
  unfold State.unguarded
  try dsimp only [State.each]
  repeat' first
    | with_reducible assumption
    | fail_if_no_progress with_reducible refine Kept.upd ?_ rfl rfl rfl rfl rfl rfl
    | refine Kept.foldl _ _ ?_ ?_
    | intro _
    | split

theorem Kept.dropBankRows {c : Nat} {b : Nat} (h : Kept s₀ s) : Kept s₀ (@State.dropBankRows s c b) := by
  unfold State.dropBankRows
  try dsimp only [State.each]
  repeat' first
    | with_reducible assumption
    | fail_if_no_progress with_reducible refine Kept.upd ?_ rfl rfl rfl rfl rfl rfl
    | refine Kept.foldl _ _ ?_ ?_
    | intro _
    | split

theorem Kept.retireBank {c : Nat} {b : Nat} (h : Kept s₀ s) : Kept s₀ (@State.retireBank s c b) := by
  unfold State.retireBank
  try dsimp only [State.each]
  repeat' first
    | with_reducible assumption
    | with_reducible apply Kept.setPc
    | with_reducible apply Kept.log1
    | with_reducible apply Kept.addMap
    | with_reducible apply Kept.ring
    | with_reducible apply Kept.unguarded
    | with_reducible apply Kept.closeFor
    | with_reducible apply Kept.dropBankRows
    | with_reducible apply Kept.retireParts
    | with_reducible apply Kept.countGone
    | fail_if_no_progress with_reducible refine Kept.upd ?_ rfl rfl rfl rfl rfl rfl
    | refine Kept.foldl _ _ ?_ ?_
    | intro _
    | split

theorem Kept.srPc {c : Nat} (h : Kept s₀ s) : Kept s₀ (@State.srPc s c) := by
  unfold State.srPc
  try dsimp only [State.each]
  repeat' first
    | with_reducible assumption
    | with_reducible apply Kept.emit
    | fail_if_no_progress with_reducible refine Kept.upd ?_ rfl rfl rfl rfl rfl rfl
    | refine Kept.foldl _ _ ?_ ?_
    | intro _
    | split

theorem Kept.retirePc {c : Nat} {f : FClass} (h : Kept s₀ s) : Kept s₀ (s.retirePc c f) := by
  unfold State.retirePc
  extract_lets q s1 s2 s3 s4
  have h4 : Kept s₀ s4 := Kept.countGone (Kept.retireParts (Kept.closeFor (Kept.unguarded (Kept.ring (Kept.addMap (h.srPc.setPc.log1))))))
  split
  · exact h
  · split
    · exact Kept.upd h4 rfl rfl rfl rfl rfl rfl
    · exact h4

theorem Kept.loseStack {u : Nat} (h : Kept s₀ s) : Kept s₀ (@State.loseStack s u) := by
  unfold State.loseStack
  try dsimp only [State.each]
  repeat' first
    | with_reducible assumption
    | with_reducible apply Kept.log1
    | with_reducible apply Kept.countGone
    | fail_if_no_progress with_reducible refine Kept.upd ?_ rfl rfl rfl rfl rfl rfl
    | refine Kept.foldl _ _ ?_ ?_
    | intro _
    | split

theorem Kept.retireStack {f : FClass} (h : Kept s₀ s) : Kept s₀ (@State.retireStack s f) := by
  unfold State.retireStack
  try dsimp only [State.each]
  repeat' first
    | with_reducible assumption
    | with_reducible apply Kept.log1
    | with_reducible apply Kept.selfRefresh
    | with_reducible apply Kept.addMap
    | with_reducible apply Kept.ring
    | with_reducible apply Kept.closeFor
    | with_reducible apply Kept.loseStack
    | with_reducible apply Kept.retireParts
    | fail_if_no_progress with_reducible refine Kept.upd ?_ rfl rfl rfl rfl rfl rfl
    | refine Kept.foldl _ _ ?_ ?_
    | intro _
    | split

theorem Kept.spareLane {c : Nat} {lane : Nat} (h : Kept s₀ s) : Kept s₀ (@State.spareLane s c lane) := by
  unfold State.spareLane
  try dsimp only [State.each]
  repeat' first
    | with_reducible assumption
    | with_reducible apply Kept.setPc
    | with_reducible apply Kept.addMap
    | with_reducible apply Kept.log1
    | fail_if_no_progress with_reducible refine Kept.upd ?_ rfl rfl rfl rfl rfl rfl
    | refine Kept.foldl _ _ ?_ ?_
    | intro _
    | split

theorem Kept.rowJoin {c : Nat} {x : Nat × Nat} {write : Bool} {g : Nat} (h : Kept s₀ s) : Kept s₀ (@State.rowJoin s c x write g) := by
  unfold State.rowJoin
  try dsimp only [State.each]
  repeat' first
    | with_reducible assumption
    | with_reducible apply Kept.write
    | with_reducible apply Kept.start
    | with_reducible apply Kept.wakePc
    | fail_if_no_progress with_reducible refine Kept.upd ?_ rfl rfl rfl rfl rfl rfl
    | refine Kept.foldl _ _ ?_ ?_
    | intro _
    | split

theorem Kept.rowsJoin {r : Recov} {write : Bool} (h : Kept s₀ s) : Kept s₀ (@State.rowsJoin s r write) := by
  unfold State.rowsJoin
  try dsimp only [State.each]
  repeat' first
    | with_reducible assumption
    | with_reducible apply Kept.write
    | with_reducible apply Kept.rowJoin
    | fail_if_no_progress with_reducible refine Kept.upd ?_ rfl rfl rfl rfl rfl rfl
    | refine Kept.foldl _ _ ?_ ?_
    | intro _
    | split

theorem Kept.spentRows {w : FaultW} (h : Kept s₀ s) : Kept s₀ (@State.spentRows s w) := by
  unfold State.spentRows
  try dsimp only [State.each]
  repeat' first
    | with_reducible assumption
    | with_reducible apply Kept.rungUp
    | with_reducible apply Kept.bankFault
    | fail_if_no_progress with_reducible refine Kept.upd ?_ rfl rfl rfl rfl rfl rfl
    | refine Kept.foldl _ _ ?_ ?_
    | intro _
    | split

theorem Kept.openOn {l : List FaultW} (h : Kept s₀ s) : Kept s₀ (s.openOn l) := by
  induction l generalizing s with
  | nil => exact Kept.upd h rfl rfl rfl rfl rfl rfl
  | cons w r ih =>
    unfold State.openOn
    split
    · exact ih h
    · split
      · exact ih h.spentRows
      · extract_lets rows u rv s0 rp s1 s2 s3
        have h0 : Kept s₀ s0 := by
          simp only [s0]
          split
          · exact h.spentRows
          · exact h
        have h1 : Kept s₀ s1 := Kept.upd h0 rfl rfl rfl rfl rfl rfl
        have h2 : Kept s₀ s2 := Kept.foldl _ _ h1 (fun a x k => by
          split
          · exact k
          · exact k.setPc)
        split
        · exact Kept.foldl _ _ h2.log1 (fun _ _ k => k.spareLane)
        · exact h2.log1.rowsJoin

theorem Kept.openRecovery (h : Kept s₀ s) : Kept s₀ (@State.openRecovery s) := by
  unfold State.openRecovery
  split
  · exact h
  · exact h.openOn

theorem Kept.endRecovery {r : Recov} {res : RecResult} (h : Kept s₀ s) : Kept s₀ (@State.endRecovery s r res) := by
  unfold State.endRecovery
  try dsimp only [State.each]
  repeat' first
    | with_reducible assumption
    | with_reducible apply Kept.dropRowParts
    | with_reducible apply Kept.setPc
    | with_reducible apply Kept.count
    | with_reducible apply Kept.measureBound
    | with_reducible apply Kept.log1
    | fail_if_no_progress with_reducible refine Kept.upd ?_ rfl rfl rfl rfl rfl rfl
    | refine Kept.foldl _ _ ?_ ?_
    | intro _
    | split

theorem Kept.linksKnown (h : Kept s₀ s) : Kept s₀ (@State.linksKnown s) := by
  unfold State.linksKnown
  try dsimp only [State.each]
  repeat' first
    | with_reducible assumption
    | with_reducible apply Kept.tileFault
    | with_reducible apply Kept.dueAct
    | fail_if_no_progress with_reducible refine Kept.upd ?_ rfl rfl rfl rfl rfl rfl
    | refine Kept.foldl _ _ ?_ ?_
    | intro _
    | split

theorem Kept.resend {p : Port} {o : Onward} (h : Kept s₀ s) : Kept s₀ (@State.resend s p o) := by
  unfold State.resend
  try dsimp only [State.each]
  repeat' first
    | with_reducible assumption
    | with_reducible apply Kept.setOnward
    | with_reducible apply Kept.addShare
    | with_reducible apply Kept.sendRequest
    | fail_if_no_progress with_reducible refine Kept.upd ?_ rfl rfl rfl rfl rfl rfl
    | refine Kept.foldl _ _ ?_ ?_
    | intro _
    | split

theorem Kept.reportWrite {u : Nat} {line : Nat} (h : Kept s₀ s) : Kept s₀ (@State.reportWrite s u line) := by
  unfold State.reportWrite
  try dsimp only [State.each]
  repeat' first
    | with_reducible assumption
    | with_reducible apply Kept.poisonReport
    | with_reducible apply Kept.sendRequest
    | fail_if_no_progress with_reducible refine Kept.upd ?_ rfl rfl rfl rfl rfl rfl
    | refine Kept.foldl _ _ ?_ ?_
    | intro _
    | split

theorem Kept.endAt {p : Port} {o : Onward} {l : Lost} (h : Kept s₀ s) : Kept s₀ (@State.endAt s p o l) := by
  unfold State.endAt
  try dsimp only [State.each]
  repeat' first
    | with_reducible assumption
    | with_reducible apply Kept.reportWrite
    | with_reducible apply Kept.resend
    | with_reducible apply Kept.endCipherRead
    | with_reducible apply Kept.failOnward
    | with_reducible apply Kept.response
    | with_reducible apply Kept.postedFail
    | with_reducible apply Kept.pieceEnd
    | fail_if_no_progress with_reducible refine Kept.upd ?_ rfl rfl rfl rfl rfl rfl
    | refine Kept.foldl _ _ ?_ ?_
    | intro _
    | split

theorem Kept.endOutstanding {f : Nat → Bool} {l : Lost} (h : Kept s₀ s) : Kept s₀ (@State.endOutstanding s f l) := by
  unfold State.endOutstanding
  try dsimp only [State.each]
  repeat' first
    | with_reducible assumption
    | with_reducible apply Kept.endAt
    | fail_if_no_progress with_reducible refine Kept.upd ?_ rfl rfl rfl rfl rfl rfl
    | refine Kept.foldl _ _ ?_ ?_
    | intro _
    | split

theorem Kept.setAnchor {u : Nat} (h : Kept s₀ s) : Kept s₀ (@State.setAnchor s u) := by
  unfold State.setAnchor
  try dsimp only [State.each]
  repeat' first
    | with_reducible assumption
    | fail_if_no_progress with_reducible refine Kept.upd ?_ rfl rfl rfl rfl rfl rfl
    | refine Kept.foldl _ _ ?_ ?_
    | intro _
    | split

theorem Kept.passAnchor (h : Kept s₀ s) : Kept s₀ (@State.passAnchor s) := by
  unfold State.passAnchor
  try dsimp only [State.each]
  repeat' first
    | with_reducible assumption
    | with_reducible apply Kept.setAnchor
    | fail_if_no_progress with_reducible refine Kept.upd ?_ rfl rfl rfl rfl rfl rfl
    | refine Kept.foldl _ _ ?_ ?_
    | intro _
    | split

theorem Kept.dropUpdates {u : Nat} (h : Kept s₀ s) : Kept s₀ (@State.dropUpdates s u) := by
  unfold State.dropUpdates
  try dsimp only [State.each]
  repeat' first
    | with_reducible assumption
    | with_reducible apply Kept.setSeam
    | with_reducible apply Kept.endSeam
    | fail_if_no_progress with_reducible refine Kept.upd ?_ rfl rfl rfl rfl rfl rfl
    | refine Kept.foldl _ _ ?_ ?_
    | intro _
    | split

theorem Kept.foster {u : Nat} (h : Kept s₀ s) : Kept s₀ (@State.foster s u) := by
  unfold State.foster
  try dsimp only [State.each]
  repeat' first
    | with_reducible assumption
    | with_reducible apply Kept.fault
    | with_reducible apply Kept.passAnchor
    | with_reducible apply Kept.ring
    | with_reducible apply Kept.log1
    | with_reducible apply Kept.deadAgent
    | with_reducible apply Kept.loseStack
    | with_reducible apply Kept.dropUpdates
    | with_reducible apply Kept.endOutstanding
    | fail_if_no_progress with_reducible refine Kept.upd ?_ rfl rfl rfl rfl rfl rfl
    | refine Kept.foldl _ _ ?_ ?_
    | intro _
    | split

theorem Kept.runAct {a : RungAct} (h : Kept s₀ s) : Kept s₀ (@State.runAct s a) := by
  unfold State.runAct
  try dsimp only [State.each]
  repeat' first
    | with_reducible assumption
    | with_reducible apply Kept.retireBank
    | with_reducible apply Kept.retirePc
    | with_reducible apply Kept.retireStack
    | with_reducible apply Kept.fenceTile
    | with_reducible apply Kept.foster
    | with_reducible apply Kept.ring
    | fail_if_no_progress with_reducible refine Kept.upd ?_ rfl rfl rfl rfl rfl rfl
    | refine Kept.foldl _ _ ?_ ?_
    | intro _
    | split

theorem Kept.runDue (h : Kept s₀ s) : Kept s₀ (@State.runDue s) := by
  unfold State.runDue
  try dsimp only [State.each]
  repeat' first
    | with_reducible assumption
    | with_reducible apply Kept.runAct
    | fail_if_no_progress with_reducible refine Kept.upd ?_ rfl rfl rfl rfl rfl rfl
    | refine Kept.foldl _ _ ?_ ?_
    | intro _
    | split

theorem Kept.markLanes (h : Kept s₀ s) : Kept s₀ (@State.markLanes s) := by
  unfold State.markLanes
  try dsimp only [State.each]
  repeat' first
    | with_reducible assumption
    | with_reducible apply Kept.log1
    | with_reducible apply Kept.addMap
    | with_reducible apply Kept.setPc
    | fail_if_no_progress with_reducible refine Kept.upd ?_ rfl rfl rfl rfl rfl rfl
    | refine Kept.foldl _ _ ?_ ?_
    | intro _
    | split

theorem Kept.refuseValue {code : Nat} {i : Nat} {x : Nat} {v : Nat} (h : Kept s₀ s) : Kept s₀ (@State.refuseValue s code i x v) := by
  unfold State.refuseValue
  try dsimp only [State.each]
  repeat' first
    | with_reducible assumption
    | with_reducible apply Kept.log1
    | fail_if_no_progress with_reducible refine Kept.upd ?_ rfl rfl rfl rfl rfl rfl
    | refine Kept.foldl _ _ ?_ ?_
    | intro _
    | split

theorem Kept.enablePort {p : Port} (h : Kept s₀ s) : Kept s₀ (@State.enablePort s p) := by
  unfold State.enablePort
  try dsimp only [State.each]
  repeat' first
    | with_reducible assumption
    | with_reducible apply Kept.setPort
    | with_reducible apply Kept.initPort
    | fail_if_no_progress with_reducible refine Kept.upd ?_ rfl rfl rfl rfl rfl rfl
    | refine Kept.foldl _ _ ?_ ?_
    | intro _
    | split

theorem Kept.initPorts (h : Kept s₀ s) : Kept s₀ (@State.initPorts s) := by
  unfold State.initPorts
  try dsimp only [State.each]
  repeat' first
    | with_reducible assumption
    | with_reducible apply Kept.enablePort
    | fail_if_no_progress with_reducible refine Kept.upd ?_ rfl rfl rfl rfl rfl rfl
    | refine Kept.foldl _ _ ?_ ?_
    | intro _
    | split

theorem Kept.portCtrl {p : Port} {v : Word} (h : Kept s₀ s) : Kept s₀ (@State.portCtrl s p v) := by
  unfold State.portCtrl
  try dsimp only [State.each]
  repeat' first
    | with_reducible assumption
    | with_reducible apply Kept.log1
    | with_reducible apply Kept.setReg
    | with_reducible apply Kept.flushPort
    | with_reducible apply Kept.enablePort
    | fail_if_no_progress with_reducible refine Kept.upd ?_ rfl rfl rfl rfl rfl rfl
    | refine Kept.foldl _ _ ?_ ?_
    | intro _
    | split

theorem Kept.pdWrite {v : BitVec 32} (h : Kept s₀ s) : Kept s₀ (@State.pdWrite s v) := by
  unfold State.pdWrite
  try dsimp only [State.each]
  repeat' first
    | with_reducible assumption
    | with_reducible apply Kept.log1
    | fail_if_no_progress with_reducible refine Kept.upd ?_ rfl rfl rfl rfl rfl rfl
    | refine Kept.foldl _ _ ?_ ?_
    | intro _
    | split

theorem Kept.slotsByPower (h : Kept s₀ s) : Kept s₀ (@State.slotsByPower s) := by
  unfold State.slotsByPower
  try dsimp only [State.each]
  repeat' first
    | with_reducible assumption
    | with_reducible apply Kept.emptySlots
    | fail_if_no_progress with_reducible refine Kept.upd ?_ rfl rfl rfl rfl rfl rfl
    | refine Kept.foldl _ _ ?_ ?_
    | intro _
    | split

theorem Kept.pdApply (h : Kept s₀ s) : Kept s₀ (@State.pdApply s) := by
  unfold State.pdApply
  try dsimp only [State.each]
  repeat' first
    | with_reducible assumption
    | with_reducible apply Kept.setReg
    | with_reducible apply Kept.slotsByPower
    | fail_if_no_progress with_reducible refine Kept.upd ?_ rfl rfl rfl rfl rfl rfl
    | refine Kept.foldl _ _ ?_ ?_
    | intro _
    | split

theorem Kept.dropLatch {x : Nat} (h : Kept s₀ s) : Kept s₀ (@State.dropLatch s x) := by
  unfold State.dropLatch
  try dsimp only [State.each]
  repeat' first
    | with_reducible assumption
    | fail_if_no_progress with_reducible refine Kept.upd ?_ rfl rfl rfl rfl rfl rfl
    | refine Kept.foldl _ _ ?_ ?_
    | intro _
    | split

theorem Kept.took {i x : Nat} (h : Kept s₀ s) : Kept s₀ (s.took i x) := by
  unfold State.took
  by_cases c1 : i = 0x1401
  · rw [if_pos c1]; exact h.dropLatch
  rw [if_neg c1]
  by_cases c2 : 0x3000 ≤ i ∧ i ≤ 0x301F ∧ x = 4
  · rw [dif_pos c2]; exact h.watch
  rw [dif_neg c2]
  refine Kept.ite (Kept.upd h rfl rfl rfl rfl rfl rfl) ?_
  refine Kept.ite h.setQ ?_
  refine Kept.ite (Kept.upd h rfl rfl rfl rfl rfl rfl) ?_
  refine Kept.ite (Kept.foldl _ _ h (fun _ _ k => k.drainCheck)) ?_
  refine Kept.ite (Kept.upd h rfl rfl rfl rfl rfl rfl) ?_
  refine Kept.ite (Kept.upd h rfl rfl rfl rfl rfl rfl) ?_
  refine Kept.ite (Kept.upd h rfl rfl rfl rfl rfl rfl) ?_
  refine Kept.ite ?_ h
  exact Kept.ite h (Kept.dropParts (Kept.upd h rfl rfl rfl rfl rfl rfl))

theorem Kept.takeValue {i : Nat} {x : Nat} {k : Nat} {v : Nat} (h : Kept s₀ s) : Kept s₀ (@State.takeValue s i x k v) := by
  unfold State.takeValue
  try dsimp only [State.each]
  repeat' first
    | with_reducible assumption
    | with_reducible apply Kept.dropStaged
    | with_reducible apply Kept.setReg
    | with_reducible apply Kept.took
    | fail_if_no_progress with_reducible refine Kept.upd ?_ rfl rfl rfl rfl rfl rfl
    | refine Kept.foldl _ _ ?_ ?_
    | intro _
    | split

theorem Kept.runChecks {pkg stack : Bool} (h : Kept s₀ s) : Kept s₀ (@State.runChecks s pkg stack).1 := by
  unfold State.runChecks
  try dsimp only [State.each]
  repeat' first
    | with_reducible assumption
    | with_reducible apply Kept.log1
    | fail_if_no_progress with_reducible refine Kept.upd ?_ rfl rfl rfl rfl rfl rfl
    | refine Kept.foldl _ _ ?_ ?_
    | intro _
    | split

theorem Kept.arm {kind : Nat} (h : Kept s₀ s) : Kept s₀ (@State.arm s kind) := by
  unfold State.arm
  try dsimp only [State.each]
  repeat' first
    | with_reducible assumption
    | with_reducible apply Kept.log1
    | with_reducible apply Kept.ring
    | with_reducible apply Kept.prepare
    | fail_if_no_progress with_reducible refine Kept.upd ?_ rfl rfl rfl rfl rfl rfl
    | refine Kept.foldl _ _ ?_ ?_
    | intro _
    | split

theorem Kept.prepare {f : BitVec 64} {gen : BitVec 32} {dig : BitVec 32} (h : Kept s₀ s) : Kept s₀ (@State.prepare s f gen dig) := by
  unfold State.prepare
  try dsimp only [State.each]
  repeat' first
    | with_reducible assumption
    | with_reducible apply Kept.runChecks
    | with_reducible apply Kept.count
    | with_reducible apply Kept.ring
    | fail_if_no_progress with_reducible refine Kept.upd ?_ rfl rfl rfl rfl rfl rfl
    | refine Kept.foldl _ _ ?_ ?_
    | intro _
    | split

theorem Kept.abortCommit {missing : BitVec 8} {differing : BitVec 8} (h : Kept s₀ s) : Kept s₀ (@State.abortCommit s missing differing) := by
  unfold State.abortCommit
  try dsimp only [State.each]
  repeat' first
    | with_reducible assumption
    | with_reducible apply Kept.log1
    | fail_if_no_progress with_reducible refine Kept.upd ?_ rfl rfl rfl rfl rfl rfl
    | refine Kept.foldl _ _ ?_ ?_
    | intro _
    | split

theorem Kept.decideCommit (h : Kept s₀ s) : Kept s₀ (@State.decideCommit s) := by
  unfold State.decideCommit
  try dsimp only [State.each]
  repeat' first
    | with_reducible assumption
    | with_reducible apply Kept.ring
    | with_reducible apply Kept.abortCommit
    | fail_if_no_progress with_reducible refine Kept.upd ?_ rfl rfl rfl rfl rfl rfl
    | refine Kept.foldl _ _ ?_ ?_
    | intro _
    | split

theorem Kept.planDecide (h : Kept s₀ s) : Kept s₀ (@State.planDecide s) := by
  unfold State.planDecide
  try dsimp only [State.each]
  repeat' first
    | with_reducible assumption
    | with_reducible apply Kept.setPc
    | fail_if_no_progress with_reducible refine Kept.upd ?_ rfl rfl rfl rfl rfl rfl
    | refine Kept.foldl _ _ ?_ ?_
    | intro _
    | split

theorem Kept.takeOverrides (h : Kept s₀ s) : Kept s₀ (@State.takeOverrides s) := by
  unfold State.takeOverrides
  try dsimp only [State.each]
  repeat' first
    | with_reducible assumption
    | with_reducible apply Kept.setReg
    | with_reducible apply Kept.log1
    | fail_if_no_progress with_reducible refine Kept.upd ?_ rfl rfl rfl rfl rfl rfl
    | refine Kept.foldl _ _ ?_ ?_
    | intro _
    | split

theorem Kept.check8 (h : Kept s₀ s) : Kept s₀ (@State.check8 s) := by
  unfold State.check8
  try dsimp only [State.each]
  repeat' first
    | with_reducible assumption
    | with_reducible apply Kept.log1
    | fail_if_no_progress with_reducible refine Kept.upd ?_ rfl rfl rfl rfl rfl rfl
    | refine Kept.foldl _ _ ?_ ?_
    | intro _
    | split

theorem Kept.startTable (h : Kept s₀ s) : Kept s₀ (@State.startTable s) := by
  unfold State.startTable
  try dsimp only [State.each]
  repeat' first
    | with_reducible assumption
    | with_reducible apply Kept.planDecide
    | with_reducible apply Kept.check8
    | fail_if_no_progress with_reducible refine Kept.upd ?_ rfl rfl rfl rfl rfl rfl
    | refine Kept.foldl _ _ ?_ ?_
    | intro _
    | split

theorem Kept.recallAfter {old : State} (h : Kept s₀ s) : Kept s₀ (@State.recallAfter s old) := by
  unfold State.recallAfter
  try dsimp only [State.each]
  repeat' first
    | with_reducible assumption
    | with_reducible apply Kept.recallLines
    | fail_if_no_progress with_reducible refine Kept.upd ?_ rfl rfl rfl rfl rfl rfl
    | refine Kept.foldl _ _ ?_ ?_
    | intro _
    | split

theorem Kept.initStore (h : Kept s₀ s) : Kept s₀ (@State.initStore s) := by
  unfold State.initStore
  try dsimp only [State.each]
  repeat' first
    | with_reducible assumption
    | with_reducible apply Kept.forgetCopies
    | with_reducible apply Kept.zeroStore
    | fail_if_no_progress with_reducible refine Kept.upd ?_ rfl rfl rfl rfl rfl rfl
    | refine Kept.foldl _ _ ?_ ?_
    | intro _
    | split

theorem Kept.rejoinView {votes : SMap (BitVec 32)} (h : Kept s₀ s) : Kept s₀ (@State.rejoinView s votes) := by
  unfold State.rejoinView
  try dsimp only [State.each]
  repeat' first
    | with_reducible assumption
    | with_reducible apply Kept.recallLines
    | fail_if_no_progress with_reducible refine Kept.upd ?_ rfl rfl rfl rfl rfl rfl
    | refine Kept.foldl _ _ ?_ ?_
    | intro _
    | split

theorem Kept.applyStaged {pkg : Bool} {g : Groups} (h : Kept s₀ s) : Kept s₀ (@State.applyStaged s pkg g) := by
  unfold State.applyStaged
  try dsimp only [State.each]
  repeat' first
    | with_reducible assumption
    | with_reducible apply Kept.takeValue
    | with_reducible apply Kept.rejoinView
    | with_reducible apply Kept.startTable
    | with_reducible apply Kept.takeOverrides
    | with_reducible apply Kept.checkPWorst
    | with_reducible apply Kept.initStore
    | with_reducible apply Kept.recallAfter
    | with_reducible apply Kept.initPorts
    | fail_if_no_progress with_reducible refine Kept.upd ?_ rfl rfl rfl rfl rfl rfl
    | refine Kept.foldl _ _ ?_ ?_
    | intro _
    | split

theorem Kept.commitDone {f : BitVec 64} {refused : Nat} {late : Bool} (h : Kept s₀ s) : Kept s₀ (@State.commitDone s f refused late) := by
  unfold State.commitDone
  try dsimp only [State.each]
  repeat' first
    | with_reducible assumption
    | with_reducible apply Kept.log1
    | fail_if_no_progress with_reducible refine Kept.upd ?_ rfl rfl rfl rfl rfl rfl
    | refine Kept.foldl _ _ ?_ ?_
    | intro _
    | split

theorem Kept.applyPackage (h : Kept s₀ s) : Kept s₀ (@State.applyPackage s) := by
  unfold State.applyPackage
  try dsimp only [State.each]
  repeat' first
    | with_reducible assumption
    | with_reducible apply Kept.applyStaged
    | with_reducible apply Kept.commitDone
    | fail_if_no_progress with_reducible refine Kept.upd ?_ rfl rfl rfl rfl rfl rfl
    | refine Kept.foldl _ _ ?_ ?_
    | intro _
    | split

theorem Kept.applyTile (h : Kept s₀ s) : Kept s₀ (@State.applyTile s) := by
  unfold State.applyTile
  try dsimp only [State.each]
  repeat' first
    | with_reducible assumption
    | with_reducible apply Kept.runChecks
    | with_reducible apply Kept.applyStaged
    | with_reducible apply Kept.commitDone
    | with_reducible apply Kept.count
    | fail_if_no_progress with_reducible refine Kept.upd ?_ rfl rfl rfl rfl rfl rfl
    | refine Kept.foldl _ _ ?_ ?_
    | intro _
    | split

theorem Kept.commitTick (h : Kept s₀ s) : Kept s₀ (@State.commitTick s) := by
  unfold State.commitTick
  try dsimp only [State.each]
  repeat' first
    | with_reducible assumption
    | with_reducible apply Kept.abortCommit
    | fail_if_no_progress with_reducible refine Kept.upd ?_ rfl rfl rfl rfl rfl rfl
    | refine Kept.foldl _ _ ?_ ?_
    | intro _
    | split

theorem Kept.parityFail {i : Nat} {x : Nat} {staged : Bool} (h : Kept s₀ s) : Kept s₀ (@State.parityFail s i x staged) := by
  unfold State.parityFail
  try dsimp only [State.each]
  repeat' first
    | with_reducible assumption
    | with_reducible apply Kept.log1
    | with_reducible apply Kept.dropStaged
    | with_reducible apply Kept.tileFault
    | fail_if_no_progress with_reducible refine Kept.upd ?_ rfl rfl rfl rfl rfl rfl
    | refine Kept.foldl _ _ ?_ ?_
    | intro _
    | split

theorem Kept.restoreWord {i : Nat} {x : Nat} {v : Word} (h : Kept s₀ s) : Kept s₀ (@State.restoreWord s i x v) := by
  unfold State.restoreWord
  try dsimp only [State.each]
  repeat' first
    | with_reducible assumption
    | with_reducible apply Kept.setReg
    | with_reducible apply Kept.portCtrl
    | with_reducible apply Kept.took
    | fail_if_no_progress with_reducible refine Kept.upd ?_ rfl rfl rfl rfl rfl rfl
    | refine Kept.foldl _ _ ?_ ?_
    | intro _
    | split

theorem Kept.parityTick (h : Kept s₀ s) : Kept s₀ (@State.parityTick s) := by
  unfold State.parityTick
  try dsimp only [State.each]
  repeat' first
    | with_reducible assumption
    | with_reducible apply Kept.restoreWord
    | fail_if_no_progress with_reducible refine Kept.upd ?_ rfl rfl rfl rfl rfl rfl
    | refine Kept.foldl _ _ ?_ ?_
    | intro _
    | split

theorem Kept.paritySweep (h : Kept s₀ s) : Kept s₀ (@State.paritySweep s) := by
  unfold State.paritySweep
  try dsimp only [State.each]
  repeat' first
    | with_reducible assumption
    | with_reducible apply Kept.parityFail
    | fail_if_no_progress with_reducible refine Kept.upd ?_ rfl rfl rfl rfl rfl rfl
    | refine Kept.foldl _ _ ?_ ?_
    | intro _
    | split

theorem Kept.advance (h : Kept s₀ s) : Kept s₀ (@State.advance s) := by
  unfold State.advance
  try dsimp only [State.each]
  repeat' first
    | with_reducible assumption
    | fail_if_no_progress with_reducible refine Kept.upd ?_ rfl rfl rfl rfl rfl rfl
    | refine Kept.foldl _ _ ?_ ?_
    | intro _
    | split

theorem Kept.refill (h : Kept s₀ s) : Kept s₀ (@State.refill s) := by
  unfold State.refill
  try dsimp only [State.each]
  repeat' first
    | with_reducible assumption
    | fail_if_no_progress with_reducible refine Kept.upd ?_ rfl rfl rfl rfl rfl rfl
    | refine Kept.foldl _ _ ?_ ?_
    | intro _
    | split

theorem Kept.latTick (h : Kept s₀ s) : Kept s₀ (@State.latTick s) := by
  unfold State.latTick
  try dsimp only [State.each]
  repeat' first
    | with_reducible assumption
    | with_reducible apply Kept.setQ
    | fail_if_no_progress with_reducible refine Kept.upd ?_ rfl rfl rfl rfl rfl rfl
    | refine Kept.foldl _ _ ?_ ?_
    | intro _
    | split

theorem Kept.ageTick (h : Kept s₀ s) : Kept s₀ (@State.ageTick s) := by
  unfold State.ageTick
  try dsimp only [State.each]
  repeat' first
    | with_reducible assumption
    | with_reducible apply Kept.mapReqs
    | fail_if_no_progress with_reducible refine Kept.upd ?_ rfl rfl rfl rfl rfl rfl
    | refine Kept.foldl _ _ ?_ ?_
    | intro _
    | split

theorem Kept.rewindTick (h : Kept s₀ s) : Kept s₀ (@State.rewindTick s) := by
  unfold State.rewindTick
  try dsimp only [State.each]
  repeat' first
    | with_reducible assumption
    | fail_if_no_progress with_reducible refine Kept.upd ?_ rfl rfl rfl rfl rfl rfl
    | refine Kept.foldl _ _ ?_ ?_
    | intro _
    | split

theorem Kept.coeffTick (h : Kept s₀ s) : Kept s₀ (@State.coeffTick s) := by
  unfold State.coeffTick
  try dsimp only [State.each]
  repeat' first
    | with_reducible assumption
    | fail_if_no_progress with_reducible refine Kept.upd ?_ rfl rfl rfl rfl rfl rfl
    | refine Kept.foldl _ _ ?_ ?_
    | intro _
    | split

theorem Kept.fallTick {c : Nat} {cause : Nat} (h : Kept s₀ s) : Kept s₀ (@State.fallTick s c cause) := by
  unfold State.fallTick
  try dsimp only [State.each]
  repeat' first
    | with_reducible assumption
    | with_reducible apply Kept.setPc
    | with_reducible apply Kept.drainCheck
    | with_reducible apply Kept.log1
    | fail_if_no_progress with_reducible refine Kept.upd ?_ rfl rfl rfl rfl rfl rfl
    | refine Kept.foldl _ _ ?_ ?_
    | intro _
    | split

theorem Kept.pickleTick (h : Kept s₀ s) : Kept s₀ (@State.pickleTick s) := by
  unfold State.pickleTick
  try dsimp only [State.each]
  repeat' first
    | with_reducible assumption
    | with_reducible apply Kept.passOn
    | fail_if_no_progress with_reducible refine Kept.upd ?_ rfl rfl rfl rfl rfl rfl
    | refine Kept.foldl _ _ ?_ ?_
    | intro _
    | split

theorem Kept.heartbeatTick (h : Kept s₀ s) : Kept s₀ (@State.heartbeatTick s) := by
  unfold State.heartbeatTick
  try dsimp only [State.each]
  repeat' first
    | with_reducible assumption
    | fail_if_no_progress with_reducible refine Kept.upd ?_ rfl rfl rfl rfl rfl rfl
    | refine Kept.foldl _ _ ?_ ?_
    | intro _
    | split

theorem Kept.sendHeartbeat (h : Kept s₀ s) : Kept s₀ (@State.sendHeartbeat s) := by
  unfold State.sendHeartbeat
  try dsimp only [State.each]
  repeat' first
    | with_reducible assumption
    | with_reducible apply Kept.ring
    | fail_if_no_progress with_reducible refine Kept.upd ?_ rfl rfl rfl rfl rfl rfl
    | refine Kept.foldl _ _ ?_ ?_
    | intro _
    | split

theorem Kept.dropSlots (h : Kept s₀ s) : Kept s₀ (@State.dropSlots s) := by
  unfold State.dropSlots
  try dsimp only [State.each]
  repeat' first
    | with_reducible assumption
    | fail_if_no_progress with_reducible refine Kept.upd ?_ rfl rfl rfl rfl rfl rfl
    | refine Kept.foldl _ _ ?_ ?_
    | intro _
    | split

theorem Kept.routeTick (h : Kept s₀ s) : Kept s₀ (@State.routeTick s) := by
  unfold State.routeTick
  try dsimp only [State.each]
  repeat' first
    | with_reducible assumption
    | fail_if_no_progress with_reducible refine Kept.upd ?_ rfl rfl rfl rfl rfl rfl
    | refine Kept.foldl _ _ ?_ ?_
    | intro _
    | split

theorem Kept.rowTick (h : Kept s₀ s) : Kept s₀ (@State.rowTick s) := by
  unfold State.rowTick
  try dsimp only [State.each]
  repeat' first
    | with_reducible assumption
    | with_reducible apply Kept.rowsJoin
    | fail_if_no_progress with_reducible refine Kept.upd ?_ rfl rfl rfl rfl rfl rfl
    | refine Kept.foldl _ _ ?_ ?_
    | intro _
    | split

theorem Kept.copyTick (h : Kept s₀ s) : Kept s₀ (@State.copyTick s) := by
  unfold State.copyTick
  try dsimp only [State.each]
  repeat' first
    | with_reducible assumption
    | with_reducible apply Kept.takeValue
    | with_reducible apply Kept.log1
    | with_reducible apply Kept.tileFault
    | with_reducible apply Kept.recallAfter
    | fail_if_no_progress with_reducible refine Kept.upd ?_ rfl rfl rfl rfl rfl rfl
    | refine Kept.foldl _ _ ?_ ?_
    | intro _
    | split

theorem Kept.tickWork (h : Kept s₀ s) : Kept s₀ (@State.tickWork s) := by
  unfold State.tickWork
  try dsimp only [State.each]
  repeat' first
    | with_reducible assumption
    | with_reducible apply Kept.parityTick
    | with_reducible apply Kept.pdApply
    | with_reducible apply Kept.dropSlots
    | with_reducible apply Kept.routeTick
    | with_reducible apply Kept.hotTick
    | with_reducible apply Kept.dlyTick
    | with_reducible apply Kept.takeInterval
    | with_reducible apply Kept.refill
    | with_reducible apply Kept.correctV
    | with_reducible apply Kept.latTick
    | with_reducible apply Kept.ageTick
    | with_reducible apply Kept.rewindTick
    | with_reducible apply Kept.fallTick
    | with_reducible apply Kept.coeffTick
    | with_reducible apply Kept.pickleTick
    | with_reducible apply Kept.markLanes
    | with_reducible apply Kept.runDue
    | with_reducible apply Kept.openRecovery
    | with_reducible apply Kept.rowTick
    | with_reducible apply Kept.commitTick
    | with_reducible apply Kept.copyTick
    | with_reducible apply Kept.planDecide
    | with_reducible apply Kept.paritySweep
    | with_reducible apply Kept.seamTick
    | with_reducible apply Kept.healFrame
    | with_reducible apply Kept.heartbeatTick
    | with_reducible apply Kept.sendHeartbeat
    | fail_if_no_progress with_reducible refine Kept.upd ?_ rfl rfl rfl rfl rfl rfl
    | refine Kept.foldl _ _ ?_ ?_
    | intro _
    | split

theorem Kept.fenceDue (h : Kept s₀ s) : Kept s₀ (@State.fenceDue s) := by
  unfold State.fenceDue
  try dsimp only [State.each]
  repeat' first
    | with_reducible assumption
    | with_reducible apply Kept.fenceTile
    | with_reducible apply Kept.foster
    | fail_if_no_progress with_reducible refine Kept.upd ?_ rfl rfl rfl rfl rfl rfl
    | refine Kept.foldl _ _ ?_ ?_
    | intro _
    | split

theorem Kept.tick (h : Kept s₀ s) : Kept s₀ (@State.tick s) := by
  unfold State.tick
  try dsimp only [State.each]
  repeat' first
    | with_reducible assumption
    | with_reducible apply Kept.toCycle
    | with_reducible apply Kept.advance
    | with_reducible apply Kept.tickWork
    | with_reducible apply Kept.fenceDue
    | fail_if_no_progress with_reducible refine Kept.upd ?_ rfl rfl rfl rfl rfl rfl
    | refine Kept.foldl _ _ ?_ ?_
    | intro _
    | split

theorem Kept.forceAt {c : Nat} (h : Kept s₀ s) : Kept s₀ (@State.forceAt s c) := by
  unfold State.forceAt
  try dsimp only [State.each]
  repeat' first
    | with_reducible assumption
    | with_reducible apply Kept.wakePc
    | with_reducible apply Kept.setPc
    | fail_if_no_progress with_reducible refine Kept.upd ?_ rfl rfl rfl rfl rfl rfl
    | refine Kept.foldl _ _ ?_ ?_
    | intro _
    | split

theorem Kept.powerDown {c : Nat} (h : Kept s₀ s) : Kept s₀ (@State.powerDown s c) := by
  unfold State.powerDown
  try dsimp only [State.each]
  repeat' first
    | with_reducible assumption
    | with_reducible apply Kept.setPc
    | with_reducible apply Kept.emit
    | fail_if_no_progress with_reducible refine Kept.upd ?_ rfl rfl rfl rfl rfl rfl
    | refine Kept.foldl _ _ ?_ ?_
    | intro _
    | split

theorem Kept.maintain {c : Nat} {m : Maint1} {perSlot : Nat} (h : Kept s₀ s) : Kept s₀ (@State.maintain s c m perSlot) := by
  unfold State.maintain
  try dsimp only [State.each]
  repeat' first
    | with_reducible assumption
    | with_reducible apply Kept.wakePc
    | with_reducible apply Kept.setPc
    | with_reducible apply Kept.powerDown
    | fail_if_no_progress with_reducible refine Kept.upd ?_ rfl rfl rfl rfl rfl rfl
    | refine Kept.foldl _ _ ?_ ?_
    | intro _
    | split

theorem Kept.slotStart (h : Kept s₀ s) : Kept s₀ (@State.slotStart s) := by
  unfold State.slotStart
  try dsimp only [State.each]
  repeat' first
    | with_reducible assumption
    | with_reducible apply Kept.toCycle
    | with_reducible apply Kept.emit
    | with_reducible apply Kept.forceAt
    | with_reducible apply Kept.wakePc
    | with_reducible apply Kept.maintain
    | fail_if_no_progress with_reducible refine Kept.upd ?_ rfl rfl rfl rfl rfl rfl
    | refine Kept.foldl _ _ ?_ ?_
    | intro _
    | split

theorem Kept.accrue {c : Nat} {b : Nat} (h : Kept s₀ s) : Kept s₀ (@State.accrue s c b) := by
  unfold State.accrue
  try dsimp only [State.each]
  repeat' first
    | with_reducible assumption
    | with_reducible apply Kept.setPc
    | with_reducible apply Kept.wakePc
    | fail_if_no_progress with_reducible refine Kept.upd ?_ rfl rfl rfl rfl rfl rfl
    | refine Kept.foldl _ _ ?_ ?_
    | intro _
    | split

theorem Kept.refreshBank {c : Nat} {b : Nat} {t_ : Nat} {forced : Bool} (h : Kept s₀ s) : Kept s₀ (@State.refreshBank s c b t_ forced) := by
  unfold State.refreshBank
  try dsimp only [State.each]
  repeat' first
    | with_reducible assumption
    | with_reducible apply Kept.setPc
    | with_reducible apply Kept.emit
    | fail_if_no_progress with_reducible refine Kept.upd ?_ rfl rfl rfl rfl rfl rfl
    | refine Kept.foldl _ _ ?_ ?_
    | intro _
    | split

theorem Kept.forcedRefresh {c : Nat} (h : Kept s₀ s) : Kept s₀ (@State.forcedRefresh s c) := by
  unfold State.forcedRefresh
  try dsimp only [State.each]
  repeat' first
    | with_reducible assumption
    | with_reducible apply Kept.refreshBank
    | with_reducible apply Kept.count
    | with_reducible apply Kept.logLim
    | fail_if_no_progress with_reducible refine Kept.upd ?_ rfl rfl rfl rfl rfl rfl
    | refine Kept.foldl _ _ ?_ ?_
    | intro _
    | split

theorem Kept.perBank {c : Nat} (h : Kept s₀ s) : Kept s₀ (@State.perBank s c) := by
  unfold State.perBank
  try dsimp only [State.each]
  repeat' first
    | with_reducible assumption
    | with_reducible apply Kept.refreshBank
    | with_reducible apply Kept.setPc
    | fail_if_no_progress with_reducible refine Kept.upd ?_ rfl rfl rfl rfl rfl rfl
    | refine Kept.foldl _ _ ?_ ?_
    | intro _
    | split

theorem Kept.allBank {c : Nat} (h : Kept s₀ s) : Kept s₀ (@State.allBank s c) := by
  unfold State.allBank
  try dsimp only [State.each]
  repeat' first
    | with_reducible assumption
    | with_reducible apply Kept.setPc
    | with_reducible apply Kept.emit
    | fail_if_no_progress with_reducible refine Kept.upd ?_ rfl rfl rfl rfl rfl rfl
    | refine Kept.foldl _ _ ?_ ?_
    | intro _
    | split

theorem Kept.measureTick {o : ℤ} (h : Kept s₀ s) : Kept s₀ (@State.measureTick s o) := by
  unfold State.measureTick
  try dsimp only [State.each]
  repeat' first
    | with_reducible assumption
    | with_reducible apply Kept.log1
    | with_reducible apply Kept.tileFault
    | fail_if_no_progress with_reducible refine Kept.upd ?_ rfl rfl rfl rfl rfl rfl
    | refine Kept.foldl _ _ ?_ ?_
    | intro _
    | split

theorem Kept.atOnce {f : State → State} (hf : ∀ a, Kept s₀ a → Kept s₀ (f a)) (h : Kept s₀ s) : Kept s₀ (@State.atOnce s f) := by
  unfold State.atOnce
  try dsimp only [State.each]
  repeat' first
    | with_reducible assumption
    | with_reducible apply Kept.runDue
    | with_reducible apply hf
    | fail_if_no_progress with_reducible refine Kept.upd ?_ rfl rfl rfl rfl rfl rfl
    | refine Kept.foldl _ _ ?_ ?_
    | intro _
    | split

theorem Kept.afterLane {r : Recov} (h : Kept s₀ s) : Kept s₀ (@State.afterLane s r) := by
  unfold State.afterLane
  try dsimp only [State.each]
  repeat' first
    | with_reducible assumption
    | with_reducible apply Kept.pcFault
    | with_reducible apply Kept.rungUp
    | fail_if_no_progress with_reducible refine Kept.upd ?_ rfl rfl rfl rfl rfl rfl
    | refine Kept.foldl _ _ ?_ ?_
    | intro _
    | split

theorem Kept.setLink {k : Nat} {b : Bool} (h : Kept s₀ s) : Kept s₀ (@State.setLink s k b) := by
  unfold State.setLink
  try dsimp only [State.each]
  repeat' first
    | with_reducible assumption
    | fail_if_no_progress with_reducible refine Kept.upd ?_ rfl rfl rfl rfl rfl rfl
    | refine Kept.foldl _ _ ?_ ?_
    | intro _
    | split

theorem Kept.listRows {rows : List Nat} (h : Kept s₀ s) : Kept s₀ (@State.listRows s rows) := by
  unfold State.listRows
  try dsimp only [State.each]
  repeat' first
    | with_reducible assumption
    | with_reducible apply Kept.log1
    | fail_if_no_progress with_reducible refine Kept.upd ?_ rfl rfl rfl rfl rfl rfl
    | refine Kept.foldl _ _ ?_ ?_
    | intro _
    | split

theorem Kept.splitSeam (h : Kept s₀ s) : Kept s₀ (@State.splitSeam s) := by
  unfold State.splitSeam
  try dsimp only [State.each]
  repeat' first
    | with_reducible assumption
    | with_reducible apply Kept.listRows
    | with_reducible apply Kept.setSeam
    | with_reducible apply Kept.endSeam
    | with_reducible apply Kept.abortJob
    | with_reducible apply Kept.dropParts
    | fail_if_no_progress with_reducible refine Kept.upd ?_ rfl rfl rfl rfl rfl rfl
    | refine Kept.foldl _ _ ?_ ?_
    | intro _
    | split

theorem Kept.reconcile {gen : BitVec 32} {digest : BitVec 32} {group : List (Nat × Word)} {differs : Bool} (h : Kept s₀ s) : Kept s₀ (@State.reconcile s gen digest group differs) := by
  unfold State.reconcile
  try dsimp only [State.each]
  repeat' first
    | with_reducible assumption
    | with_reducible apply Kept.takeValue
    | with_reducible apply Kept.log1
    | with_reducible apply Kept.tileFault
    | with_reducible apply Kept.recallAfter
    | fail_if_no_progress with_reducible refine Kept.upd ?_ rfl rfl rfl rfl rfl rfl
    | refine Kept.foldl _ _ ?_ ?_
    | intro _
    | split

end Sys2Proof.Machine
end

