-- ==== Sys2Proof/Laws/KeptBoot.lean ====
section
/-!
SUPPORT. What every operation keeps (`Kept`): the store, the writes of the dictionary, starts and shutdowns, and reads.
-/
namespace Sys2Proof.Machine
open Sys2Proof
set_option linter.unusedTactic false
set_option linter.unreachableTactic false
variable {s₀ s t : State}

theorem putNor_wf (m : List Host.Cell) (a : Nat) (bs : List Byte) (h : SMap.wf 0xFF m = true) : SMap.wf 0xFF (putNor m a bs) = true := by
  induction bs generalizing m a with
  | nil => exact h
  | cons b r ih => exact ih _ _ (SMap.wf_put _ _ h)

theorem Kept.program {a : Nat} {bs : List Byte} (h : Kept s₀ s) : Kept s₀ (s.program a bs) :=
  h.trans ⟨rfl, rfl, le_refl _, List.prefix_refl _, id, fun w => putNor_wf _ _ _ w⟩

theorem Kept.erase {a k : Nat} (h : Kept s₀ s) : Kept s₀ (s.erase a k) :=
  h.trans ⟨rfl, rfl, le_refl _, List.prefix_refl _, id, fun w => SMap.wf_filter _ w⟩

theorem Kept.setReady {c : Nat} {v : Nat} (h : Kept s₀ s) : Kept s₀ (@State.setReady s c v) := by
  unfold State.setReady
  try dsimp only [State.each]
  repeat' first
    | with_reducible assumption
    | fail_if_no_progress with_reducible refine Kept.upd ?_ rfl rfl rfl rfl rfl rfl
    | refine Kept.foldl _ _ ?_ ?_
    | intro _
    | split

theorem Kept.keepReady {c : Nat} (h : Kept s₀ s) : Kept s₀ (@State.keepReady s c) := by
  unfold State.keepReady
  try dsimp only [State.each]
  repeat' first
    | with_reducible assumption
    | with_reducible apply Kept.erase
    | with_reducible apply Kept.setReady
    | fail_if_no_progress with_reducible refine Kept.upd ?_ rfl rfl rfl rfl rfl rfl
    | refine Kept.foldl _ _ ?_ ?_
    | intro _
    | split

theorem Kept.readyPage {c : Nat} (h : Kept s₀ s) : Kept s₀ (@State.readyPage s c) := by
  unfold State.readyPage
  try dsimp only [State.each]
  repeat' first
    | with_reducible assumption
    | with_reducible apply Kept.erase
    | with_reducible apply Kept.setReady
    | fail_if_no_progress with_reducible refine Kept.upd ?_ rfl rfl rfl rfl rfl rfl
    | refine Kept.foldl _ _ ?_ ?_
    | intro _
    | split

theorem Kept.writeTally {kind : Nat} {f : Nat → Nat → Nat} (h : Kept s₀ s) : Kept s₀ (@State.writeTally s kind f) := by
  unfold State.writeTally
  try dsimp only [State.each]
  repeat' first
    | with_reducible assumption
    | with_reducible apply Kept.readyPage
    | with_reducible apply Kept.program
    | with_reducible apply Kept.keepReady
    | fail_if_no_progress with_reducible refine Kept.upd ?_ rfl rfl rfl rfl rfl rfl
    | refine Kept.foldl _ _ ?_ ?_
    | intro _
    | split

theorem Kept.writeMap (h : Kept s₀ s) : Kept s₀ (@State.writeMap s) := by
  unfold State.writeMap
  try dsimp only [State.each]
  repeat' first
    | with_reducible assumption
    | with_reducible apply Kept.erase
    | with_reducible apply Kept.program
    | with_reducible apply Kept.log1
    | fail_if_no_progress with_reducible refine Kept.upd ?_ rfl rfl rfl rfl rfl rfl
    | refine Kept.foldl _ _ ?_ ?_
    | intro _
    | split

theorem Kept.guardUse {h_ : Path} (h : Kept s₀ s) : Kept s₀ (@State.guardUse s h_) := by
  unfold State.guardUse
  try dsimp only [State.each]
  repeat' first
    | with_reducible assumption
    | with_reducible apply Kept.setPath
    | with_reducible apply Kept.log1
    | fail_if_no_progress with_reducible refine Kept.upd ?_ rfl rfl rfl rfl rfl rfl
    | refine Kept.foldl _ _ ?_ ?_
    | intro _
    | split

theorem Kept.unlock {h_ : Path} {v : Word} (h : Kept s₀ s) : Kept s₀ (@State.unlock s h_ v).1 := by
  unfold State.unlock
  try dsimp only [State.each]
  repeat' first
    | with_reducible assumption
    | with_reducible apply Kept.setPath
    | with_reducible apply Kept.log1
    | fail_if_no_progress with_reducible refine Kept.upd ?_ rfl rfl rfl rfl rfl rfl
    | refine Kept.foldl _ _ ?_ ?_
    | intro _
    | split

theorem Kept.setAsm {src : Option Path} {a : Option (Nat × SMap Word)} (h : Kept s₀ s) : Kept s₀ (@State.setAsm s src a) := by
  unfold State.setAsm
  try dsimp only [State.each]
  repeat' first
    | with_reducible assumption
    | with_reducible apply Kept.setPath
    | fail_if_no_progress with_reducible refine Kept.upd ?_ rfl rfl rfl rfl rfl rfl
    | refine Kept.foldl _ _ ?_ ?_
    | intro _
    | split

theorem Kept.putValue {src : Option Path} {p : WPart} {v : Nat} (h : Kept s₀ s) : Kept s₀ (@State.putValue s src p v) := by
  unfold State.putValue
  try dsimp only [State.each]
  repeat' first
    | with_reducible assumption
    | with_reducible apply Kept.setStaged
    | with_reducible apply Kept.ring
    | with_reducible apply Kept.pdWrite
    | with_reducible apply Kept.portCtrl
    | with_reducible apply Kept.takeValue
    | fail_if_no_progress with_reducible refine Kept.upd ?_ rfl rfl rfl rfl rfl rfl
    | refine Kept.foldl _ _ ?_ ?_
    | intro _
    | split

theorem Kept.writeRw {src : Option Path} {onward : Bool} {p : WPart} {cmd : State → Nat → Nat → Nat → Option (State × Nat)} (hcmd : ∀ z i x v r, Kept s₀ z → cmd z i x v = some r → Kept s₀ r.1)
   (h : Kept s₀ s) : Kept s₀ (s.writeRw src onward cmd p).1 := by
  unfold State.writeRw
  split
  · exact h.wrongTile
  · split
    · exact h.log1
    · dsimp only
      split
      · exact h.setAsm
      · split
        · rename_i hr
          exact hcmd _ _ _ _ _ h.setAsm hr
        · split
          · exact h.setAsm.refuseValue
          · exact h.setAsm.putValue

theorem Kept.writePart {src : Option Path} {onward ok : Bool} {p : WPart} {cmd : State → Nat → Nat → Nat → Option (State × Nat)} (hcmd : ∀ z i x v r, Kept s₀ z → cmd z i x v = some r → Kept s₀ r.1)
    {wo : State → Nat → Nat → Nat → Option (State × Nat)} (hwo : ∀ z i x v r, Kept s₀ z → wo z i x v = some r → Kept s₀ r.1)
   (h : Kept s₀ s) : Kept s₀ (s.writePart src onward ok cmd wo p).1 := by
  unfold State.writePart
  extract_lets z
  have hz : Kept s₀ z := by
    show Kept s₀ (match s.asmOf src with
      | some (k, _) => if k = wkey p.i p.base then s else s.setAsm src none
      | none => s)
    split
    · split
      · exact h
      · exact h.setAsm
    · exact h
  split
  · exact hz
  · split
    · exact hz.ignored
    · cases hw : wo z p.i (p.base + p.off) p.value with
      | none => exact hz
      | some r => exact hwo _ _ _ _ _ hz hw
  · split
    · exact hz.writeRw hcmd
    · exact hz
  · exact hz.writeRw hcmd
  · exact hz.writeRw hcmd

theorem Kept.writeAccess {src : Option Path} {onward : Bool} {i x : Nat} {ws : List Word} {cmd : State → Nat → Nat → Nat → Option (State × Nat)} (hcmd : ∀ z i x v r, Kept s₀ z → cmd z i x v = some r → Kept s₀ r.1)
    {wo : State → Nat → Nat → Nat → Option (State × Nat)} (hwo : ∀ z i x v r, Kept s₀ z → wo z i x v = some r → Kept s₀ r.1)
   (h : Kept s₀ s) : Kept s₀ (s.writeAccess src onward cmd wo i x ws).1 := by
  unfold State.writeAccess
  dsimp only
  refine Kept.foldlFst _ _ _ ?_ (fun a p k => k.writePart hcmd hwo)
  dsimp only
  split
  · split
    · exact h.guardUse
    · exact h
  · exact h

theorem Kept.coldTile (h : Kept s₀ s) : Kept s₀ s.coldTile :=
  h.trans ⟨rfl, rfl, le_refl _, List.prefix_refl _, fun _ => rfl, id⟩

theorem Kept.halfErase {a k : Nat} (h : Kept s₀ s) : Kept s₀ (s.halfErase a k) :=
  h.trans ⟨rfl, rfl, Nat.le_add_right _ _, List.prefix_refl _, id, fun w => putNor_wf _ _ _ w⟩

theorem Kept.halfProgram {a : Nat} {bs : List Byte} (h : Kept s₀ s) : Kept s₀ (s.halfProgram a bs) :=
  h.trans ⟨rfl, rfl, Nat.le_add_right _ _, List.prefix_refl _, id, fun w => putNor_wf _ _ _ w⟩

theorem Kept.cutStore (h : Kept s₀ s) : Kept s₀ (@State.cutStore s) := by
  unfold State.cutStore
  try dsimp only [State.each]
  repeat' first
    | with_reducible assumption
    | with_reducible apply Kept.halfErase
    | with_reducible apply Kept.halfProgram
    | fail_if_no_progress with_reducible refine Kept.upd ?_ rfl rfl rfl rfl rfl rfl
    | refine Kept.foldl _ _ ?_ ?_
    | intro _
    | split

theorem Kept.beginStart {cause : Nat} (h : Kept s₀ s) : Kept s₀ (@State.beginStart s cause) := by
  unfold State.beginStart
  try dsimp only [State.each]
  repeat' first
    | with_reducible assumption
    | with_reducible apply Kept.cutStore
    | with_reducible apply Kept.coldTile
    | with_reducible apply Kept.count
    | fail_if_no_progress with_reducible refine Kept.upd ?_ rfl rfl rfl rfl rfl rfl
    | refine Kept.foldl _ _ ?_ ?_
    | intro _
    | split

theorem Kept.resetTile (h : Kept s₀ s) : Kept s₀ (@State.resetTile s) := by
  unfold State.resetTile
  try dsimp only [State.each]
  repeat' first
    | with_reducible assumption
    | with_reducible apply Kept.cutStore
    | with_reducible apply Kept.coldTile
    | with_reducible apply Kept.count
    | fail_if_no_progress with_reducible refine Kept.upd ?_ rfl rfl rfl rfl rfl rfl
    | refine Kept.foldl _ _ ?_ ?_
    | intro _
    | split

theorem Kept.othersFailed {who : BitVec 8} {early : Bool} (h : Kept s₀ s) : Kept s₀ (@State.othersFailed s who early) :=
  Kept.foldl _ _ h fun _ _ hz => hz.writeTally

theorem Kept.sendLife (h : Kept s₀ s) : Kept s₀ s.sendLife := by
  unfold State.sendLife
  exact Kept.ite h h.ring

theorem Kept.failTallies {e : StartEnv} {step : Nat} {all up : Bool} (h : Kept s₀ s) : Kept s₀ (s.failTallies e step all up) := by
  unfold State.failTallies
  split
  · exact h.sendLife
  · split
    · exact h
    · extract_lets s1 s2
      have h1 : Kept s₀ s1 := Kept.ite h.othersFailed h
      exact Kept.ite h1.writeTally.othersFailed h1.writeTally

theorem Kept.startFail {e : StartEnv} {step reason : Nat} {all : Bool} (h : Kept s₀ s) : Kept s₀ (s.startFail e step reason all) := by
  unfold State.startFail
  extract_lets b f s1 s2 _ _ s3
  have h1 : Kept s₀ s1 := Kept.log1 (Kept.upd h rfl rfl rfl rfl rfl rfl)
  have h2 : Kept s₀ s2 := h1.failTallies
  have h3 : Kept s₀ s3 := Kept.upd h2 rfl rfl rfl rfl rfl rfl
  clear_value s3 f
  split
  · exact h3
  · exact Kept.log1 (Kept.upd h3 rfl rfl rfl rfl rfl rfl)

/-- A start that is on its way, or that failed, has kept it. -/
def KeptG (s₀ : State) : Going → Prop
  | .on z => Kept s₀ z
  | .failed z _ _ => Kept s₀ z

theorem KeptG.andThen {g : Going} {f : State → Going} (h : KeptG s₀ g) (hf : ∀ z, Kept s₀ z → KeptG s₀ (f z)) : KeptG s₀ (g.andThen f) := by
  cases g with
  | on z => exact hf z h
  | failed z k r => exact h

theorem Kept.stepDone {k : Nat} (h : Kept s₀ s) : Kept s₀ (@State.stepDone s k) := by
  unfold State.stepDone
  try dsimp only [State.each]
  repeat' first
    | with_reducible assumption
    | fail_if_no_progress with_reducible refine Kept.upd ?_ rfl rfl rfl rfl rfl rfl
    | refine Kept.foldl _ _ ?_ ?_
    | intro _
    | split

theorem Kept.start2 {e : StartEnv} (h : Kept s₀ s) : KeptG s₀ (@State.start2 s e) := by
  unfold State.start2
  try dsimp only [State.each]
  repeat' first
    | with_reducible assumption
    | with_reducible apply Kept.coldTile
    | with_reducible apply Kept.log1
    | with_reducible apply Kept.stepDone
    | fail_if_no_progress with_reducible refine Kept.upd ?_ rfl rfl rfl rfl rfl rfl
    | refine Kept.foldl _ _ ?_ ?_
    | change Kept s₀ _
    | intro _
    | split

theorem Kept.start3 {e : StartEnv} (h : Kept s₀ s) : KeptG s₀ (@State.start3 s e) := by
  unfold State.start3
  try dsimp only [State.each]
  repeat' first
    | with_reducible assumption
    | with_reducible apply Kept.stepDone
    | fail_if_no_progress with_reducible refine Kept.upd ?_ rfl rfl rfl rfl rfl rfl
    | refine Kept.foldl _ _ ?_ ?_
    | change Kept s₀ _
    | intro _
    | split

theorem Kept.takeCounts {map : List MapEnt} {old seconds cycles life : Nat} (h : Kept s₀ s) : Kept s₀ (s.takeCounts map old seconds cycles life) := by
  unfold State.takeCounts
  extract_lets b b1 _ r s1
  have h1 : Kept s₀ s1 := Kept.upd h rfl rfl rfl rfl rfl rfl
  clear_value s1
  exact Kept.ite h1.log1 h1

theorem Kept.takeLedger {reader : Bool} (h : Kept s₀ s) : Kept s₀ (s.takeLedger reader) := by
  unfold State.takeLedger
  extract_lets body tal blankB blankT kind unclean s1 s2 s3 old ready b map b1
  have h1 : Kept s₀ s1 := Kept.ite h.log1 h
  have h2 : Kept s₀ s2 := Kept.ite h1.log1 h1
  have h3 : Kept s₀ s3 := Kept.ite h2.log1 h2
  exact Kept.takeCounts (Kept.upd h3 rfl rfl rfl rfl rfl rfl)

theorem Kept.sendLedgers {e : StartEnv} (h : Kept s₀ s) : Kept s₀ (s.sendLedgers e) := Kept.foldl _ _ h fun _ _ k => k.ring

theorem Kept.start4 {e : StartEnv} (h : Kept s₀ s) : KeptG s₀ (s.start4 e) := by
  unfold State.start4
  extract_lets reader item _ s1 took
  have h1 : Kept s₀ s1 := Kept.upd h rfl rfl rfl rfl rfl rfl
  have h2 : Kept s₀ took := by
    simp only [took]
    split
    · exact h1.takeCounts
    · exact Kept.ite h1.takeLedger.sendLedgers h1.takeLedger
  clear_value s1 took
  clear_value item
  split
  · split
    · exact h2.stepDone
    · show Kept s₀ _
      exact Kept.ite h1.log1 h1
  · exact h2.stepDone

theorem Kept.loadStack {e : StartEnv} (h : Kept s₀ s) : Kept s₀ (@State.loadStack s e) := by
  unfold State.loadStack
  try dsimp only [State.each]
  repeat' first
    | with_reducible assumption
    | fail_if_no_progress with_reducible refine Kept.upd ?_ rfl rfl rfl rfl rfl rfl
    | refine Kept.foldl _ _ ?_ ?_
    | intro _
    | split

theorem Kept.imageWrite {r : ImgRec} (h : Kept s₀ s) : Kept s₀ (s.imageWrite r) :=
  h.writeAccess (fun _ _ _ _ _ _ e => by cases e) (fun _ _ _ _ _ _ e => by cases e)

theorem Kept.startVotes {e : StartEnv} (h : Kept s₀ s) : Kept s₀ (s.startVotes e) := by
  unfold State.startVotes
  exact Kept.ite h (Kept.ite h.ring.ring h.ring)

theorem Kept.startChecks {e : StartEnv} (h : Kept s₀ s) : Kept s₀ (s.startChecks e).1 := h.loadStack.runChecks

theorem Kept.startCommit {e : StartEnv} (h : Kept s₀ s) (hc : s.startCommit e = some t) : Kept s₀ t := by
  unfold State.startCommit at hc
  extract_lets k at hc
  have hk : Kept s₀ k.1 := h.startChecks
  clear_value k
  split at hc
  · cases hc
  · cases hc
    have hz : Kept s₀ (((k.1.startVotes e).applyStaged true k.2).commitDone k.1.anvil.frameNo 0 false) := hk.startVotes.applyStaged.commitDone
    exact Kept.ite hz.checkPWorst hz

theorem Kept.takeImage {e : StartEnv} {l : List ImgRec} {reader : Bool} (h : Kept s₀ s) : KeptG s₀ (s.takeImage e l reader) := by
  unfold State.takeImage
  extract_lets s1 s2 s3
  have h1 : Kept s₀ s1 := Kept.foldl _ _ h (fun _ _ k => k.imageWrite)
  have h2 : Kept s₀ s2 := Kept.ite (Kept.foldl _ _ h1 (fun _ _ k => k.ring)) h1
  have h3 : Kept s₀ s3 := h2.setAsm
  clear_value s3
  split
  · exact h3.startChecks
  · rename_i hc
    exact (h3.startCommit hc).stepDone

theorem Kept.sentImage {e : StartEnv} {m : StoreSent} (h : Kept s₀ s) : KeptG s₀ (s.sentImage e m) := by
  unfold State.sentImage
  split
  · exact h
  · extract_lets _ s1
    have h1 : Kept s₀ s1 := Kept.upd h rfl rfl rfl rfl rfl rfl
    clear_value s1
    split
    · exact h1
    · exact h1.takeImage

theorem Kept.readImage {e : StartEnv} (h : Kept s₀ s) : KeptG s₀ (s.readImage e) := by
  unfold State.readImage
  extract_lets reader sel s1 ok rej _ s2
  have h1 : Kept s₀ s1 := Kept.ite (Kept.foldl _ _ h (fun _ _ k => k.log1)) h
  have h2 : Kept s₀ s2 := Kept.upd h1 rfl rfl rfl rfl rfl rfl
  clear_value s2
  split
  · exact h2
  · rename_i c _
    extract_lets seq s3 s4
    have h3 : Kept s₀ s3 := Kept.upd h2 rfl rfl rfl rfl rfl rfl
    have h4 : Kept s₀ s4 := Kept.ite h3.log1 h3
    clear_value s4
    split
    · show Kept s₀ _
      refine Kept.upd (s := if reader then s4.log1 0x0106 [w16 (c + 1), 5] else s4) ?_ rfl rfl rfl rfl rfl rfl
      exact Kept.ite h4.log1 h4
    · exact h4.takeImage

theorem Kept.start5 {e : StartEnv} (h : Kept s₀ s) : KeptG s₀ (s.start5 e) := by
  unfold State.start5
  split
  · exact h.sentImage
  · exact h.readImage

theorem Kept.startTally {e : StartEnv} (h : Kept s₀ s) : Kept s₀ (@State.startTally s e) := by
  unfold State.startTally
  try dsimp only [State.each]
  repeat' first
    | with_reducible assumption
    | with_reducible apply Kept.othersFailed
    | with_reducible apply Kept.writeTally
    | with_reducible apply Kept.sendLife
    | fail_if_no_progress with_reducible refine Kept.upd ?_ rfl rfl rfl rfl rfl rfl
    | refine Kept.foldl _ _ ?_ ?_
    | intro _
    | split

theorem Kept.start6 {e : StartEnv} (h : Kept s₀ s) : KeptG s₀ (@State.start6 s e) := by
  unfold State.start6
  try dsimp only [State.each]
  repeat' first
    | with_reducible assumption
    | with_reducible apply Kept.setReg
    | with_reducible apply Kept.startAssay
    | with_reducible apply Kept.startTally
    | with_reducible apply Kept.stepDone
    | fail_if_no_progress with_reducible refine Kept.upd ?_ rfl rfl rfl rfl rfl rfl
    | refine Kept.foldl _ _ ?_ ?_
    | change Kept s₀ _
    | intro _
    | split

theorem Kept.freshPcs {e : StartEnv} (h : Kept s₀ s) : Kept s₀ (@State.freshPcs s e) := by
  unfold State.freshPcs
  try dsimp only [State.each]
  repeat' first
    | with_reducible assumption
    | with_reducible apply Kept.setPc
    | fail_if_no_progress with_reducible refine Kept.upd ?_ rfl rfl rfl rfl rfl rfl
    | refine Kept.foldl _ _ ?_ ?_
    | intro _
    | split

theorem Kept.applyEntry {x : MapEnt} (h : Kept s₀ s) : Kept s₀ (@State.applyEntry s x) := by
  unfold State.applyEntry
  try dsimp only [State.each]
  repeat' first
    | with_reducible assumption
    | with_reducible apply Kept.setPc
    | fail_if_no_progress with_reducible refine Kept.upd ?_ rfl rfl rfl rfl rfl rfl
    | refine Kept.foldl _ _ ?_ ?_
    | intro _
    | split

theorem Kept.applyMap {e : StartEnv} (h : Kept s₀ s) : Kept s₀ (@State.applyMap s e) := by
  unfold State.applyMap
  try dsimp only [State.each]
  repeat' first
    | with_reducible assumption
    | with_reducible apply Kept.applyEntry
    | with_reducible apply Kept.freshPcs
    | fail_if_no_progress with_reducible refine Kept.upd ?_ rfl rfl rfl rfl rfl rfl
    | refine Kept.foldl _ _ ?_ ?_
    | intro _
    | split

theorem Kept.start7 {e : StartEnv} (h : Kept s₀ s) : KeptG s₀ (s.start7 e) := by
  unfold State.start7
  extract_lets d _ s1 s2 above s3 s4 s5
  have h1 : Kept s₀ s1 := Kept.upd h rfl rfl rfl rfl rfl rfl
  have h2 : Kept s₀ s2 := by
    show Kept s₀ (if s1.phy.clipped then s1.log1 0x0C01 [w16 d.ids, w16 d.rowBits] else s1)
    clear_value s1
    split
    · exact h1.log1
    · exact h1
  have h3 : Kept s₀ s3 := by
    show Kept s₀ (if s2.phy.differ then s2.log1 0x0C03 _ else s2)
    clear_value s2
    split
    · exact h2.log1
    · exact h2
  have h4 : Kept s₀ s4 := h3.applyMap
  have h5 : Kept s₀ s5 := Kept.ite h4.selfRefresh (Kept.foldl _ _ h4 (fun _ _ k => k.srPc))
  clear_value s1 s2 s3 s4 s5
  split
  · exact h1
  · split
    · exact h1.log1
    · split
      · exact h1.log1
      · split
        · exact h1.log1
        · split
          · exact h1.log1
          · exact h5.stepDone

theorem Kept.harden {x : MapEnt} (h : Kept s₀ s) : Kept s₀ (@State.harden s x) := by
  unfold State.harden
  try dsimp only [State.each]
  repeat' first
    | with_reducible assumption
    | with_reducible apply Kept.setPc
    | with_reducible apply Kept.log1
    | fail_if_no_progress with_reducible refine Kept.upd ?_ rfl rfl rfl rfl rfl rfl
    | refine Kept.foldl _ _ ?_ ?_
    | intro _
    | split

theorem Kept.start8 {e : StartEnv} (h : Kept s₀ s) : KeptG s₀ (@State.start8 s e) := by
  unfold State.start8
  try dsimp only [State.each]
  repeat' first
    | with_reducible assumption
    | with_reducible apply Kept.harden
    | with_reducible apply Kept.stepDone
    | fail_if_no_progress with_reducible refine Kept.upd ?_ rfl rfl rfl rfl rfl rfl
    | refine Kept.foldl _ _ ?_ ?_
    | change Kept s₀ _
    | intro _
    | split

theorem Kept.start9 {e : StartEnv} (h : Kept s₀ s) : KeptG s₀ (s.start9 e) := by
  unfold State.start9
  extract_lets one s1 _ _ s2
  have h1 : Kept s₀ s1 := by
    refine Kept.foldl _ _ h (fun z c k => ?_)
    show Kept s₀ (if z.stackDue ∨ (z.pc c).retired then z
      else if (z.pcFault ⟨c, 0, 0, 0⟩ .calibration).stackDue then z.pcFault ⟨c, 0, 0, 0⟩ .calibration else (z.pcFault ⟨c, 0, 0, 0⟩ .calibration).runDue)
    split
    · exact k
    · split
      · exact k.pcFault
      · exact k.pcFault.runDue
  have h2 : Kept s₀ s2 := Kept.upd h1 rfl rfl rfl rfl rfl rfl
  clear_value s1 s2
  split
  · exact Kept.upd h1 rfl rfl rfl rfl rfl rfl
  · exact h2.laneCheck.stepDone

theorem Kept.start10 {e : StartEnv} (h : Kept s₀ s) : KeptG s₀ (@State.start10 s e) := by
  unfold State.start10
  try dsimp only [State.each]
  repeat' first
    | with_reducible assumption
    | with_reducible apply Kept.zeroStore
    | with_reducible apply Kept.fencePair
    | with_reducible apply Kept.stepDone
    | fail_if_no_progress with_reducible refine Kept.upd ?_ rfl rfl rfl rfl rfl rfl
    | refine Kept.foldl _ _ ?_ ?_
    | change Kept s₀ _
    | intro _
    | split

theorem Kept.rejoinWait (h : Kept s₀ s) : Kept s₀ (@State.rejoinWait s) := by
  unfold State.rejoinWait
  try dsimp only [State.each]
  repeat' first
    | with_reducible assumption
    | with_reducible apply Kept.poisonBelow
    | fail_if_no_progress with_reducible refine Kept.upd ?_ rfl rfl rfl rfl rfl rfl
    | refine Kept.foldl _ _ ?_ ?_
    | intro _
    | split

theorem Kept.start11 {e : StartEnv} (h : Kept s₀ s) : KeptG s₀ (s.start11 e) := by
  unfold State.start11
  split
  · exact h
  · extract_lets s1 _ _ _ s2 s2' s2'' won _ s3 s4 _ s5 s6
    have h1 : Kept s₀ s1 := h.toTime
    have h2 : Kept s₀ s2 := Kept.upd h1 rfl rfl rfl rfl rfl rfl
    have h2' : Kept s₀ s2' := Kept.ite h2.rejoinWait h2
    have h2'' : Kept s₀ s2'' := Kept.ite h2'.othersFailed h2'
    have h3 : Kept s₀ s3 := Kept.leaveSelfRefresh (Kept.upd h2'' rfl rfl rfl rfl rfl rfl)
    have h4 : Kept s₀ s4 := Kept.ite h3.writeTally (Kept.ite h3 h3.sendLife)
    have h5 : Kept s₀ s5 := Kept.upd h4 rfl rfl rfl rfl rfl rfl
    exact h5.log1.initPorts.stepDone

theorem Kept.start {e : StartEnv} (h : Kept s₀ s) : Kept s₀ (s.start e) := by
  unfold State.start
  extract_lets g
  have hg : KeptG s₀ g := by
    refine KeptG.andThen (KeptG.andThen (KeptG.andThen (KeptG.andThen (KeptG.andThen (KeptG.andThen (KeptG.andThen (KeptG.andThen (KeptG.andThen
      (h.start2) ?_) ?_) ?_) ?_) ?_) ?_) ?_) ?_) ?_
    · exact fun z k => k.start3
    · exact fun z k => k.start4
    · exact fun z k => k.start5
    · exact fun z k => k.start6
    · exact fun z k => k.start7
    · exact fun z k => k.start8
    · exact fun z k => k.start9
    · exact fun z k => k.start10
    · exact fun z k => k.start11
  revert hg
  cases g with
  | on z => exact id
  | failed z k r => exact fun hz => Kept.startFail hz

theorem Kept.owedTally {again : Bool} (h : Kept s₀ s) : Kept s₀ (@State.owedTally s again) := by
  unfold State.owedTally
  try dsimp only [State.each]
  repeat' first
    | with_reducible assumption
    | with_reducible apply Kept.emit
    | fail_if_no_progress with_reducible refine Kept.upd ?_ rfl rfl rfl rfl rfl rfl
    | refine Kept.foldl _ _ ?_ ?_
    | intro _
    | split

theorem Kept.shutdown {cause : Nat} (h : Kept s₀ s) : Kept s₀ (@State.shutdown s cause) := by
  unfold State.shutdown
  try dsimp only [State.each]
  repeat' first
    | with_reducible assumption
    | with_reducible apply Kept.log1
    | with_reducible apply Kept.selfRefresh
    | with_reducible apply Kept.emptySlots
    | with_reducible apply Kept.sendLife
    | with_reducible apply Kept.cutStore
    | with_reducible apply Kept.owedTally
    | fail_if_no_progress with_reducible refine Kept.upd ?_ rfl rfl rfl rfl rfl rfl
    | refine Kept.foldl _ _ ?_ ?_
    | intro _
    | split

theorem Kept.shutDone (h : Kept s₀ s) : Kept s₀ (@State.shutDone s) := by
  unfold State.shutDone
  try dsimp only [State.each]
  repeat' first
    | with_reducible assumption
    | with_reducible apply Kept.log1
    | with_reducible apply Kept.resetTile
    | with_reducible apply Kept.beginStart
    | fail_if_no_progress with_reducible refine Kept.upd ?_ rfl rfl rfl rfl rfl rfl
    | refine Kept.foldl _ _ ?_ ?_
    | intro _
    | split

theorem Kept.tallyDone (h : Kept s₀ s) : Kept s₀ (@State.tallyDone s) := by
  unfold State.tallyDone
  try dsimp only [State.each]
  repeat' first
    | with_reducible assumption
    | with_reducible apply Kept.program
    | fail_if_no_progress with_reducible refine Kept.upd ?_ rfl rfl rfl rfl rfl rfl
    | refine Kept.foldl _ _ ?_ ?_
    | intro _
    | split

theorem Kept.hmRefuse {i : Nat} {x : Nat} {v : Nat} (h : Kept s₀ s) : Kept s₀ (@State.hmRefuse s i x v) := by
  unfold State.hmRefuse
  try dsimp only [State.each]
  repeat' first
    | with_reducible assumption
    | with_reducible apply Kept.log1
    | fail_if_no_progress with_reducible refine Kept.upd ?_ rfl rfl rfl rfl rfl rfl
    | refine Kept.foldl _ _ ?_ ?_
    | intro _
    | split

theorem Kept.setCopyOk {c : Nat} {ok : Bool} (h : Kept s₀ s) : Kept s₀ (@State.setCopyOk s c ok) := by
  unfold State.setCopyOk
  try dsimp only [State.each]
  repeat' first
    | with_reducible assumption
    | fail_if_no_progress with_reducible refine Kept.upd ?_ rfl rfl rfl rfl rfl rfl
    | refine Kept.foldl _ _ ?_ ?_
    | intro _
    | split

theorem Kept.hmFail {a : Nat} (h : Kept s₀ s) : Kept s₀ (@State.hmFail s a) := by
  unfold State.hmFail
  try dsimp only [State.each]
  repeat' first
    | with_reducible assumption
    | with_reducible apply Kept.log1
    | fail_if_no_progress with_reducible refine Kept.upd ?_ rfl rfl rfl rfl rfl rfl
    | refine Kept.foldl _ _ ?_ ?_
    | intro _
    | split

theorem Kept.hmProgram {a : Nat} {bs : List Byte} (h : Kept s₀ s) : Kept s₀ (@State.hmProgram s a bs) := by
  unfold State.hmProgram
  try dsimp only [State.each]
  repeat' first
    | with_reducible assumption
    | with_reducible apply Kept.emit
    | with_reducible apply Kept.hmFail
    | fail_if_no_progress with_reducible refine Kept.upd ?_ rfl rfl rfl rfl rfl rfl
    | refine Kept.foldl _ _ ?_ ?_
    | intro _
    | split

theorem Kept.hmOpenCmd (h : Kept s₀ s) : Kept s₀ (@State.hmOpenCmd s).1 := by
  unfold State.hmOpenCmd
  try dsimp only [State.each]
  repeat' first
    | with_reducible assumption
    | with_reducible apply Kept.hmRefuse
    | with_reducible apply Kept.setCopyOk
    | with_reducible apply Kept.emit
    | fail_if_no_progress with_reducible refine Kept.upd ?_ rfl rfl rfl rfl rfl rfl
    | refine Kept.foldl _ _ ?_ ?_
    | intro _
    | split

theorem Kept.hmPageWord {x : Nat} {v : Nat} (h : Kept s₀ s) : Kept s₀ (@State.hmPageWord s x v).1 := by
  unfold State.hmPageWord
  try dsimp only [State.each]
  repeat' first
    | with_reducible assumption
    | with_reducible apply Kept.hmRefuse
    | with_reducible apply Kept.erase
    | with_reducible apply Kept.emit
    | with_reducible apply Kept.hmProgram
    | fail_if_no_progress with_reducible refine Kept.upd ?_ rfl rfl rfl rfl rfl rfl
    | refine Kept.foldl _ _ ?_ ?_
    | intro _
    | split

theorem Kept.hmCloseCmd (h : Kept s₀ s) : Kept s₀ (@State.hmCloseCmd s).1 := by
  unfold State.hmCloseCmd
  try dsimp only [State.each]
  repeat' first
    | with_reducible assumption
    | with_reducible apply Kept.hmRefuse
    | with_reducible apply Kept.hmProgram
    | fail_if_no_progress with_reducible refine Kept.upd ?_ rfl rfl rfl rfl rfl rfl
    | refine Kept.foldl _ _ ?_ ?_
    | intro _
    | split

theorem Kept.hmAbandonCmd (h : Kept s₀ s) : Kept s₀ (@State.hmAbandonCmd s).1 := by
  unfold State.hmAbandonCmd
  try dsimp only [State.each]
  repeat' first
    | with_reducible assumption
    | with_reducible apply Kept.hmRefuse
    | fail_if_no_progress with_reducible refine Kept.upd ?_ rfl rfl rfl rfl rfl rfl
    | refine Kept.foldl _ _ ?_ ?_
    | intro _
    | split

theorem Kept.hmErased {ok : Bool} (h : Kept s₀ s) : Kept s₀ (@State.hmErased s ok) := by
  unfold State.hmErased
  try dsimp only [State.each]
  repeat' first
    | with_reducible assumption
    | with_reducible apply Kept.erase
    | with_reducible apply Kept.halfErase
    | with_reducible apply Kept.hmFail
    | fail_if_no_progress with_reducible refine Kept.upd ?_ rfl rfl rfl rfl rfl rfl
    | refine Kept.foldl _ _ ?_ ?_
    | intro _
    | split

theorem Kept.hmProgrammed {ok : Bool} (h : Kept s₀ s) : Kept s₀ (@State.hmProgrammed s ok) := by
  unfold State.hmProgrammed
  try dsimp only [State.each]
  repeat' first
    | with_reducible assumption
    | with_reducible apply Kept.halfProgram
    | with_reducible apply Kept.hmFail
    | with_reducible apply Kept.program
    | with_reducible apply Kept.setCopyOk
    | with_reducible apply Kept.log1
    | fail_if_no_progress with_reducible refine Kept.upd ?_ rfl rfl rfl rfl rfl rfl
    | refine Kept.foldl _ _ ?_ ?_
    | intro _
    | split

theorem Kept.restartCmd (h : Kept s₀ s) : Kept s₀ (@State.restartCmd s) := by
  unfold State.restartCmd
  try dsimp only [State.each]
  repeat' first
    | with_reducible assumption
    | with_reducible apply Kept.beginStart
    | fail_if_no_progress with_reducible refine Kept.upd ?_ rfl rfl rfl rfl rfl rfl
    | refine Kept.foldl _ _ ?_ ?_
    | intro _
    | split

theorem Kept.leaveBlank {e : StartEnv} (h : Kept s₀ s) : Kept s₀ (@State.leaveBlank s e) := by
  unfold State.leaveBlank
  try dsimp only [State.each]
  repeat' first
    | with_reducible assumption
    | with_reducible apply Kept.log1
    | with_reducible apply Kept.beginStart
    | with_reducible apply Kept.start
    | fail_if_no_progress with_reducible refine Kept.upd ?_ rfl rfl rfl rfl rfl rfl
    | refine Kept.foldl _ _ ?_ ?_
    | intro _
    | split

theorem Kept.shutBare (h : Kept s₀ s) : Kept s₀ (@State.shutBare s) := by
  unfold State.shutBare
  try dsimp only [State.each]
  repeat' first
    | with_reducible assumption
    | with_reducible apply Kept.owedTally
    | with_reducible apply Kept.shutDone
    | fail_if_no_progress with_reducible refine Kept.upd ?_ rfl rfl rfl rfl rfl rfl
    | refine Kept.foldl _ _ ?_ ?_
    | intro _
    | split

theorem Kept.shutdownCmd (h : Kept s₀ s) : Kept s₀ (@State.shutdownCmd s) := by
  unfold State.shutdownCmd
  try dsimp only [State.each]
  repeat' first
    | with_reducible assumption
    | with_reducible apply Kept.shutBare
    | with_reducible apply Kept.shutdown
    | fail_if_no_progress with_reducible refine Kept.upd ?_ rfl rfl rfl rfl rfl rfl
    | refine Kept.foldl _ _ ?_ ?_
    | intro _
    | split

theorem Kept.pulse {lowNs : Nat} {f : State → State} (hf : ∀ a, Kept s₀ a → Kept s₀ (f a)) (h : Kept s₀ s) : Kept s₀ (@State.pulse s lowNs f) := by
  unfold State.pulse
  try dsimp only [State.each]
  repeat' first
    | with_reducible assumption
    | with_reducible apply Kept.draw
    | with_reducible apply hf
    | fail_if_no_progress with_reducible refine Kept.upd ?_ rfl rfl rfl rfl rfl rfl
    | refine Kept.foldl _ _ ?_ ?_
    | intro _
    | split

theorem Kept.restartMarks (h : Kept s₀ s) : Kept s₀ (@State.restartMarks s) := by
  unfold State.restartMarks
  try dsimp only [State.each]
  repeat' first
    | with_reducible assumption
    | with_reducible apply Kept.setQ
    | fail_if_no_progress with_reducible refine Kept.upd ?_ rfl rfl rfl rfl rfl rfl
    | refine Kept.foldl _ _ ?_ ?_
    | intro _
    | split

theorem Kept.takeSnapshot (h : Kept s₀ s) : Kept s₀ (@State.takeSnapshot s) := by
  unfold State.takeSnapshot
  try dsimp only [State.each]
  repeat' first
    | with_reducible assumption
    | with_reducible apply Kept.restartMarks
    | with_reducible apply Kept.mark
    | fail_if_no_progress with_reducible refine Kept.upd ?_ rfl rfl rfl rfl rfl rfl
    | refine Kept.foldl _ _ ?_ ?_
    | intro _
    | split

theorem Kept.capture {h_ : Path} {p : WPart} (h : Kept s₀ s) : Kept s₀ (@State.capture s h_ p) := by
  unfold State.capture
  try dsimp only [State.each]
  repeat' first
    | with_reducible assumption
    | with_reducible apply Kept.setPath
    | fail_if_no_progress with_reducible refine Kept.upd ?_ rfl rfl rfl rfl rfl rfl
    | refine Kept.foldl _ _ ?_ ?_
    | intro _
    | split

theorem Kept.readPart {h_ : Path} {p : WPart} (h : Kept s₀ s) : Kept s₀ (@State.readPart s h_ p) := by
  unfold State.readPart
  try dsimp only [State.each]
  repeat' first
    | with_reducible assumption
    | with_reducible apply Kept.capture
    | with_reducible apply Kept.parityFail
    | fail_if_no_progress with_reducible refine Kept.upd ?_ rfl rfl rfl rfl rfl rfl
    | refine Kept.foldl _ _ ?_ ?_
    | intro _
    | split

theorem Kept.readAccess {h_ : Path} {i : Nat} {x : Nat} {n : Nat} (h : Kept s₀ s) : Kept s₀ (@State.readAccess s h_ i x n).1 := by
  unfold State.readAccess
  try dsimp only [State.each]
  repeat' first
    | with_reducible assumption
    | with_reducible apply Kept.capture
    | with_reducible apply Kept.readPart
    | fail_if_no_progress with_reducible refine Kept.upd ?_ rfl rfl rfl rfl rfl rfl
    | refine Kept.foldl _ _ ?_ ?_
    | intro _
    | split

theorem Kept.restartFenced (h : Kept s₀ s) : Kept s₀ (@State.restartFenced s) := by
  unfold State.restartFenced
  try dsimp only [State.each]
  repeat' first
    | with_reducible assumption
    | with_reducible apply Kept.beginStart
    | fail_if_no_progress with_reducible refine Kept.upd ?_ rfl rfl rfl rfl rfl rfl
    | refine Kept.foldl _ _ ?_ ?_
    | intro _
    | split

theorem Kept.repairAct {code : Nat} {u : Nat} (h : Kept s₀ s) : Kept s₀ (@State.repairAct s code u) := by
  unfold State.repairAct
  try dsimp only [State.each]
  repeat' first
    | with_reducible assumption
    | with_reducible apply Kept.await
    | with_reducible apply Kept.dueAct
    | with_reducible apply Kept.ring
    | with_reducible apply Kept.foster
    | with_reducible apply Kept.restartFenced
    | fail_if_no_progress with_reducible refine Kept.upd ?_ rfl rfl rfl rfl rfl rfl
    | refine Kept.foldl _ _ ?_ ?_
    | intro _
    | split

theorem Kept.repairCmd {v : Word} (h : Kept s₀ s) : Kept s₀ (@State.repairCmd s v).1 := by
  unfold State.repairCmd
  try dsimp only [State.each]
  repeat' first
    | with_reducible assumption
    | with_reducible apply Kept.repairAct
    | with_reducible apply Kept.log1
    | fail_if_no_progress with_reducible refine Kept.upd ?_ rfl rfl rfl rfl rfl rfl
    | refine Kept.foldl _ _ ?_ ?_
    | intro _
    | split

theorem Kept.shutdownAll (h : Kept s₀ s) : Kept s₀ (@State.shutdownAll s) := by
  unfold State.shutdownAll
  try dsimp only [State.each]
  repeat' first
    | with_reducible assumption
    | with_reducible apply Kept.shutdownCmd
    | with_reducible apply Kept.ring
    | with_reducible apply Kept.shutdown
    | fail_if_no_progress with_reducible refine Kept.upd ?_ rfl rfl rfl rfl rfl rfl
    | refine Kept.foldl _ _ ?_ ?_
    | intro _
    | split

theorem Kept.commitCmd {v : Nat} (h : Kept s₀ s) : Kept s₀ (@State.commitCmd s v).1 := by
  unfold State.commitCmd
  try dsimp only [State.each]
  repeat' first
    | with_reducible assumption
    | with_reducible apply Kept.arm
    | with_reducible apply Kept.wrongTile
    | with_reducible apply Kept.ignored
    | fail_if_no_progress with_reducible refine Kept.upd ?_ rfl rfl rfl rfl rfl rfl
    | refine Kept.foldl _ _ ?_ ?_
    | intro _
    | split

theorem Kept.phaseCmd {v : Nat} (h : Kept s₀ s) : Kept s₀ (@State.phaseCmd s v).1 := by
  unfold State.phaseCmd
  try dsimp only [State.each]
  repeat' first
    | with_reducible assumption
    | with_reducible apply Kept.ignored
    | fail_if_no_progress with_reducible refine Kept.upd ?_ rfl rfl rfl rfl rfl rfl
    | refine Kept.foldl _ _ ?_ ?_
    | intro _
    | split

theorem Kept.rwCmd {i x v : Nat} {r : State × Nat} (h : Kept s₀ s) (hr : s.rwCmd i x v = some r) : Kept s₀ r.1 := by
  unfold State.rwCmd at hr
  repeat' split at hr
  all_goals first
    | cases hr; done
    | (cases hr; first | exact h.restartCmd | exact h.shutdownAll | exact h.hmOpenCmd | exact h.hmCloseCmd | exact h.hmAbandonCmd | exact h.phaseCmd | exact h.commitCmd | exact h.repairCmd)

theorem Kept.snapshotOn {h_ : Path} (h : Kept s₀ s) : Kept s₀ (@State.snapshotOn s h_) := by
  unfold State.snapshotOn
  try dsimp only [State.each]
  repeat' first
    | with_reducible assumption
    | with_reducible apply Kept.takeSnapshot
    | fail_if_no_progress with_reducible refine Kept.upd ?_ rfl rfl rfl rfl rfl rfl
    | refine Kept.foldl _ _ ?_ ?_
    | intro _
    | split

theorem Kept.snapshotPkg {h_ : Path} (h : Kept s₀ s) : Kept s₀ (@State.snapshotPkg s h_) := by
  unfold State.snapshotPkg
  try dsimp only [State.each]
  repeat' first
    | with_reducible assumption
    | with_reducible apply Kept.ring
    | fail_if_no_progress with_reducible refine Kept.upd ?_ rfl rfl rfl rfl rfl rfl
    | refine Kept.foldl _ _ ?_ ?_
    | intro _
    | split

theorem Kept.snapshotCmd {h_ : Path} {v : Nat} (h : Kept s₀ s) : Kept s₀ (@State.snapshotCmd s h_ v).1 := by
  unfold State.snapshotCmd
  try dsimp only [State.each]
  repeat' first
    | with_reducible assumption
    | with_reducible apply Kept.snapshotOn
    | with_reducible apply Kept.snapshotPkg
    | with_reducible apply Kept.wrongTile
    | with_reducible apply Kept.ignored
    | fail_if_no_progress with_reducible refine Kept.upd ?_ rfl rfl rfl rfl rfl rfl
    | refine Kept.foldl _ _ ?_ ?_
    | intro _
    | split

theorem Kept.mboxCmd {p : Nat} {x : Nat} {v : Nat} (h : Kept s₀ s) : Kept s₀ (@State.mboxCmd s p x v).1 := by
  unfold State.mboxCmd
  try dsimp only [State.each]
  repeat' first
    | with_reducible assumption
    | with_reducible apply Kept.setPort
    | fail_if_no_progress with_reducible refine Kept.upd ?_ rfl rfl rfl rfl rfl rfl
    | refine Kept.foldl _ _ ?_ ?_
    | intro _
    | split

theorem Kept.slotCmd {h_ : Path} {k : Nat} {v : Nat} (h : Kept s₀ s) : Kept s₀ (@State.slotCmd s h_ k v).1 := by
  unfold State.slotCmd
  try dsimp only [State.each]
  repeat' first
    | with_reducible assumption
    | with_reducible apply Kept.slotLoad
    | with_reducible apply Kept.slotErase
    | fail_if_no_progress with_reducible refine Kept.upd ?_ rfl rfl rfl rfl rfl rfl
    | refine Kept.foldl _ _ ?_ ?_
    | intro _
    | split

theorem Kept.eraseCmd {v : Nat} (h : Kept s₀ s) : Kept s₀ (@State.eraseCmd s v).1 := by
  unfold State.eraseCmd
  try dsimp only [State.each]
  repeat' first
    | with_reducible assumption
    | with_reducible apply Kept.eraseSlots
    | with_reducible apply Kept.log1
    | fail_if_no_progress with_reducible refine Kept.upd ?_ rfl rfl rfl rfl rfl rfl
    | refine Kept.foldl _ _ ?_ ?_
    | intro _
    | split

theorem Kept.logCmd {x : Nat} {v : Nat} (h : Kept s₀ s) : Kept s₀ (@State.logCmd s x v).1 := by
  unfold State.logCmd
  try dsimp only [State.each]
  repeat' first
    | with_reducible assumption
    | with_reducible apply Kept.ignored
    | fail_if_no_progress with_reducible refine Kept.upd ?_ rfl rfl rfl rfl rfl rfl
    | refine Kept.foldl _ _ ?_ ?_
    | intro _
    | split

theorem Kept.woCmd {hp : Path} {i x v : Nat} {r : State × Nat} (h : Kept s₀ s) (hr : s.woCmd hp i x v = some r) : Kept s₀ r.1 := by
  unfold State.woCmd at hr
  repeat' split at hr
  all_goals first
    | cases hr; done
    | (cases hr; first | exact h.hmPageWord | exact h.unlock | exact h.mboxCmd | exact h.slotCmd | exact h.keyWord | exact h.eraseCmd | exact h.snapshotCmd | exact h.logCmd)

theorem Kept.writeWith {hp : Path} {onward : Bool} {i x : Nat} {ws : List Word} (h : Kept s₀ s) : Kept s₀ (s.writeWith hp onward i x ws).1 :=
  h.writeAccess (fun _ _ _ _ _ k e => k.rwCmd e) (fun _ _ _ _ _ k e => k.woCmd e)

theorem Kept.write {h_ : Path} {i : Nat} {x : Nat} {ws : List Word} (h : Kept s₀ s) : Kept s₀ (@State.write s h_ i x ws) := by
  unfold State.write
  try dsimp only [State.each]
  repeat' first
    | with_reducible assumption
    | with_reducible apply Kept.writeWith
    | fail_if_no_progress with_reducible refine Kept.upd ?_ rfl rfl rfl rfl rfl rfl
    | refine Kept.foldl _ _ ?_ ?_
    | intro _
    | split

theorem Kept.badAccess {off : Nat} (h : Kept s₀ s) : Kept s₀ (@State.badAccess s off) := by
  unfold State.badAccess
  try dsimp only [State.each]
  repeat' first
    | with_reducible assumption
    | with_reducible apply Kept.logFrame
    | fail_if_no_progress with_reducible refine Kept.upd ?_ rfl rfl rfl rfl rfl rfl
    | refine Kept.foldl _ _ ?_ ?_
    | intro _
    | split

theorem Kept.setReply {r : Option (List Byte)} (h : Kept s₀ s) : Kept s₀ (@State.setReply s r) := by
  unfold State.setReply
  try dsimp only [State.each]
  repeat' first
    | with_reducible assumption
    | fail_if_no_progress with_reducible refine Kept.upd ?_ rfl rfl rfl rfl rfl rfl
    | refine Kept.foldl _ _ ?_ ?_
    | intro _
    | split

theorem Kept.discard {status : Nat} (h : Kept s₀ s) : Kept s₀ (@State.discard s status) := by
  unfold State.discard
  try dsimp only [State.each]
  repeat' first
    | with_reducible assumption
    | with_reducible apply Kept.logFrame
    | with_reducible apply Kept.setReply
    | fail_if_no_progress with_reducible refine Kept.upd ?_ rfl rfl rfl rfl rfl rfl
    | refine Kept.foldl _ _ ?_ ?_
    | intro _
    | split

theorem Kept.giveReply {carried : Option Nat} {bytes : List Byte} (h : Kept s₀ s) : Kept s₀ (@State.giveReply s carried bytes) := by
  unfold State.giveReply
  try dsimp only [State.each]
  repeat' first
    | with_reducible assumption
    | with_reducible apply Kept.ring
    | with_reducible apply Kept.setReply
    | fail_if_no_progress with_reducible refine Kept.upd ?_ rfl rfl rfl rfl rfl rfl
    | refine Kept.foldl _ _ ?_ ?_
    | intro _
    | split

theorem Kept.sendOnward {u : Nat} {bytes : List Byte} (h : Kept s₀ s) : Kept s₀ (@State.sendOnward s u bytes) := by
  unfold State.sendOnward
  try dsimp only [State.each]
  repeat' first
    | with_reducible assumption
    | with_reducible apply Kept.ring
    | with_reducible apply Kept.setReply
    | fail_if_no_progress with_reducible refine Kept.upd ?_ rfl rfl rfl rfl rfl rfl
    | refine Kept.foldl _ _ ?_ ?_
    | intro _
    | split

theorem Kept.maintRead {tile : BitVec 4} {idx : Word} {sub : Byte} {count : Byte} {carried : Option Nat} (h : Kept s₀ s) : Kept s₀ (@State.maintRead s tile idx sub count carried) := by
  unfold State.maintRead
  try dsimp only [State.each]
  repeat' first
    | with_reducible assumption
    | with_reducible apply Kept.count
    | with_reducible apply Kept.discard
    | with_reducible apply Kept.setReply
    | with_reducible apply Kept.sendOnward
    | with_reducible apply Kept.readAccess
    | with_reducible apply Kept.giveReply
    | fail_if_no_progress with_reducible refine Kept.upd ?_ rfl rfl rfl rfl rfl rfl
    | refine Kept.foldl _ _ ?_ ?_
    | intro _
    | split

theorem Kept.maintWrite {tile : BitVec 4} {idx : Word} {sub : Byte} {ws : List Word} {carried : Option Nat} (h : Kept s₀ s) : Kept s₀ (@State.maintWrite s tile idx sub ws carried) := by
  unfold State.maintWrite
  try dsimp only [State.each]
  repeat' first
    | with_reducible assumption
    | with_reducible apply Kept.discard
    | with_reducible apply Kept.setReply
    | with_reducible apply Kept.sendOnward
    | with_reducible apply Kept.writeWith
    | with_reducible apply Kept.giveReply
    | fail_if_no_progress with_reducible refine Kept.upd ?_ rfl rfl rfl rfl rfl rfl
    | refine Kept.foldl _ _ ?_ ?_
    | intro _
    | split

theorem Kept.privateWrite {bs : List Byte} (h : Kept s₀ s) : Kept s₀ (@State.privateWrite s bs) := by
  unfold State.privateWrite
  try dsimp only [State.each]
  repeat' first
    | with_reducible assumption
    | with_reducible apply Kept.discard
    | with_reducible apply Kept.count
    | with_reducible apply Kept.maintRead
    | with_reducible apply Kept.maintWrite
    | fail_if_no_progress with_reducible refine Kept.upd ?_ rfl rfl rfl rfl rfl rfl
    | refine Kept.foldl _ _ ?_ ?_
    | intro _
    | split

end Sys2Proof.Machine
end

