-- ==== Sys2Proof/Laws/Small.lean ====
section
/-!
SUPPORT. The small operations over one or two fields of State that stand beside their callers: each by one equation that says all it can touch.
-/
namespace Sys2Proof.Machine
open Sys2Proof

/-- A marker taken moves the frame's count and the cycle alone. -/
theorem State.takeMarker_only (s : State) (m : Marker) : s.takeMarker m = { s with anvil := (s.takeMarker m).anvil, clk := (s.takeMarker m).clk } := by
  unfold State.takeMarker
  split <;> rfl

/-- Whoever takes the anchor's marker is aligned to it. -/
@[simp] theorem State.takeMarker_aligned (s : State) (m : Marker) : (s.takeMarker m).anvil.aligned = true ∧ (s.takeMarker m).anvil.tickOff = 0 := by
  unfold State.takeMarker
  split <;> exact ⟨rfl, rfl⟩

theorem State.setAnchor_only (s : State) (u : Nat) :
    s.setAnchor u = { s with repair := { s.repair with anchor := u }, anvil := (s.setAnchor u).anvil } := rfl

@[simp] theorem State.setAnchor_anchor (s : State) (u : Nat) : (s.setAnchor u).repair.anchor = u := rfl

theorem State.dropRowParts_only (s : State) :
    s.dropRowParts = { s with sched := { s.sched with parts := s.sched.parts.filter (fun p => p.origin != .row) } } := rfl

/-- A late grant adds the recall of its line, where the master may not hold it, and nothing else. -/
theorem State.grantLate_only (s : State) (line : Nat) (r : HReq) : s.grantLate line r = { s with ha := (s.grantLate line r).ha } := by
  unfold State.grantLate
  split <;> rfl

@[simp] theorem State.grantLate_coherent (s : State) (line : Nat) (r : HReq) (h : s.stillCoherent r = true) : s.grantLate line r = s := by
  simp only [State.grantLate, h, Bool.true_or, if_true]

theorem State.sendLife_only (s : State) : s.sendLife = { s with out := s.sendLife.out } := by
  unfold State.sendLife
  split <;> rfl

/-- A request sent onward takes the next number, and its reply is awaited (R370). -/
theorem State.sendOnward_only (s : State) (u : Nat) (bs : List Byte) :
    s.sendOnward u bs = { s with maint := (s.sendOnward u bs).maint, out := s.out ++ [.ring (.onward u (s.maint.asked + 1) bs)] } := rfl

@[simp] theorem State.sendOnward_asked (s : State) (u : Nat) (bs : List Byte) : (s.sendOnward u bs).maint.asked = s.maint.asked + 1 := rfl

theorem State.sendRequest_only (s : State) (home : Nat) (r : HReq) :
    s.sendRequest home r = { s with out := s.out ++ [.ring (.request home (s.arcTo home) r)] } := rfl

theorem State.sendResponse_only (s : State) (tile : Nat) (m : RespMsg) :
    s.sendResponse tile m = { s with out := s.out ++ [.ring (.response tile (s.arcTo tile) m)] } := rfl

end Sys2Proof.Machine
end

