-- ==== Sys2Proof/Laws/Write.lean ====
section
/-!
SUPPORT. A write of one word on a path, said once: what a write of a one-word object comes to, by the object's access class (R374, R376).
-/
namespace Sys2Proof.Machine
open Sys2Proof

theorem regRow_has {i x : Nat} {row : RegRow} (h : regRow i x = some row) : row.has i x = true := by
  unfold regRow at h
  exact List.find?_some (p := fun r : RegRow => r.has i x) h

theorem RegRow.base_one {row : RegRow} {x : Nat} (hw : row.w = 1) (hx : row.s0 ≤ x) : row.base x = x := by
  unfold RegRow.base
  rw [hw]
  omega

/-- An access of one word to a one-word object is one part. -/
theorem partsOf_one {i x : Nat} {row : RegRow} (hr : regRow i x = some row) (hw : row.w = 1) (v : Word) :
    partsOf i 256 x [v] = [⟨row, i, x, 0, [v]⟩] := by
  have hx : row.s0 ≤ x := by
    have := regRow_has hr
    simp [RegRow.has] at this
    omega
  have hb := RegRow.base_one hw hx
  simp only [partsOf, hr, hb, hw]
  simp [partsOf]

/-- The part of a one-word access. -/
def onePart (row : RegRow) (i x : Nat) (v : Word) : WPart := ⟨row, i, x, 0, [v]⟩

@[simp] theorem onePart_value (row : RegRow) (i x : Nat) (v : Word) : (onePart row i x v).value = v.toNat := by
  simp [onePart, WPart.value, ofWords]

/-- The state in which the part of a one-word access is judged: a guarded word has used the latch (R379). -/
def State.latched (s : State) (h : Path) (row : RegRow) : State := if row.acc = .guarded then s.guardUse h else s

theorem State.write_one {s : State} {h : Path} {i x : Nat} {row : RegRow} {v : Word} (hd : s.dictOn = true) (hr : regRow i x = some row) (hw : row.w = 1) :
    s.write h i x [v] = ((s.latched h row).writePart (some h) false (s.guardOk h) State.rwCmd (fun z j y w => z.woCmd h j y w) (onePart row i x v)).1 := by
  unfold State.write State.writeWith State.writeAccess
  rw [if_pos hd, partsOf_one hr hw]
  simp only [List.any_cons, List.any_nil, Bool.or_false, List.foldl_cons, List.foldl_nil, State.latched, onePart]
  simp only [beq_iff_eq]

/-- The path's assembly is discarded where it stands for another object (R376). -/
def State.forgetAsm (s : State) (h : Path) (k : Nat) : State :=
  match (s.path h).asm with
  | some (j, _) => if j = k then s else s.setAsm (some h) none
  | none => s

/-- The one part of such an access, case by case of its class (R374). -/
theorem State.writePart_one (s : State) (h : Path) (onward ok : Bool) (cmd wo : State → Nat → Nat → Nat → Option (State × Nat)) (row : RegRow) (i x : Nat)
    (v : Word) :
    s.writePart (some h) onward ok cmd wo (onePart row i x v) =
      (let z := s.forgetAsm h (wkey i x)
       match row.acc with
       | .ro => (z, 4)
       | .wo => if !z.avail i then (z.ignored i x v.toNat, 6) else (wo z i x v.toNat).getD (z, 0)
       | .guarded => if ok then z.writeRw (some h) onward cmd (onePart row i x v) else (z, 5)
       | .rw => z.writeRw (some h) onward cmd (onePart row i x v)
       | .staged => z.writeRw (some h) onward cmd (onePart row i x v)) := by
  have hv : ofWords [v] = v.toNat := by simp [ofWords]
  unfold State.writePart onePart State.forgetAsm WPart.value State.asmOf
  simp only [hv, Option.getD_some, Nat.add_zero]
  all_goals (generalize row.acc = c; cases c <;> rfl)

/-- A WO object written (R374): its command acts at once. -/
theorem State.write_wo {s : State} {h : Path} {i x : Nat} {row : RegRow} {v : Word} (hd : s.dictOn = true) (hr : regRow i x = some row) (hw : row.w = 1)
    (ha : row.acc = .wo) (hav : (s.forgetAsm h (wkey i x)).avail i = true) :
    s.write h i x [v] = (((s.forgetAsm h (wkey i x)).woCmd h i x v.toNat).getD (s.forgetAsm h (wkey i x), 0)).1 := by
  have hl : s.latched h row = s := by simp [State.latched, ha]
  rw [State.write_one hd hr hw, hl, State.writePart_one]
  simp only [ha, hav, Bool.not_true, Bool.false_eq_true, if_false]

theorem State.writeRw_one (s : State) (h : Path) (onward : Bool) (cmd : State → Nat → Nat → Nat → Option (State × Nat)) {row : RegRow} (i x : Nat) (v : Word)
    (hw : row.w = 1) (hp : (isPkgWide i x && (onward || !s.isAnchor)) = false)
    (hs : (s.toStage (onePart row i x v) && s.commit.prepared) = false) :
    s.writeRw (some h) onward cmd (onePart row i x v) =
      (let z := s.setAsm (some h) none
       let n := (v &&& keptBits i x).toNat
       match cmd z i x n with
       | some r => r
       | none => match z.badValue i x n with
         | some code => (z.refuseValue code i x n, 6)
         | none => (z.putValue (some h) (onePart row i x v) n, z.pdStatus (onePart row i x v) n)) := by
  unfold State.writeRw
  have h1 : (isPkgWide (onePart row i x v).i (onePart row i x v).base && (some h).isSome && (onward || !s.isAnchor)) = false := by
    simpa [onePart] using hp
  rw [if_neg (by rw [h1]; exact Bool.false_ne_true), if_neg (by rw [hs]; exact Bool.false_ne_true)]
  have hf : (s.setAsm (some h) none).fullValue (onePart row i x v) (s.assembled (some h) (onePart row i x v)) = (v &&& keptBits i x).toNat := by
    unfold State.fullValue
    have hm : ∀ c : Word, (s.assembled (some h) (onePart row i x v)).getD 0 c = v := by
      intro c
      unfold State.assembled onePart
      simp [SMap.getD_set_same]
    show ofWords ((List.range row.w).map _) = _
    rw [hw]
    simp only [List.range_one, List.map_cons, List.map_nil, ofWords, hm]
    simp [onePart]
  dsimp only
  rw [if_neg (by simp [onePart, hw]), hf]
  rfl

end Sys2Proof.Machine
end

