-- ==== Sys2Proof/Tests/Slice0.lean ====
section
/-!
SUPPORT. Small tests. The first part refuses an ill-formed term for each check of WellFormed. The second gives, for each statement with hypotheses,
states and operands that meet them, at the edges of their ranges. The third takes examples and tables of the spec, each one step on a small state.
-/
namespace Sys2Proof.Tests
open Sys2Proof Sys2Proof.Machine
set_option Elab.async false

/-! ### Well-formed commands -/

/-- A request on the ring, of one line. -/
def hq (op : Op) (tile : Nat) (port : Port) : HReq := {
  tile := tile, port := port, txid := 3, op := op, lines := 1, tenant := 0, master := 1, tag := 2, addr := 0, cls := .l,
  demoted := false, age := 0, coherent := true, dirty := true, rage := 0, data := if isWrite op then [⟨5, false⟩] else [] }

/-- What a start meets where nothing is wrong. -/
def env0 : StartEnv := {
  bandgapOk := true, witnessOk := true, lockstepOk := true, ringOk := true, answering := 0x01, othersServing := false,
  anchorFrame := 0, sfdp := {}, pllOk := true,
  stack := {
    answered := true, ids := 4, rowBits := 14, timing := [28, 28, 56, 84, 4, 24, 40, 12, 8, 0, 3900, 200, 350, 32, 16, 12, 16],
    grades := 0x0E, laneSpares := 2, rowSpares := 4 }
  capsOthers := [], gradesOthers := 0x0E, annealFails := [], hardDue := 0, pairFails := [], gradeInForce := none, ms10 := 780 }

/-- A one-line request word of master 1 at address 0. -/
def w0 : ReqWord := {
  epoch := 0, priv := true, spec := false, lines := 0, tag := 3, tenant := 0, master := 1, addr := 0, dirty := false, rage := 0, desc := none }

/-- An update of tile 1's Seam line, of a write of its own. -/
def su0 : SeamUpd := {
  home := 1, no := 4, req := hq .writeAck 1 8, start := 7, finish := 263, line := 64, delta := 6, oldPoison := false, newPoison := false, whole := none }
/-- A snoop message of tile 1's home for agent 0. -/
def sm0 : SnoopMsg := { ty := .down, sup := some 0, home := 1, txn := 255, req := 7, line := 64, targets := [0], after := [] }

theorem test_wf_ring_request :
    (hq .writeAck 7 31).wf = true ∧ ({ hq .writeAck 7 31 with tile := 8 }).wf = false ∧ ({ hq .read 7 31 with lines := 0 }).wf = false ∧
    ({ hq .read 7 31 with lines := 4, addr := 64 }).wf = false ∧ ({ hq .read 7 31 with addr := 32 }).wf = false ∧
    ({ hq .read 7 31 with addr := 2 ^ 44 }).wf = false ∧ ({ hq .writeAck 7 31 with data := [] }).wf = false := by decide +kernel

theorem test_wf_start :
    (Instr.start env0).wf = true ∧ (Instr.start { env0 with stack := { env0.stack with timing := [] } }).wf = false ∧
    (Instr.start { env0 with assay := [] }).wf = false ∧ (Instr.start { env0 with annealFails := [64] }).wf = false ∧ (Instr.start { env0 with pairFails := [48] }).wf = false ∧
    (Instr.start { env0 with gradeInForce := some 0 }).wf = false ∧ (Instr.start { env0 with gradeInForce := some 5 }).wf = false := by decide +kernel

theorem test_wf_lengths :
    (Instr.hmPageProgram .win (List.replicate 127 0)).wf = false ∧ (Instr.chainRecordReceive 1 (List.replicate 31 0) ⟨0, 0⟩).wf = false ∧
    (Instr.quenchRestartDone { assay := [], tile := ⟨none, none, none, true⟩, mark := ⟨0, 0⟩ }).wf = false ∧ (Instr.onwardReply ⟨0, [0]⟩).wf = false ∧
    (Instr.onwardReply ⟨0, List.replicate 131 0⟩).wf = false ∧ (Instr.responseReturn ⟨0, 0, .none, List.replicate 5 ⟨0, .ok, false, 0⟩, none⟩).wf = false ∧
    (Instr.responseReturn ⟨0, 0, .none, [⟨4, .ok, false, 0⟩], none⟩).wf = false := by decide +kernel

theorem test_wf_lines :
    (Instr.agentLoad 0 32 false).wf = false ∧ (Instr.agentStore 0 1 0).wf = false ∧ (Instr.agentEviction 0 2 true).wf = false ∧
    (Instr.agentResponse 0 3 .dataS 0).wf = false ∧ (Instr.reservationExpire 1).wf = false ∧ (Instr.lostLineNotice 1 0).wf = false ∧
    (Instr.seamAck ⟨1, 0⟩ true).wf = false ∧ (Instr.seamReconstructDone 1 [] ⟨0, .good⟩).wf = false ∧ (Instr.seamUpdate 1 { su0 with line := 1 } none).wf = false ∧ (Instr.seamUpdate 2 su0 none).wf = false ∧ (Instr.seamUpdate 1 su0 none).wf = true ∧
    (Instr.snoopPresent ⟨0, [{ sm0 with line := 1 }]⟩).wf = false ∧ (Instr.snoopPresent ⟨0, [{ sm0 with targets := [48] }]⟩).wf = false ∧ (Instr.agentLoad 0 64 false).wf = true := by decide +kernel

theorem test_wf_shapes :
    (Instr.maintRead 0 0 0 0 none).wf = false ∧ (Instr.maintRead 0 0 0 65 none).wf = false ∧ (Instr.maintRead 0 0 255 2 none).wf = false ∧
    (Instr.maintRead 0 0 192 64 none).wf = true ∧ (Instr.maintWrite 0 0 0 [] none).wf = false ∧ (Instr.registerWrite .win 0 0 []).wf = false ∧
    (Instr.latchRead .win 0 255 1).wf = false ∧ (Instr.windowBadAccess 2 16 true).wf = false ∧ (Instr.windowBadAccess 1 16 true).wf = true ∧
    (Instr.packageWideWrite .win .own 0x1500 1 [0]).wf = false := by decide +kernel

theorem test_wf_ranges :
    (Instr.heartbeatReceive { tile := 1, frame := 0, gen := 0, anchor := 0, st := .serving, offset := 32768 }).wf = false ∧ (Instr.unlistedOpcode 0 0 w0).wf = false ∧
    (Instr.planishStepDone 0 [{ lane := 36, readEye := 9, writeEye := 9, off := 0 }]).wf = false ∧
    (Instr.annealDone 0 0 [(0, { lane := 36, readEye := 9, writeEye := 9, off := 0 })]).wf = false ∧ (Instr.rebuildRowSwitch (2 ^ 24) 0).wf = false ∧
    (Instr.resyncDone [2 ^ 24]).wf = false ∧ (Instr.healApply 0 0 [] false { fostered := false, mark := ⟨0, 0⟩, rows := [2 ^ 24] }).wf = false ∧
    (Instr.readDataReturn 0 [(3, 1), (3, 2)]).wf = false ∧ (Instr.rplFwd 0 ⟨0, 0⟩ .m true 0).wf = false ∧
    (Instr.healApply 0 0 [(wkey 0x1500 1, 0)] false { fostered := false, mark := ⟨0, 0⟩ }).wf = false := by decide +kernel

/-! ### The statements' hypotheses are met -/

/-- A tile with every domain on, out of service, whose stack has 4 stack IDs of 2^13 rows and some declared timings. -/
def b0 : State := { pd := { status := 0x3FFFFFFF }, phy := { cap := 2 ^ 20, ids := 3, rowBits := 13, declared := (List.range 17).map (fun k => 4 * k + 4) } }
/-- The same tile in service. -/
def b1 : State := { b0 with dict := { phase := 1 }, boot := { st := 2, usable := true } }
/-- With the unlock latch of the window armed. -/
def arm (s : State) : State := { s with win := { s.win with armedAt := some 0 } }
/-- At a frame number. -/
def atFrame (f : BitVec 64) (s : State) : State := { s with anvil := { s.anvil with frameNo := f } }
/-- Not the anchor. -/
def off (s : State) : State := { s with ident := { n := 8, t := 1 } }

theorem test_met_steps : State.reset.pending = [] ∧ State.reset.memWf = true ∧ b0.memWf = true := by decide +kernel

theorem test_met_step_next : ∃ t, step { State.reset with pending := [.powerOn] } = .next t := ⟨_, rfl⟩

theorem test_met_agent_stops :
    exec (.agentLoad 0 64 false) { b0 with agents := [(agentKey 0 64, { st := .isD })] } = .fault .agentActionUnlisted := rfl

theorem test_met_other_completes : ∃ t, exec .frameTick State.reset = .next t ∧ State.reset.memWf = true := ⟨_, rfl, by decide +kernel⟩

theorem test_met_plain_write_stages :
    b0.dictOn = true ∧ b0.phase ≠ 1 ∧ b0.commit.prepared = false ∧
    ([.schedWrite .win .ageT 1, .schedWrite .bus .ageB 255, .budgetWrite .win 255 0xFFFF, .windowWrite .win 0 64, .outCapWrite .bus 255 1024,
      .watermarksWrite .win 3 0x2000, .watermarksWrite .win 31 0x403F, .tenantMapWrite .win (.inl 4095) 0x83FF, .tenantMapWrite .win (.inr 0) 0,
      .shaperWrite .win 1023 .rate 0, .shaperWrite .win 0 .burst 4, .shaperWrite .win 0 .weight 255, .latModeWrite .win (some 0) 1,
      .latModeWrite .win none 1, .schedWrite .win .wrWatermarks 0x3837, .schedWrite .win .pdIdle 1024, .pickleWrite .win .period 720,
      .pickleWrite .win .ctrl 0x8000, .pickleWrite .win .ceLimit 1, .rebuildLimitWrite .win 16, .haWrite .win .snoopLimit 2,
      .haWrite .win .reserveLimit 255] : List Instr).all (fun c => (plainWrite c).map (·.ok) == some true) = true := by decide +kernel

theorem test_met_plain_write_applies : b1.dictOn = true ∧ b1.phase = 1 := by decide +kernel

theorem test_met_plain_write_out_of_range :
    ([.schedWrite .win .ageT 0, .schedWrite .bus .ageB 256, .windowWrite .win 0 65, .outCapWrite .bus 255 0,
      .watermarksWrite .win 3 0x2100, .watermarksWrite .win 28 0x1000, .watermarksWrite .win 29 0x1000, .watermarksWrite .win 31 0x4040,
      .tenantMapWrite .win (.inl 0) 0x43FD, .shaperWrite .win 0 .burst 3, .shaperWrite .win 0 .weight 256, .latModeWrite .win (some 0) 2,
      .latModeWrite .win none 0, .schedWrite .win .wrWatermarks 0x3900, .schedWrite .win .mode 2, .pickleWrite .win .period 0, .pickleWrite .win .ceLimit 0,
      .rebuildLimitWrite .win 1025, .haWrite .win .snoopLimit 1] : List Instr).all (fun c => (plainWrite c).map (·.ok) == some false) = true := by
  decide +kernel

/-- A tile whose staged set is frozen by PREPARE. -/
def bp : State := { b0 with commit := { prepared := true } }

theorem test_met_frozen_write : (plainWrite (.schedWrite .win .ageT 1)).isSome = true ∧ bp.dictOn = true ∧ bp.phase ≠ 1 ∧ bp.commit.prepared = true := by
  decide +kernel

theorem test_met_package_wide :
    b0.dictOn = true ∧ b0.isAnchor = true ∧ (off b0).isAnchor = false ∧ (off b0).dictOn = true ∧ b0.commit.prepared = false ∧
    (0xC000 : Word) &&& 0x3FFF = 0 ∧ (1 : Word) ≠ 0 ∧ isPkgWide 0x3200 1 = true ∧ (regRow 0x3200 1).isSome = true ∧ isPkgWide 0x5000 4 = true := by decide +kernel

theorem test_met_credits :
    fld (0x4020 : Word) 15 8 = 64 ∧ fld (0x4020 : Word) 7 0 = 32 ∧ fld (0x0101 : Word) 15 8 = 1 ∧ fld (0x0101 : Word) 7 0 = 1 := by decide +kernel

theorem test_met_guarded :
    guardedOn (.hmOpen .win) = some .win ∧ b0.guardOk .win = false ∧ (arm b0).guardOk .win = true ∧ (arm b0).dictOn = true ∧
    ({ arm b0 with win := { armedAt := some 0, lockedAt := some 0 } } : State).guardOk .win = false := by decide +kernel

theorem test_met_coefficients :
    (0 ≤ (127 : Word).toInt ∧ (127 : Word).toInt ≤ 127) ∧ 256 ≤ (4095 : Word).toInt ∧ (1023 : Word).toInt ≤ 1023 ∧ (arm b1).phase = 1 ∧
    (arm b1).guardOk .bus = false ∧ (arm b1).guardOk .win = true ∧ (arm b0).phase ≠ 1 ∧ (arm b0).commit.prepared = false := by decide +kernel

theorem test_met_decode_addr : (BitVec.ofNat 64 (2 ^ 44 - 1)).toNat < 2 ^ 44 := by decide +kernel

theorem test_met_mailbox : b0.avail 0x3100 = true := by decide +kernel

theorem test_met_unlock :
    b0.locked .win = false ∧ (0xA5C4 : Word) ≠ 0xA5C3 ∧
    ((({ b0 with win := { keyTimes := [0, 0] } } : State).path .win).keyTimes.filter (fun m => decide (b0.ns < m + 1000000000))).length = 2 ∧
    ({ b0 with win := { lockedAt := some 0 } } : State).locked .win = true ∧ ((arm b0).path .win).armedAt = some 0 := by decide +kernel

theorem test_met_phase :
    (1 ≤ b1.phase ∧ b1.phase ≤ 3) ∧ b0.phase = 0 ∧ (3 : Word).toNat ≤ 3 ∧ 4 ≤ ({ b0 with dict := { phase := 4 } } : State).phase := by decide +kernel

theorem test_met_snapshots :
    b0.snap.from_ = none ∧ b0.snap.fromPkg = none ∧ ({ b0 with snap := { fromPkg := some (0, .bus) } } : State).snap.fromPkg = some (b0.clk.now, .bus) ∧ ({ b0 with snap := { from_ := some (0, .bus) } } : State).snap.from_ = some (b0.clk.now, .bus) ∧ Path.bus ≠ .win ∧
    b0.isAnchor = true ∧ ({ b0 with snap := { due := [0] } } : State).snap.due = [0] ∧ (0 : BitVec 64).toNat ≤ b0.frame := by decide +kernel

theorem test_met_replica :
    wkey 0x3410 1 ∈ ({ b0 with dict := { restoring := [wkey 0x3410 1] } } : State).dict.restoring ∧ isAclKey 0x3410 1 = false := by decide +kernel

theorem test_met_bad_window :
    badShape 1 16 = true ∧ badShape 0 8 = true ∧ badShape 0x1FE 32 = true ∧ SMap.look b0.log.seen (limKey 0x0F03 0) = none := by decide +kernel

theorem test_met_reads :
    ((regRow 0x4000 2).map (fun r => r.acc) = some .rw) ∧ b0.dict.badApplied = [] ∧ b0.dict.badStaged = [] ∧
    bit ((b0.setReg 0x1401 1 0x8000).reg 0x1401 1) 15 = true ∧ (b0.setReg 0x1401 1 0x8000).dictOn = true := by decide +kernel

theorem test_met_register_write :
    ((regRow 0x4000 1).map (fun r => (r.acc, r.w)) = some (.rw, 1)) ∧ actsAtOnce 0x4000 1 = false ∧
    b0.badValue 0x4000 1 ((1 : Word) &&& keptBits 0x4000 1).toNat = none ∧ (0xFF00 : Word).toNat + 65536 * (15 : Word).toNat ≤ 1048320 := by decide +kernel

/-- A path with an assembly begun, and one entry in the log. -/
def basm : State := { b0 with win := { asm := some (wkey 0x1110 3, [(0, 5)]) }, log := { entries := [⟨0x0202, 0, 0, 0, []⟩] } }

theorem test_met_assembly_discarded :
    (basm.path .win).asm = some (wkey 0x1110 3, [(0, 5)]) ∧ wkey 0x1110 3 ≠ wkey 0x9000 7 ∧ (0 : Word).toNat < basm.log.entries.length ∧
    basm.dictOn = true := by decide +kernel

/-- Armed and held by reset, in a start, failed, in a shutdown. -/
def boot (st : Nat) (s : State) : State := { s with boot := { s.boot with st := st } }

theorem test_met_power :
    b0.boot.prog = none ∧ b0.boot.hmErasing = false ∧ b0.boot.st ≠ 5 ∧ (boot 5 b0).boot.st = 5 ∧ State.reset.boot.st = 0 ∧ State.reset.dom 0 = true ∧
    (boot 1 b0).boot.step = 0 ∧ ({ boot 5 b0 with pins := { pwrfailN := false } } : State).pins.pwrfailN = false := by decide +kernel

/-- The bytes of an image without records, in region A. -/
def head0 : List Byte := headBytes magicImage 41 0
def img0 : List Byte := head0 ++ bytesOf 4 (crc32c head0).toNat
/-- A tile alone whose start has begun, with that image in its store. -/
def sst : State := {
  ident := { n := 1, t := 0 }, boot := { st := 1, cause := 1, step := 1 }, pins := { resetN := true },
  nor := (img0.zipIdx.filter (fun e => e.1 ≠ 0xFF)).map (fun e => (imageAt 0 + e.2, e.1)) }

theorem test_met_start_image : sst.selectImage.2 = some 0 ∧ sst.imageRecords (imageAt 0) = some [] := by decide +kernel

theorem test_met_start :
    sst.boot.st = 1 ∧ sst.pins.resetN = true ∧ sst.pins.pwrfailN = true ∧ sst.quench.on = false ∧ env0.bandgapOk = true ∧ env0.witnessOk = true ∧ env0.lockstepOk = true ∧
    env0.ringOk = true ∧ env0.sfdp.item = none ∧ env0.sent = none ∧ sst.boot.gradeSel = 0 ∧ env0.pllOk = true ∧ env0.annealFails = [] ∧ env0.gradeInForce = none ∧
    bit env0.stack.grades 1 = true ∧ bit env0.gradesOthers 1 = true ∧ env0.stack.answered = true ∧
    usableStack env0.stack.ids env0.stack.rowBits = true ∧ nth env0.stack.timing 9 0 ≤ 1 ∧ 2560 ≤ nth env0.stack.timing 10 0 ∧ env0.ms10 ≤ 2500 := by
  decide +kernel

theorem test_met_failed_start :
    sst.boot.usable = false ∧ (({ env0 with bandgapOk := false } : StartEnv).bandgapOk && env0.witnessOk) = false ∧ (boot 3 b0).boot.st = 3 ∧
    sst.boot.prog = none := by decide +kernel

theorem test_met_restart :
    b1.boot.st = 2 ∧ b1.boot.prog = none ∧ b1.boot.hmErasing = false ∧ b1.dictOn = true ∧ (arm b1).guardOk .win = true ∧ b1.isAnchor = true ∧
    b1.boot.usable = true := by decide +kernel

/-- The anchor with a copy open, ready for its page or its end. -/
def bhm : State := { arm b1 with boot := { st := 2, usable := true, hmOpen := true, hmReady := true, hmCopy := 1 } }

theorem test_met_images :
    (arm b1).hmMay = true ∧ (arm b1).boot.hmOpen = false ∧ (arm b1).guardOk .win = true ∧ bhm.hmMay = true ∧ bhm.boot.hmOpen = true ∧
    bhm.boot.hmReady = true ∧ bhm.boot.hmPages < 4095 ∧ bhm.boot.hmClosing = false ∧ bhm.boot.st ≠ 5 ∧ bhm.guardOk .win = true ∧
    ceilDiv (bhm.regs 0x1110 3 2) 256 = bhm.boot.hmPages ∧ bhm.hmTarget = 0 ∧ ({ bhm with boot := { bhm.boot with hmCopy := 2 } } : State).hmTarget ≠ 0 ∧
    ({ bhm with boot := { hmErasing := true } } : State).boot.hmErasing = true ∧ bhm.dictOn = true ∧ (List.replicate 128 (0 : Word)).length = 128 ∧
    (imageAt 0 + 256 * (15 + 1)) % 4096 = 0 ∧ bhm.blank (imageAt bhm.hmTarget + 256 * (bhm.boot.hmPages + 1)) 256 = true ∧
    bhm.blank (imageAt bhm.hmTarget) 256 = true ∧ (arm b1).boot.hmErasing = false := by decide +kernel

theorem test_met_repair_map :
    b1.dom 1 = true ∧ ({ b1 with repair := { b1.repair with mapDue := true } } : State).repair.mapDue = true ∧ b1.repair.map.length ≤ 4064 := by decide +kernel

/-- A path whose buffer holds every word of a key for slot k. -/
def bkey (k : Nat) : State := { b0 with win := { keySlot := some k, keyWords := (List.range 32).map (fun j => (j, BitVec.ofNat 16 (j + 1))) } }

theorem test_met_key_loads :
    b0.avail 0x6000 = true ∧ ((bkey 1023).path .win).keySlot = some 1023 ∧ (b0.slot 1023).st ≠ 2 ∧ (b0.slot 1023).st ≠ 3 ∧
    (∀ j, j < 32 → (SMap.look ((bkey 1023).path .win).keyWords j).isSome = true) ∧
    SMap.look ((bkey 0).path .win).keyWords 0 ≠ SMap.look ((bkey 0).path .win).keyWords 8 ∧
    SMap.look ((bkey 0).path .win).keyWords 0 ≠ SMap.look ((bkey 0).path .win).keyWords 16 ∧
    SMap.look (b0.path .win).keyWords 15 = none ∧ (b0.path .win).keySlot ≠ some 0 := by decide +kernel

theorem test_met_slots :
    ((b0.setSlot 9 { st := 3 }).slot 9).st = 3 ∧ (b0.setSlot 9 { st := 3 }).slotOpen 9 = 0 ∧ ((b0.setSlot 9 { st := 2 }).slot 9).applied = false ∧
    ((b0.setSlot 9 { st := 2, applied := true }).slot 9).applied = true ∧ b0.cipher.badSlots.contains 9 = false ∧ b0.dom 1 = true ∧
    ({ b0 with cipher := { badSlots := [9] } } : State).cipher.badSlots.contains 9 = true ∧ ((bkey 0).path .win).keyFrame + 65536 ≤ (atFrame 65536 (bkey 0)).frame := by
  decide +kernel

theorem test_met_repair_commands :
    (arm b0).dictOn = true ∧ (arm b0).guardOk .win = true ∧ (arm b0).repair.stackRetired = false ∧
    ((arm b0).pc (fld ((arm b0).reg 0x7801 2) 11 6)).retired = false ∧ (arm b0).repair.waiting = [] ∧ ((arm b0).pc 0).rbanks = [] ∧ (arm b0).isAnchor = true ∧
    (7 : BitVec 4).toNat < (arm b0).n ∧ (7 : BitVec 4).toNat ≠ (arm b0).t ∧ bit (arm b0).repair.view 7 = true ∧ (0 : BitVec 4).toNat = (arm b0).t ∧
    ({ b0 with repair := { b0.repair with split := some 0 } } : State).repair.split.isSome = true ∧
    RungAct.restart 7 ∉ (arm b0).repair.due ∧
    ({ b0 with repair := { b0.repair with fenced := some .clock } } : State).repair.fenced.isSome = true := by decide +kernel

theorem test_met_commit_arming :
    b0.commit.armed = 0 ∧ b0.regs 0x1500 3 4 = 0 ∧ b0.frame + 6 ≤ b0.frame + ((b0.setReg 0x1500 2 6).reg 0x1500 2).toNat ∧
    ((b0.setReg 0x1500 4 16).regs 0x1500 3 4 = b0.frame + 2 ^ 20) ∧ (b0.setReg 0x1500 2 5).frame + ((b0.setReg 0x1500 2 5).reg 0x1500 2).toNat < b0.frame + 6 ∧
    b0.frame + 2 ^ 20 < ((b0.setReg 0x1500 3 1).setReg 0x1500 4 16).regs 0x1500 3 4 ∧ ({ b0 with commit := { armed := 1 } } : State).commit.armed ≠ 0 := by
  decide +kernel

theorem test_met_power_domains :
    (arm b0).pdBad 0x3FFFFFFF = false ∧ (arm b0).pdBad 3 = true ∧ bit (({ b0 with pd := { status := 1, rising := 2 } } : State).pd.rising) 1 = true ∧
    b0.ha.held = [] := by
  decide +kernel

/-- The anchor of a package commit that waits for its votes. -/
def bcm : State := { b0 with commit := { armed := 2, prepared := true, pf := 2 } }

theorem test_met_agreement :
    b0.repair.fenced = none ∧ b0.commit.prepared = false ∧ (off b0).isAnchor = false ∧ bcm.dom 1 = true ∧ bcm.isAnchor = true ∧ bcm.commit.armed = 2 ∧
    7 < bcm.n ∧ bcm.across 7 = false ∧ bcm.commit.decided = false ∧ bcm.commit.pf.toNat ≤ bcm.frame + 2 ∧
    SMap.look bcm.commit.votes 0 ≠ some bcm.commit.digest ∧ 0 ∈ bcm.viewTiles ∧ bcm.commit.go = none ∧
    (∀ u ∈ bcm.viewTiles, SMap.look (({ bcm with commit := { bcm.commit with votes := (List.range 8).map (fun k => (k, 0)) } } : State)).commit.votes u =
      some bcm.commit.digest) := by decide +kernel

/-- A tile commit armed for this tick. -/
def bta : State := { b0 with commit := { armed := 1 } }

theorem test_met_application :
    bta.commit.prepared = false ∧ bta.commit.armed = 1 ∧ bta.commit.f.toNat ≤ bta.frame ∧ bta.dict.staged = [] ∧ bta.phy.ovrDue = [] ∧ bta.dom 1 = true ∧
    ({ bta with dict := { staged := [(wkey 0x3410 1, 7)] } } : State).dict.staged = [(wkey 0x3410 1, 7)] ∧
    (0 : BitVec 64).toNat + 64 ≤ (atFrame 64 { b0 with commit := { holdSince := some 0 } }).frame ∧ b0.repair.fenced = none ∧ RungAct.fence .commitHold ∉ b0.repair.due := by decide +kernel

theorem test_met_frames :
    b0.dom 2 = true ∧ b0.anvil.lockstepOk = true ∧ b0.anvil.slot < 16 ∧ ({ b0 with anvil := { slot := 15 } } : State).anvil.slot < 16 ∧
    (let s := { b0 with anvil := { lockstepOk := false } }
     s.anvil.lockstepOk = false ∧ s.repair.due = [] ∧ s.repair.recov = none ∧ s.dom 1 = true ∧
      (let z := { s with repair := { s.repair with due := [.fence .lockstep] } }; z.repair.due = [.fence .lockstep] ∧ z.repair.fenced = none) ∧
      (let z := { s with repair := { s.repair with due := [.restart 0], fenced := some .lockstep } }
       z.repair.fenced.isSome = true ∧ .restart z.t ∈ z.repair.due ∧ z.boot.prog = none ∧ z.boot.hmErasing = false)) ∧
    b0.repair.fenced = none ∧ b0.repair.copying = none ∧ RungAct.fence .lockstep ∉ b0.repair.due := by decide +kernel

/-- A pseudo-channel 3 with the given state, on a tile whose stack is set up. -/
def bpc (q : PcSt) : State := { b0 with clk := { now := 1024 * 9 }, store := { ready := true } }.setPc 3 q

theorem test_met_refresh :
    (bpc {}).refreshes 3 = true ∧ 47 < (bpc {}).banks ∧ (bpc {}).tim 11 ≠ 0 ∧ ((atFrame 1000 (bpc {})).nextAccrual 3 0 ≤ 1024 * 1000) ∧
    ((bpc { forced := [5] }).pc 3).forced = [5] ∧ ((bpc { forced := [5] }).pc 3).bankReady.getD 5 0 ≤ (bpc {}).clk.now ∧
    ((bpc {}).pc 3).rowFree ≤ (bpc {}).clk.now ∧ (bpc {}).clk.now + (bpc {}).tim 12 ≤ ((bpc {}).clk.now / 1024 + 1) * 1024 ∧ ((bpc {}).pc 3).down = none ∧
    ((bpc { refpb := 1 }).pc 3).refpb = 1 ∧ ((bpc { refpb := 1 }).pc 3).refab = false ∧ ((bpc { refpb := 1 }).pc 3).bankReady = [] ∧
    ((bpc { refpb := 1 }).pc 3).forced = [] ∧ ((bpc { refpb := 1 }).pc 3).refpbFrom ≤ (bpc { refpb := 1 }).clk.now ∧ ((bpc { refpb := 1 }).pc 3).refpbDone = [] ∧
    -(((bpc { forced := [5] }).reg 0x2100 6).toNat : Int) < ((bpc { forced := [5] }).pc 3).debt 5 ∧
    -(((bpc {}).reg 0x2100 6).toNat : Int) < ((bpc {}).pc 3).debt 0 ∧
    max (bpc {}).clk.now ((bpc {}).pc 3).rowFree + (bpc {}).tim 12 ≤ ((bpc {}).clk.now / 1024 + 1) * 1024 ∧ ((bpc { refab := true }).pc 3).refab = true ∧
    max (bpc {}).clk.now ((bpc {}).pc 3).rowFree + (bpc {}).tim 13 ≤ ((bpc {}).clk.now / 1024 + 1) * 1024 := by decide +kernel

/-- A heartbeat of tile 1 with the given offset. -/
def hbt (o : Int) : Heartbeat := { tile := 1, frame := 0, gen := 0, anchor := 0, st := .serving, offset := o }
/-- A tile that has missed three heartbeats of tile 1. -/
def bhb : State := { b0 with anvil := { hb := [(1, { missed := 3 })] } }
/-- Tile 0 whose anchor is tile 1, with one offset beyond the limit behind it. -/
def bof : State := { b0 with anvil := { offBad := true }, repair := { b0.repair with anchor := 1 } }

theorem test_met_heartbeats :
    (hbt 2).tile.val < b0.n ∧ (hbt 2).tile.val ≠ b0.t ∧ bit b0.anvil.hbNow 1 = false ∧ (-2 ≤ (hbt (-2)).offset ∧ (hbt 2).offset ≤ 2) ∧
    SMap.look bhb.anvil.hb 1 = some { missed := 3 } ∧ bit bhb.repair.view 1 = true ∧ bhb.cutFrom 1 = false ∧ RungAct.foster 1 ∉ bhb.repair.due ∧
    (b0.repair.fenced.isSome = true ∨ (off b0).isAnchor = false) ∧ (hbt 3).tile.val = bof.repair.anchor ∧ bof.repair.fenced = none ∧ bof.anvil.offBad = true ∧ 2 < (hbt 3).offset ∧ (hbt (-3)).offset < -2 ∧
    bof.dom 1 = true := by decide +kernel

/-- Port 8 enabled, with credits and the given state. -/
def bpt (q : PortSt) : State := (b1.setReg 0x3008 1 0x80F0).setPort 8 { q with live := true, reqCred := 1, wrCred := 1 }

theorem test_met_port_controls :
    (bpt {}).dictOn = true ∧ portCtrlKept ((bpt {}).reg 0x3008 1) = true ∧ ((bpt {}).port 8).flush = none ∧ 1 ≤ fld ((bpt {}).reg 0x3008 4) 15 8 ∧ bit ((bpt {}).reg 0x3008 1) 15 = true ∧
    portCtrlKept ((b1.setReg 0x3008 1 0x00F0).reg 0x3008 1) = true ∧ bit ((b1.setReg 0x3008 1 0x00F0).reg 0x3008 1) 15 = false ∧ b1.portsUp = true ∧ b1.boot.st = 2 ∧ b1.nextBusy 8 = false ∧
    ({ b1 with anvil := { aligned := true } } : State).anvil.aligned = true ∧ 8 ≤ (8 : BitVec 4).toNat ∧ (14 : BitVec 4).toNat ≤ 14 := by decide +kernel

theorem test_met_requests :
    (bpt {}).portsUp = true ∧ internalPort 8 = false ∧ (bpt {}).epochOk 8 w0.epoch = true ∧ ((bpt {}).port 8).reqCred ≠ 0 ∧ formatCause 8 .read w0 = 0 ∧
    formatCause 8 .writeAck w0 = 0 ∧ formatCause 20 .rdShared w0 = 0 ∧ formatCause 8 .read { w0 with lines := 3, addr := 1 } ≠ 0 ∧
    formatCause 8 .writeAck { w0 with spec := true } ≠ 0 ∧ ((bpt {}).port 8).early = [] ∧ ((bpt {}).port 8).respLevel < 64 ∧
    ((bpt {}).port 8).flush = none ∧ ((bpt {}).port 8).resets = [] ∧ isWrite Op.read = false ∧ isWrite Op.writeAck = true ∧
    (let r : QReq := { op := .writeAck, w := { w0 with spec := true }, got := [⟨0, true, false, 5⟩], bad := some (2, 2) }
     ((bpt { queue := [r] }).port 8).queue = [r] ∧ r.bad = some (2, 2) ∧ r.w.count ≤ r.got.length ∧ r.w.epoch = ((bpt { queue := [r] }).port 8).epoch) ∧
    ((bpt {}).dom 1 = true) := by decide +kernel

theorem test_met_other_epoch :
    (b1.setReg 0x3008 1 0x00F0).enabled 8 = false ∧ (({ w0 with epoch := 1 } : ReqWord).epoch ≠ ((bpt {}).port 8).epoch) ∧ requestOf .masterReset 8 w0 = .masterReset 8 w0 ∧
    ((bpt {}).setPort 8 {}).enabled 8 = true ∧ (((bpt {}).setPort 8 {}).port 8).live = false := by decide +kernel

theorem test_met_overrun :
    let s := (bpt {}).setPort 8 { live := true }
    (s.port 8).reqCred = 0 ∧ (s.port 8).wrCred = 0 ∧ s.epochOk 8 0 = true ∧ (s.port 8).flush = none ∧
      (((bpt {}).setPort 8 { live := true, flush := some 1 }).port 8).flush.isSome = true := by decide +kernel

theorem test_met_master_reset :
    let s := bpt {}
    formatCause 8 .masterReset w0 = 0 ∧ bit ((s.setReg 0x3400 2 0xC000).masterWord w0.master) 15 = true ∧ s.restoringKey (masterKey w0.master.toNat) = false ∧
      (s.port 8).queue = [] ∧ (s.port 8).onward = [] ∧ (s.port 8).resets = [] ∧ (s.port 8).flush = none ∧ (s.port 8).respLevel < 64 ∧
      s.checkHeld = false ∧ s.cipher.ents = [] := by decide +kernel

/-- A write request of one line, with none of it received. -/
def qwr : QReq := { op := .writeAck, w := w0 }

theorem test_met_write_line :
    isWrite qwr.op = true ∧ qwr.got.length < qwr.w.count ∧ ({ epoch := 0, last := true, poison := false, data := 5 } : WLine).last =
      (qwr.got.length + 1 == qwr.w.count) ∧ ((bpt { queue := [qwr] }).port 8).queue = [qwr] ∧ ((bpt {}).port 8).queue = [] ∧ ((bpt {}).port 8).wrCred ≠ 0 := by
  decide +kernel

/-- A tile that lets master 1 read and write its whole address space, with a request waiting alone at port 8. -/
def bck (q : List QReq) : State :=
  (((((((b1.setReg 0x3400 2 0xC000).setReg 0x3200 3 0xFFFF).setReg 0x3200 5 0xFFFF).setReg 0x3200 6 0xFFFF).setReg 0x3200 7 0x8000).setReg 0x3414 2 100).setReg
    0x3410 2 100).setPort 8 { queue := q }
def qrd : QReq := { op := .read, w := w0 }

theorem test_met_request_leaves :
    let s := bck [qrd]
    s.portsUp = true ∧ (s.port 8).queue = [qrd] ∧ qrd.bad = none ∧ qrd.op ≠ .masterReset ∧ (s.port 8).flush = none ∧ (s.port 8).resets = [] ∧
      s.checkHeld = false ∧ s.inLanes 8 qrd.w = false ∧ s.underCap qrd.w.master = true ∧
      s.check 8 qrd.op qrd.w = .pass false false ∧ s.store.initing = false ∧ s.room 8 qrd.need = true ∧
      (∀ coh, s.here qrd.op coh qrd.w.byteAddr qrd.w.count = none) ∧ s.hasShare (s.serves qrd.w.byteAddr qrd.w.count) = true := by decide +kernel

theorem test_met_request_refused :
    let s := (bck [qrd]).setReg 0x3400 2 0
    s.check 8 qrd.op qrd.w = .refuse .accessFault 0x0502 0xFFFF ∧ (qrd.op = .read ∨ qrd.op = .writeAck) ∧ qrd.w.spec = false ∧ qrd.w.desc = none ∧
      s.underCap qrd.w.master = true ∧ s.room 8 1 = true ∧ s.portsUp = true ∧ (s.port 8).queue = [qrd] ∧ qrd.bad = none ∧ (s.port 8).flush = none ∧
      (s.port 8).resets = [] ∧ s.checkHeld = false := by decide +kernel

theorem test_met_access_check :
    (b1.setReg 0x2000 3 0).map.mapEnd ≤ ({ w0 with addr := BitVec.ofNat 38 (b1.map.mapEnd / 64) } : ReqWord).byteAddr ∧
    ({ w0 with addr := BitVec.ofNat 38 (b1.map.mapEnd / 64 - 1) } : ReqWord).byteAddr < b1.map.mapEnd ∧ bit (b1.masterWord w0.master) 15 = false ∧
    bit ((bck []).masterWord w0.master) 15 = true ∧ (bck []).restoringKey (masterKey w0.master.toNat) = false ∧
    (bck []).entryMatches 0 (w0.addr.toNat / 64) w0.tenant = true ∧ (bck []).entryFailed 0 = false ∧ bit ((bck []).reg 0x3200 7) 11 = false ∧
    bit ((bck []).reg 0x3200 5) (fld ((bck []).masterWord w0.master) 3 0) = true ∧ bit ((bck []).reg 0x3200 7) 14 = false ∧
    bit (((bck []).setReg 0x3200 6 0).reg 0x3200 6) (fld ((bck []).masterWord w0.master) 3 0) = false := by decide +kernel

theorem test_met_no_entry : ∀ e, e < 512 → (b1.setReg 0x3400 2 0x8000).entryMatches e (w0.addr.toNat / 64) w0.tenant = false := by decide +kernel

/-- A mailbox record, a beat in the FIFO, and an outstanding request. -/
def rec0 : MboxRec := { cause := 1, master := 1, tile := 0, tenant := 0, addr := 0, tag := 0, frame := 0 }
def onw (op : Op) : Onward := { txid := 3, op := op, lines := 1, tag := 2, tenant := 0, master := 1, addr := 0, epoch := 0, home := 0, reserved := 1 }

theorem test_met_responses :
    ((bpt { mbox := [rec0] }).port 8).mbox = [rec0] ∧ ((bpt { fifo := [(statusBeat .ok 0 .none 0, 0)] }).port 8).mbox = [] ∧
    ((bpt { pull := true }).port 8).pull = true ∧ ((bpt { pull := true }).port 8).fifo = [] ∧ ((bpt { onward := [onw .read] }).port 8).onward = [onw .read] ∧
    (onw .writeAck).dropped = false ∧ (onw .writeAck).cent = none ∧ (onw .writeAck).st = .ok ∧ (onw .read).beats = [] ∧ (onw .writePosted).share = true ∧
    ((bpt { onward := [onw .read] }).port 8).resets = [] ∧ (onw .read).lines = 1 ∧ (onw .read).reserved = 1 := by
  decide +kernel

theorem test_met_flush_end :
    let s := bpt { flush := some 1 }
    s.nextBusy 8 = false ∧ (s.port 8).flush.isSome = true ∧ (s.port 8).flushOff = false ∧ s.enabled 8 = true ∧
      ((bpt { flush := some 4, flushOff := true }).port 8).flushOff = true := by decide +kernel

theorem test_met_window : b0.cyc = 0 ∧ SMap.look b0.budget.began (0 : BitVec 8).toNat ≠ some b0.frame ∧ b0.frame % (b0.reg 0x3412 1).toNat = 0 ∧ (0 : BitVec 8).toNat ∉ b0.budget.rewind ∧ 0 < (b0.reg 0x3412 1).toNat := by decide +kernel

/-- Tenant 0 mapped to queue 5, the coherent classes of requests on. -/
def b2 : State := (b0.setReg 0x3600 0x40 0x8005).setReg 0x5000 1 0
/-- A plain read of one line. -/
def hpl : HReq := { hq .read 1 8 with coherent := false }

theorem test_met_home_queue :
    ∀ n : Fin 4,
      let r := { hpl with lines := n.val + 1 }
      b2.repair.fenced = none ∧ b2.mustWait r = false ∧ internalPort r.port = false ∧ r.coherent = false ∧ 1 ≤ r.lines ∧ isCoherent r.op = false ∧
      r.op ≠ .masterReset ∧ SMap.look b2.sched.tags (reqKey r) = none ∧ r.total = 0 ∧ r.stamped = none ∧ b2.sched.parts = [] ∧ (b2.map.home r.addr).parity = none ∧
      (b2.map.home r.addr).tile = b2.t ∧ bit (b2.tenantWord r.tenant) 15 = true ∧ fld (b2.tenantWord r.tenant) 9 0 = 5 ∧
      (∀ l ∈ b2.reqLines r, b2.ownRetired (b2.map.place l.addr) = false ∧ (b2.map.place l.addr).pc = (b2.map.place (b2.map.home r.addr).loc).pc ∧
        (b2.map.place l.addr).bank = (b2.map.place (b2.map.home r.addr).loc).bank ∧
        (b2.map.place l.addr).row = (b2.map.place (b2.map.home r.addr).loc).row) := by decide +kernel

/-- A part of one line that waits for pseudo-channel 3, and one that it has taken. -/
def pt0 (cls : Cls) : Part := {
  seq := 1, origin := .req, req := hpl, queue := 5, pc := 3, bank := 2, row := 9, lns := [⟨4, 0, 0, ⟨0, false⟩, 0⟩], write := false, cls := cls, calm := cls,
  promoted := none, age := 0, k := 0, start := 0, finish := 256, joined := 0, rel := none, pSince := none }
def brl (p : Part) : State := { b2 with sched := { parts := [p] }, store := { ready := true }, clk := { now := 4096 } }

theorem test_met_release :
    (brl (pt0 .l)).dom 4 = true ∧ (brl (pt0 .l)).pcPowered 3 = true ∧ ((brl (pt0 .l)).pc 3).retired = false ∧ (brl (pt0 .l)).seam.writes = [] ∧
    (brl (pt0 .l)).seam.recons = [] ∧ (brl (pt0 .l)).sched.parts = [pt0 .l] ∧ ((brl (pt0 .l)).q 5).rate = 0xFFFF ∧
    (let s := (brl (pt0 .l)).setQ 5 { rate := 100, level := 16 }; (16 : Int) * 1 ≤ (s.q 5).level) ∧
    (let s := (brl (pt0 .l)).setQ 5 { rate := 100, level := 15 }; (s.q 5).rate ≠ 0xFFFF ∧ (s.q 5).level < (16 : Int) * 1) := by decide +kernel

theorem test_met_samples :
    b0.frame % b0.sched.samplePeriod.toNat = 0 ∧ b0.sched.sampledAt ≠ some b0.frame ∧
    (let p := { pt0 .bl with age := 255 }; (brl p).ageLimit p.calm < p.age ∧ atCeiling p.calm p.req.demoted p.internal = false) ∧
    (pt0 .bl).age ≤ (brl (pt0 .bl)).ageLimit .bl ∧
    (let o := { onw .read with age := 511 }
     (bpt { onward := [o] }).ageLimit o.cls < o.age ∧ atCeiling o.cls o.demoted false = false) := by decide +kernel

/-- The part taken, in a slot that grants every class. -/
def bis : State := { brl { pt0 .l with rel := some 1 } with anvil := { slotWord := 0xFF04 } }

theorem test_met_access :
    bis.pcServes 3 = true ∧ bis.refreshFirst 3 = false ∧ bis.pcStopped 3 = false ∧ bis.quench.on = false ∧ (bis.pc 3).opp = 0 ∧ bis.seam.writes = [] ∧
    bis.sched.parts = [{ pt0 .l with rel := some 1 }] ∧ bis.granted .l = true ∧ bis.mayGo { pt0 .l with rel := some 1 } = true ∧
    bis.mayStart 3 2 1 false false = true ∧ (pt0 .l).origin ∉ [Origin.pickleWalk, .pickleFix, .rebuild, .rebuildW] ∧
    (bpc { forced := [5] }).refreshFirst 3 = true ∧ (bpc { refpb := 1 }).refreshFirst 3 = true := by decide +kernel

/-- A line of a request in flight on pseudo-channel 3. -/
def fl0 (w : Bool) : Flight := {
  pc := 3, bank := 2, row := 9, write := w, origin := .req, req := { hpl with op := if w then .writeAck else .read }, ln := ⟨4, 0, 0, ⟨5, false⟩, 0⟩,
  last := true, dataEnd := 4200 }
def bfl (w : Bool) : State := { b2 with sched := { flight := [fl0 w] } }

theorem test_met_read_data :
    ((bfl false).decodeAt 3 0 []).res = .good ∧ (((bfl false).poisonLine 0).decodeAt 3 0 []).res = .poisoned ∧
    (((bfl false).poisonLine 0).decodeAt 3 0 []).err = none ∧
    ((bfl false).decodeAt 3 0 [(3, 1), (4, 2), (5, 3)]).res = .uncorrectable ∧ (bfl false).lineKind (fl0 false).ln.addr = .ordinary ∧ (fl0 false).req.port.val ≠ 28 ∧
    popCount (BitVec.ofNat 16 (((bfl false).pc 3).rowBad.getD (65536 * (fl0 false).bank + (fl0 false).row) 0 + 2 ^ (fl0 false).ln.col)) ≠
      ((bfl false).reg 0x7800 5).toNat := by decide +kernel

theorem test_met_read_corrected :
    ((bfl false).decodeAt 3 0 [(3, 0x55)]).res = .corrected ∧ ((bfl false).decodeAt 3 0 [(3, 0x55)]).err = some 7 ∧
    ((bfl false).pc 3).laneCnt.getD (posLane 7) 0 + 1 ≠ ((bfl false).reg 0x4800 5).toNat ∧ (bfl false).seam.fixQueue = [] ∧
    (bfl false).seam.fixQueue.length < 64 := by decide +kernel

theorem test_met_write_data :
    (bfl true).sched.flight = [fl0 true] ∧ (fl0 true).req.op = .writeAck ∧
    (let z := { bfl true with sched := { (bfl true).sched with flight := [] } }; z.busyReq (fl0 true).req = false) ∧ (bfl true).sched.wfail = [] ∧
    (bfl true).sched.wpart = [] ∧ (fl0 true).ln.addr % 64 = 0 ∧ (bfl false).lineKind 0 = .ordinary ∧ ((bfl false).pc 3).noData = none := by decide +kernel

/-- A Pickle pass under way, with the one step due on pseudo-channel 3. -/
def bpk : State := (atFrame 10 { b0 with seam := { interval := 10, passOn := true } }).setReg 0x4800 2 0x8000

theorem test_met_pickle :
    bpk.seam.interval ≠ 0 ∧ (bpk.pc 3).pkStep < (bpk.frame - bpk.seam.stepBase.toNat) / bpk.seam.interval ∧ bpk.seam.passOn = true ∧
    bit (bpk.reg 0x4800 2) 15 = true ∧ (bpk.pc 3).pkDone = false ∧ (bpk.pc 3).retired = false ∧ bpk.sched.parts = [] ∧ (bpk.pc 3).rbanks = [] ∧
    (bpk.pc 3).pkPos < bpk.walkEnd ∧
    (let p := { pt0 .bh with origin := .pickleWalk }
     ({ bpk with sched := { parts := [p] } } : State).sched.parts = [p] ∧ p.pc = 3 ∧ p.origin = .pickleWalk) ∧
    (let s := (List.range 64).foldl (fun (z : State) c => z.setPc c { z.pc c with pkDone := true }) bpk
     s.seam.passOn = true ∧ s.dom 1 = true ∧ s.dom 10 = true ∧ ∀ c, c < 64 → (s.pc c).retired = true ∨ (s.pc c).pkDone = true) := by decide +kernel

/-- A tile of eight whose Seam part is one unit. -/
def bse : State := { b0 with phy := { b0.phy with cap := 2 ^ 32 } }.setReg 0x2000 3 1
/-- The data line of this tile in the first row, whose parity tile is tile 7. -/
def seamLine : Nat := 2 ^ 32 - 2 ^ 28
/-- A row of which every line stands rebuilt here for tile 1, and one that is at work. -/
def sjob (resync : Bool) (done : Nat) : SeamJob := { row := 0, resync := resync, fed := true, todo := 1, done := done }

theorem test_met_seam_update :
    (let s := { bse with seam := { switched := [(0, 1, 1)] } }
     (s.rebuiltAt { su0 with line := seamLine }.line).isSome = true ∧ s.seam.writes = [] ∧ s.sched.parts = [] ∧ su0.no ≠ 0) ∧
    (let s := { bse with seam := { job := some (sjob false 0) } }
     s.rebuiltAt seamLine = none ∧ s.ownRetired (s.map.place seamLine) = false ∧ s.inRebuild seamLine = true) ∧
    (bse.rebuiltAt seamLine = none ∧ bse.ownRetired (bse.map.place seamLine) = false ∧ bse.inRebuild seamLine = false ∧ bse.dom 11 = true) ∧
    (let s := { bse with repair := { bse.repair with stackRetired := true } }; s.ownRetired (s.map.place seamLine) = true) := by decide +kernel

/-- A Seam write of one line, at its home or at the parity tile, and the reads and writes of it in flight. -/
def sw0 (kind : SeamKind) : SeamWr := { no := 4, line := 0, kind := kind, o := .req, req := { hpl with op := .writeAck }, idx := 0, new := ⟨5, false⟩ }
def bsw (w : SeamWr) (f : List Flight) : State := { b0 with seam := { writes := [w] }, sched := { flight := f } }
/-- The parity line's read, and its write. -/
def fls (w : Bool) : Flight := { fl0 w with origin := if w then .seamNew 4 else .seamOld 4 }

theorem test_met_parity_line :
    (let s := bsw (sw0 (.parity su0)) [fls false]
     s.sched.flight = [fls false] ∧ (fls false).pc = 3 ∧ (fls false).write = false ∧ (fls false).origin = .seamOld (sw0 (.parity su0)).no ∧
      2 < s.n ∧ s.seam.writes = [sw0 (.parity su0)] ∧ (sw0 (.parity su0)).line = (fls false).ln.addr ∧ su0.whole = none ∧ (s.decodeAt 3 0 []).res = .good ∧
      (s.decodeAt 3 0 [(3, 1), (4, 2), (5, 3)]).res = .uncorrectable ∧
      popCount (BitVec.ofNat 16 ((s.pc 3).rowBad.getD (65536 * (fls false).bank + (fls false).row) 0 + 2 ^ (fls false).ln.col)) ≠ (s.reg 0x7800 5).toNat) ∧
    (let w := { sw0 (.parity su0) with par := some ⟨1, .uncorrectable⟩, started := true }
     w.par = some ⟨1, .uncorrectable⟩ ∧ w.old = none ∧ w.again = none ∧ (bsw w [fls false]).seam.recons = []) ∧
    (let w := { sw0 (.parity su0) with acked := true }
     let s := bsw w [fls true]
     s.sched.flight = [fls true] ∧ (fls true).write = true ∧ (fls true).origin = .seamNew w.no ∧ s.seam.writes = [w] ∧ w.line = (fls true).ln.addr ∧
      w.acked = true ∧ su0.no ≠ 0 ∧ (fls true).ln.addr % 64 = 0) := by decide +kernel

theorem test_met_seam_ack :
    (let w := sw0 .data
     (bsw w []).seam.writes = [w] ∧ w.kind = .data ∧ w.acked = false ∧ w.failed = false ∧ w.written = false) ∧
    (let w := { sw0 .data with written := true }
     let s := bsw w []
     s.seam.writes = [w] ∧ w.kind = .data ∧ w.acked = false ∧ w.failed = false ∧ w.o = .req ∧ w.req.op = .writeAck ∧ w.again = none ∧ s.sched.parts = [] ∧
      s.sched.wfail = [] ∧ s.sched.wpart = [] ∧ (let z := { s with seam := { s.seam with writes := [] } }; z.busyReq w.req = false)) := by decide +kernel

theorem test_met_seam_layout :
    bse.map.seam = 2 ^ 28 ∧ bse.lineKind seamLine = .data ∧ bse.rowAddr 0 % 64 = 0 ∧ 0 < bse.rows := by decide +kernel

/-- A line that waits for the other members of its row. -/
def rc (o : Origin) (own : Member) : Recon := { no := 2, line := seamLine, o := o, req := hpl, idx := 0, own := some own }

theorem test_met_reconstruct :
    (let x := rc .req ⟨0, .uncorrectable⟩
     let s := { bse with seam := { recons := [x] } }
     s.n ≠ 2 ∧ s.lineKind x.line = .data ∧ s.dom 1 = true ∧ s.seam.recons = [x] ∧ x.o = .req ∧ x.own.isSome = true ∧ s.seam.writes = [] ∧ x.stale = false ∧
      s.seam.readOnly = false ∧ s.ownRetired (s.map.place x.line) = false ∧ (∀ m ∈ List.replicate 7 (⟨9, .good⟩ : Member), m.res = .good ∨ m.res = .corrected) ∧
      (⟨0, .uncorrectable⟩ : Member).res = .uncorrectable) ∧
    (∀ resync : Bool,
      let x := rc .rebuild ⟨5, .good⟩
      let s := { bse with seam := { recons := [x], job := some (sjob resync 0) } }
      s.seam.recons = [x] ∧ x.o = .rebuild ∧ x.own = some ⟨5, .good⟩ ∧ s.seam.job = some (sjob resync 0) ∧ s.seam.taking = [] ∧ s.seam.writes = []) := by
  decide +kernel

/-- Of the rows of which tile 0 of eight is the parity tile, numbers 7, 15, 23 and so on, those from the k-th on stand rebuilt for tile 1. -/
def sws (k : Nat) : List (Nat × Nat × Nat) := ((List.range 8192).filter (fun i => decide (k ≤ i))).map (fun i => (8 * i + 7, 1, 2 ^ 64 - 1))
/-- The same tile once tile 1's stack is lost, with those rows switched. -/
def blo (k : Nat) (job : Option SeamJob) : State := { bse with seam := { lost := 2, rebuild := [1], job := job, switched := sws k } }

theorem blo_ord (k : Nat) (job : Option SeamJob) : (blo k job).map.ord = seamLine := rfl

theorem blo_rebuilt (k i b : Nat) (job : Option SeamJob) (hb : b < 64) (hi : i < 65536) :
    ((blo k job).rebuiltAt ((blo k job).rowAddr i + 64 * b)).isSome = true ↔ i % 8 = 7 ∧ 8 * k + 7 ≤ i := by
  have e1 : (blo k job).rowOf ((blo k job).rowAddr i + 64 * b) = i := by simp only [State.rowOf, State.rowAddr]; omega
  have e2 : (blo k job).lineBit ((blo k job).rowAddr i + 64 * b) = b := by simp only [State.lineBit, State.rowAddr]; omega
  have e3 : ¬ (blo k job).rowAddr i + 64 * b < (blo k job).map.ord := by simp only [State.rowAddr]; omega
  have hs : (blo k job).seam.switched = sws k := by simp only [blo]
  simp only [State.rebuiltAt, e1, e2, if_neg e3, Option.isSome_map, List.find?_isSome, hs, sws, List.mem_map, List.mem_filter, List.mem_range,
    decide_eq_true_eq, Bool.and_eq_true, beq_iff_eq]
  constructor
  · rintro ⟨x, ⟨j, hj, hx⟩, h, -⟩
    have h1 := congrArg Prod.fst hx
    have h2 : 8 * j + 7 = x.1 := h1
    omega
  · intro h
    refine ⟨(8 * (i / 8) + 7, 1, 2 ^ 64 - 1), ⟨i / 8, by omega, rfl⟩, (by omega : 8 * (i / 8) + 7 = i), ?_⟩
    rw [Nat.testBit_two_pow_sub_one]
    exact decide_eq_true hb

theorem blo_gone (k u l : Nat) (job : Option SeamJob) : (blo k job).goneAt u l = bit (2 : BitVec 8) u := by
  have h : (blo k job).retiredAt u l = false := by
    simp only [State.retiredAt]
    split
    · rfl
    · rfl
  have h1 : (blo k job).seam.lost = 2 := rfl
  have h2 : (blo k job).tookBack u l = false := rfl
  simp only [State.goneAt, h, State.lostAt, h1, h2, Bool.false_or, Bool.not_false, Bool.and_true]

theorem blo_stands (k i : Nat) (job : Option SeamJob) (hi : i < 65536) :
    (blo k job).rowLeft i = if i % 8 = 7 ∧ i < 8 * k + 7 then 2 ^ 64 - 1 else 0 := by
  have hp : (blo k job).map.parityOf i = 7 - i % 8 := rfl
  have ht : (blo k job).t = 0 := rfl
  have hn : (blo k job).n = 8 := rfl
  simp only [State.rowLeft, hp, ht, hn]
  by_cases h : i % 8 = 7
  · have hl : ∀ b ∈ List.range 64, ((blo k job).lostMember ((blo k job).rowAddr i + 64 * b)).isSome = true := by
      intro b hb
      have hb := List.mem_range.mp hb
      have e1 : (blo k job).rowOf ((blo k job).rowAddr i + 64 * b) = i := by simp only [State.rowOf, State.rowAddr]; omega
      simp only [State.lostMember, List.find?_isSome, List.mem_range]
      refine ⟨1, by rw [hn]; decide, ?_⟩
      simp only [blo_gone, State.parityTile, e1, hp, h, ht, hn]
      decide
    rw [if_neg (by omega)]
    simp only [State.rowMask]
    by_cases hk : i < 8 * k + 7
    · rw [if_pos ⟨h, hk⟩, List.filter_eq_self.mpr]
      · decide +kernel
      · intro b hb
        have := (blo_rebuilt k i b job (List.mem_range.mp hb) hi).not.mpr (by omega)
        simp only [hl b hb, blo_gone, Option.not_isSome_iff_eq_none.mp this]
        decide
    · rw [if_neg (by omega), List.filter_eq_nil_iff.mpr]
      · rfl
      · intro b hb
        have := (blo_rebuilt k i b job (List.mem_range.mp hb) hi).mpr ⟨h, by omega⟩
        cases hr : (blo k job).rebuiltAt ((blo k job).rowAddr i + 64 * b) with
        | none => rw [hr] at this; cases this
        | some x => simp
  · rw [if_pos (by omega), if_neg (by omega)]

theorem blo_lost (k b : Nat) (job : Option SeamJob) (hb : b < 64) : (blo k job).lostMember ((blo k job).rowAddr 7 + 64 * b) = some 1 := by
  have e1 : (blo k job).rowOf ((blo k job).rowAddr 7 + 64 * b) = 7 := by simp only [State.rowOf, State.rowAddr]; omega
  have hp : (blo k job).map.parityOf 7 = 0 := rfl
  have ht : (blo k job).t = 0 := rfl
  have hn : (blo k job).n = 8 := rfl
  simp only [State.lostMember, blo_gone, State.parityTile, e1, hp, ht, hn]
  decide

theorem test_met_rebuild :
    (let j : SeamJob := ⟨7, false, true, 2 ^ 64 - 1, 0, []⟩
     let s := blo 1 (some j)
     s.seam.job = some j ∧ j.resync = false ∧ j.fed = true ∧ j.row < s.rows ∧ 2 < s.n ∧
      (∃ k, (k < 64 ∧ j.todo.testBit k = true ∧ s.jobFor j (s.rowAddr j.row + 64 * k) = some 1) ∧ j.done.testBit k = false) ∧ s.rebuilding = true ∧
      s.dom 1 = true) ∧
    (let j : SeamJob := ⟨7, false, true, 2 ^ 64 - 1, 2 ^ 64 - 1, []⟩
     let s := blo 1 (some j)
     s.seam.job = some j ∧ (∀ k, k < 64 → j.done.testBit k = true) ∧ (∀ k, k < 64 → s.jobFor j (s.rowAddr j.row + 64 * k) = some 1) ∧
      j.todo = s.rowLeft j.row ∧ (∀ i, i < s.rows → i ≠ j.row → s.standsFor i = false) ∧
      s.seam.updates = [] ∧ s.ha.held = [] ∧ s.standsFor j.row = true) ∧
    (let s := blo 0 none
     s.rebuilding = true ∧ s.dom 1 = true ∧ s.seam.job = none ∧ ∀ i, i < s.rows → s.standsFor i = false) := by
  have hr : ∀ k job, (blo k job).rows = 65536 := fun k job => by
    have : (blo k job).map.seam = 2 ^ 28 := rfl
    rw [State.rows, this]; decide
  refine ⟨⟨rfl, rfl, rfl, by rw [hr]; decide, by show 2 < 8; decide, ⟨0, ⟨by decide, by decide, blo_lost _ _ _ (by decide)⟩, by decide⟩, rfl, rfl⟩,
    ⟨rfl, by decide, fun k hk => blo_lost _ _ _ hk, ?_, fun i hi hne => ?_, rfl, rfl, ?_⟩,
    ⟨rfl, rfl, rfl, fun i hi => ?_⟩⟩
  · rw [blo_stands _ _ _ (by decide)]; rfl
  · rw [hr] at hi
    rw [State.standsFor, blo_stands _ _ _ hi, if_neg (by simp only at hne; omega)]; rfl
  · rw [State.standsFor, blo_stands _ _ _ (by decide)]; rfl
  · rw [hr] at hi
    rw [State.standsFor, blo_stands _ _ _ hi, if_neg (by omega)]; rfl

/-- Row 7 of tile 0 with the lines of one bank gone at tile 1 and those of the next at tile 2. -/
def twoLost (done : Nat) : State :=
  let s := { bse with repair := { others := [(1, 0, 7, 0), (2, 0, 7, 1)] } }
  { s with seam := { s.seam with job := some ⟨7, false, true, s.rowLeft 7, done, []⟩ } }

theorem test_met_row_of_two :
    let s := twoLost (2 ^ 64 - 1)
    let j : SeamJob := ⟨7, false, true, s.rowLeft 7, 2 ^ 64 - 1, []⟩
    (∃ k, k < 64 ∧ (s.rowLeft 7).testBit k = true ∧ s.jobFor j (s.rowAddr 7 + 64 * k) = some 1) ∧
    (∃ k, k < 64 ∧ (s.rowLeft 7).testBit k = true ∧ s.jobFor j (s.rowAddr 7 + 64 * k) = some 2) ∧
    s.seam.job = some ⟨7, false, true, s.rowLeft 7, 2 ^ 64 - 1, []⟩ ∧ s.seam.updates = [] ∧ s.ha.held = [] ∧ 7 < s.rows ∧ 2 < s.n :=
  ⟨⟨0, by decide +kernel⟩, ⟨4, by decide +kernel⟩, rfl, rfl, rfl, by decide +kernel, by decide +kernel⟩

theorem test_met_resync :
    let s := { bse with seam := { resyncing := true, listed := [0] } }
    s.seam.resyncing = true ∧ s.seam.taking = [] ∧ s.dom 1 = true ∧ (∀ j ∈ s.awaited, j ∈ [0] ∧ s.resyncMine j = false) ∧
      (∃ j ∈ s.awaited, j ∉ ([] : List Nat)) := by decide +kernel

/-- An entry of the snoop filter, and a home that holds one for line 0. -/
def en (k : OwnKind) (o : Nat) (p : BitVec 48) : Entry := { present := p, kind := k, owner := o, cur := false, doubt := .none, used := 0 }
def bho (e : Entry) : State := { b2 with ha := { filter := [(0, e)] } }

/-- A tile whose whole address space is coherent for master 1, as access entry 0 has it. -/
def coh (s : State) : State :=
  ((((s.setReg 0x3400 2 0xE000).setReg 0x3200 3 0xFFFF).setReg 0x3200 5 0xFFFF).setReg 0x3200 6 0xFFFF).setReg 0x3200 7 0xA000

theorem test_met_home_orders :
    b2.repair.fenced = none ∧ b2.mustWait (hq .rdShared 1 20) = false ∧ internalPort (hq .rdShared 1 20).port = false ∧ b2.waysUsed 0 < 16 ∧
    b2.ha.txns = [] ∧ b2.ha.plain = [] ∧ b2.ha.plainWait = [] ∧ b2.ha.resv = [] ∧ b2.ha.work = [] ∧ b2.ha.healing = false ∧
    b2.ha.classify = false ∧ b2.ha.dead = 0 ∧ b2.sched.parts = [] ∧ (coh b2).stillCoherent (hq .upgrade 1 20) = true ∧ (hq .rdShared 1 20).coherent = true ∧ (hq .rdShared 1 20).addr % 64 = 0 ∧ (b2.map.home 0).parity = none ∧
    (b2.map.home 0).tile = b2.t ∧ b2.ownRetired (b2.map.place (b2.map.home 0).loc) = false ∧
    bit (b2.tenantWord 0) 15 = true ∧ bit (b2.reg 0x5000 1) 14 = false ∧ b2.entry 0 = none ∧ (hq .rdShared 1 20).agent = 6 ∧
    (bho (en .none 0 (setBit 0 6 true))).entry 0 = some (en .none 0 (setBit 0 6 true)) ∧ 12 ≠ (hq .rdShared 1 20).agent ∧ 12 / 6 ≠ b2.t ∧
    (bho (en .x 12 (setBit 0 12 true))).entry 0 = some (en .x 12 (setBit 0 12 true)) := by decide +kernel

/-- Without some domains. -/
def without (d : Nat) (s : State) : State := { s with pd := { s.pd with status := setBit s.pd.status d false } }

theorem test_met_held :
    b2.repair.fenced = none ∧ (without 4 b2).dom 4 = false ∧ (without 5 b2).dom 4 = true ∧ (without 5 b2).dom 5 = false ∧ (without 11 b2).dom 11 = false ∧
    ((hq .rdShared 1 20).lineList.any ({ b2 with ha := { work := [(0, .forget)] } } : State).forgetting = true) ∧
    (let s := { bse with ident := { n := 8, t := 7 }, seam := { lost := 1, standFrom := 1 } }
     ({ hpl with addr := s.map.seamBase } : HReq).lineList.any s.standsLater = true) ∧
    (let s := { bse with ident := { n := 8, t := 7 }, seam := { lost := 1, job := some { sjob false 0 with todo := 2 ^ 64 - 1 } } }
     isWrite (hq .writeAck 1 8).op = true ∧ ({ hq .writeAck 1 8 with addr := s.map.seamBase } : HReq).lineList.any s.rebuildingLine = true ∧
       ({ hq .writeAck 1 8 with addr := s.map.seamBase } : HReq).lineList.any s.map.inSeam = true) ∧
    (hq .rdShared 1 20).coherent = true ∧ hpl.coherent = false ∧
    (hpl.lineList.any ({ b2 with ha := { work := [(0, .recall)] } } : State).recalling = true) ∧
    (let s := { b2 with ha := { held := [hpl] } }; ∃ x ∈ s.ha.held, ∃ l ∈ x.lineList, l ∈ (hq .rdShared 1 20).lineList) ∧
    ({ b2 with repair := { b2.repair with fenced := some .clock } } : State).repair.fenced.isSome = true := by decide +kernel

/-- A RD_SHARED of agent 6 under way at line 0: waiting for agent 12, or for the stack. -/
def tx0 (busy : Busy) (wait : List Nat) : Txn := {
  id := 0, no := 3, line := 0, kind := .rdShared, idx := 0, okind := .x, sup := if wait = [] then none else some 12, req := some (hq .rdShared 1 20), busy := busy,
  wait := wait, owner := some 12, stackDue := wait.isEmpty, stack := none, corr := false, fwd := none, dropped := none, bad := false, cur := false,
  grant := .dataE, next := none }
def btx (x : Txn) (f : SMap Entry) : State := { b2 with ha := { filter := f, txns := [x] } }
def bsn : State := btx (tx0 .snp [12]) [(0, en .x 12 (setBit 0 12 true))]

theorem test_met_busy_line :
    bsn.lineBusy 0 = true ∧ bsn.repair.fenced = none ∧ bsn.mustWait (hq .rdShared 1 20) = false ∧ (hq .rdShared 1 20).line = 0 ∧ (hq .rdShared 1 20).rage < 7 ∧
    ({ hq .rdShared 1 20 with rage := 6 } : HReq).rage < 7 := by decide +kernel

/-- A snoop that waits for agent 0 of this tile. -/
def sn0 : SnoopSt := { s := { agent := 0, ty := .down, fwd := true, home := 1, txn := 2, req := 7, line := 64 }, shown := none }

theorem test_met_snoops :
    sn0.s.agent = 6 * b2.t + 0 ∧ sn0.shown = none ∧ b2.answerHeld 20 sn0.s.line sn0.after = false ∧
    (b2.setPort 20 { onward := [onw .rdShared] }).answerHeld 20 64 (some 3) = true ∧ b2.snoops = [] ∧ (b2.port 20).fifo = [] ∧ (b2.port 20).onward = [] ∧
    sm0.home ≠ b2.t ∧ sm0.home < b2.n ∧ sm0.txn < 256 ∧ sm0.targets = [6 * b2.t + 0] ∧
    16 ≤ ({ b2 with snoops := List.replicate 16 { sn0 with shown := some 0 } } : State).unanswered (6 * b2.t + 0) := by decide +kernel

theorem test_met_answers :
    (let s := btx (tx0 .snp [12, 13]) [(0, en .x 12 (setBit (setBit 0 12 true) 13 true))]
     s.snoops = [] ∧ (⟨0, 0⟩ : SnpName).home.val = s.t ∧ s.ha.txns = [tx0 .snp [12, 13]] ∧ (tx0 .snp [12, 13]).id = (⟨0, 0⟩ : SnpName).txn.toNat ∧
      s.entry 0 = some (en .x 12 (setBit (setBit 0 12 true) 13 true)) ∧ bit (setBit (setBit (0 : BitVec 48) 12 true) 13 true) 13 = true) ∧
    (coh bsn).stillCoherent (hq .rdShared 1 20) = true ∧ (coh bsn).ha.txns = bsn.ha.txns ∧ bsn.ha.plain = [] ∧ bsn.ha.plainWait = [] ∧ bsn.ha.resv = [] ∧ bsn.ha.work = [] ∧ bsn.ha.held = [] ∧ bsn.lostLine 0 = none ∧
    (tx0 .snp [12]).sup = some 12 ∧ (tx0 .snp [12]).stackDue = false ∧ (bsn.map.home 0).tile = bsn.t ∧
    bsn.lineKind (bsn.map.home 0).loc = .ordinary ∧ bsn.ownRetired (bsn.map.place (bsn.map.home 0).loc) = false ∧ bit (bsn.tenantWord 0) 15 = true ∧
    (hq .rdShared 1 20).addr = (tx0 .snp [12]).line ∧ (hq .rdShared 1 20).agent < 48 ∧ (hq .rdShared 1 20).agent ≠ 12 ∧
    SMap.look bsn.log.seen (limKey 0x0A03 12) = none ∧ bsn.dom 1 = true := by decide +kernel

theorem test_met_home_stack :
    (let s := btx (tx0 .mem []) []
     s.ha.held = [] ∧ s.ha.txns = [tx0 .mem []] ∧ (tx0 .mem []).stackDue = true ∧ s.entry 0 = none ∧ (tx0 .mem []).busy = .mem ∧
      (coh s).stillCoherent (hq .rdShared 1 20) = true ∧ s.homeWorking (.homeRead (tx0 .mem []).no) = false ∧ s.lostLine 0 = none) ∧
    ({ tx0 .snp [12] with stackDue := true }).busy = .snp ∧
    (let x := { tx0 .wb [] with kind := .wrBack, stackDue := false }
     let p := { pt0 .l with origin := .homeWrite 3, write := true }
     x.busy = .wb ∧ x.kind = .wrBack ∧ isCoherent (hq .rdShared 1 20).op = true ∧ x.next = none ∧ (btx x []).ha.held = [] ∧ (btx x []).ha.txns = [x] ∧
      (btx x []).homeWorking (.homeWrite x.no) = false ∧ ({ btx x [] with sched := { parts := [p] } } : State).homeWorking (.homeWrite x.no) = true) := by
  decide +kernel

theorem test_met_limits :
    (let s := { b2 with snoops := [{ sn0 with shown := some 0 }], clk := { now := (b2.reg 0x5000 2).toNat * 1024 } }
     0 + (s.reg 0x5000 2).toNat * 1024 ≤ s.clk.now ∧ (s.port 20).flush = none ∧ s.dom 1 = true) ∧
    b2.clk.now < 0 + (b2.reg 0x5000 2).toNat * 1024 ∧
    (let s := atFrame 255 { b2 with ha := { resv := [⟨3, 64, some 0⟩] } }
     s.lineBusy 64 = false ∧ (0 : BitVec 64).toNat + (s.reg 0x5000 3).toNat ≤ s.frame ∧ SMap.look s.log.seen (limKey 0x0A04 3) = none ∧
      (∀ v ∈ s.ha.resv, v.agent = 3 → ∀ w ∈ s.ha.resv, w.line = v.line → w = v)) ∧
    b2.frame < (0 : BitVec 64).toNat + (b2.reg 0x5000 3).toNat := by decide +kernel

theorem test_met_reclaim :
    (let s := { bho (en .x 6 (setBit 0 6 true)) with ha := { (bho (en .x 6 (setBit 0 6 true))).ha with dead := setBit 0 6 true } }
     s.ha.filter = [(0, en .x 6 (setBit 0 6 true))] ∧ s.ha.deadLost = [] ∧ bit (en .x 6 (setBit 0 6 true)).present 6 = true ∧ (s.map.home 0).parity = none) ∧
    (let e := en .x 7 (setBit (setBit 0 6 true) 7 true)
     e.owner ≠ 6 ∧ (∃ b, b < 48 ∧ b ≠ 6 ∧ bit e.present b = true)) ∧
    (b2.map.home 0).tile = b2.t ∧ b2.lineKind (b2.map.home 0).loc = .ordinary ∧ b2.ownRetired (b2.map.place (b2.map.home 0).loc) = false ∧
    (let s := { bse with ha := { lostRecall := some 3, lostPos := bse.map.seam / 64 } }
     s.ha.lostRecall = some 3 ∧ s.map.seam / 64 ≤ s.ha.lostPos ∧ (∀ w ∈ s.ha.work, w.2 ≠ .lostHome) ∧
      (∀ x ∈ s.ha.txns, x.kind = .lostHome → x.req.isSome = true)) ∧
    (let s := { bse with ha := { lostRecall := some 3 } }; s.ha.lostPos < s.map.seam / 64) := by decide +kernel

/-- A split under way, with one line owned across it, and one in doubt dirty. -/
def bsp (e : Entry) : State := {
  b2 with ha := { filter := [(0, e)], classify := true, holdFrom := some 0 }, repair := { b2.repair with split := some 0, arc := 1 } }

theorem test_met_split :
    (∀ x ∈ (bsp (en .x 6 (setBit 0 6 true))).ha.filter, x.2.present ≠ 0) ∧ (bsp (en .x 6 (setBit 0 6 true))).ha.classify = true ∧
    (let s := atFrame (65536 * 60000) (bsp { en .x 6 (setBit 0 6 true) with doubt := .dirty })
     (0 : BitVec 64).toNat + 65536 * (s.reg 0x5000 4).toNat ≤ s.frame ∧ (s.map.home 0).parity = none ∧ s.repair.split.isSome = true ∧ s.ha.expired = false ∧
      (∀ a, a < 48 → bit (setBit (0 : BitVec 48) 6 true) a = true → s.reach a = false) ∧ s.ha.work = [] ∧ s.ha.txns = [] ∧
      (s.map.home 0).tile = s.t ∧ s.lineKind (s.map.home 0).loc = .ordinary ∧ s.ownRetired (s.map.place (s.map.home 0).loc) = false ∧
      setBit (0 : BitVec 48) 6 true ≠ 0) ∧
    (let s := { b2 with ha := { healing := true } }; s.ha.healing = true ∧ s.ha.filter = [] ∧ s.ha.txns = []) := by decide +kernel

/-- Line 64 in a state at agent 0. -/
def bag (st : CState) : State := { b2 with agents := [(agentKey 0 64, { st := st, data := 7, rage := 3, back := true })] }

theorem test_met_agents :
    (bag .e).agentLine 0 64 = ⟨.e, 7, 3, true⟩ ∧ ((bag .e).agentLine 1 64).st = .i ∧ (bag .smA).agentLine 0 64 = ⟨.smA, 7, 3, true⟩ ∧
    (CState.m, SnpType.drop, false) ∈ snoopRows.map (fun r => (r.1, r.2.1, r.2.2.1)) ∧ responseRows ≠ [] ∧
    responseRows.all (fun r => r.1 != .i) = true := by decide +kernel

/-- A cipher descriptor of a whole stream of one line in CTR mode, with slot 7. -/
def ds0 : CDesc := {
  cv := true, first := true, last := true, stream := 2, mode := 4, dir := true, slot := 7, du := 0, len := 64, iv := 9, tag := 0, resv := 0 }
/-- A read of a cipher region that waits alone at port 8. -/
def qcr (d : CDesc) : QReq := { op := .read, w := { w0 with desc := some d } }
def bci (d : CDesc) : State := ((bck [qcr d]).setReg 0x3200 7 0xC000).setSlot 7 { st := 1, kind := 3 }

theorem test_met_cipher :
    let s := bci ds0
    s.portsUp = true ∧ (s.port 8).queue = [qcr ds0] ∧ s.check 8 .read (qcr ds0).w = .pass true false ∧ s.checkHeld = false ∧ s.underCap 1 = true ∧
      s.store.initing = false ∧ s.room 8 (qcr ds0).w.count = true ∧ s.here .read false (qcr ds0).w.byteAddr (qcr ds0).w.count = none ∧
      s.hasShare (s.serves (qcr ds0).w.byteAddr (qcr ds0).w.count) = true ∧ (∀ x ∈ s.ports, ∀ q ∈ x.2.queue, q.adm = none) ∧ s.canAdmit ds0 = true ∧
      s.freeEntry = some 0 ∧ (s.port 8).flush = none ∧ s.inLanes 8 (qcr ds0).w = false ∧ ds0.slot.toNat ∉ s.cipher.badSlots ∧ s.dom 1 = true ∧ (s.slot 7).st = 1 ∧ (s.slot 7).kind = modeKind (modeOf ds0.mode) ∧
      (let z := (bci { ds0 with last := false }).setSlot 7 {}; (z.slot 7).st = 0 ∧ z.canAdmit { ds0 with last := false } = true) := by decide +kernel

/-- An open stream of one line of port 8, with its line at the lanes. -/
def ln0 : CLn := { idx := 0, txid := 3, d := ⟨55, false⟩ }
def ce0 : CEnt := {
  port := 8, stream := 2, mode := .ctr, dir := true, slot := 7, du := 0, len := 64, addr := 0, iv := 9, tag := 0, next := 1, master := 1, tenant := 0,
  failed := none, poisoned := false, lns := [ln0], segs := [⟨0, 1, 3, some 0, none⟩], lastFrame := 0, hold := 0, lastTx := some 3 }
def bce (e : CEnt) : State := { bpt { onward := [onw .read] } with cipher := { ents := [(0, e)] } }

/-- The worked lengths of the cipher chapter: 4116 bytes in units of 4096 steal in line 64 alone, 520 bytes in one unit in lines 7 and 8. -/
theorem test_stolen_lines :
    (let e := { ce0 with mode := .xts256, du := 3, len := 4116 }; e.stolen 63 = false ∧ e.stolen 64 = true) ∧
    (let e := { ce0 with mode := .xts128, du := 1, len := 520 }; e.stolen 6 = false ∧ e.stolen 7 = true ∧ e.stolen 8 = true) := by decide +kernel

theorem test_met_segment :
    SMap.look (bce ce0).cipher.ents 0 = some ce0 ∧ ((bce ce0).port 8).onward = [onw .read] ∧ (onw .read).lines = 1 ∧ (onw .read).reserved = 1 ∧
    (bce ce0).pairOn 0 = true ∧ (bce ce0).pairOn 24 = true ∧ satAdd16 ((bce ce0).cipher.miss.getD 0 0) 1 < ((bce ce0).reg 0x6400 2).toNat ∧
    (bce ce0).cipher.ents = [(0, ce0)] ∧ (bce ce0).cipher.badSlots.contains ce0.slot = false ∧ ((bce ce0).port 8).resets = [] ∧
    (bce ce0).pairFree 24 = true ∧ (let e := { ce0 with segs := [⟨0, 1, 3, none, none⟩] }; (bce e).pairFree 0 = true ∧ (bce e).pairFree 24 = true) ∧
    ln0.computed = false ∧ ln0.released = false ∧ 1 ≤ ce0.len ∧ ({ ce0 with len := 1 } : CEnt).len ≤ 64 := by decide +kernel

theorem test_met_stream :
    let e := { ce0 with lns := [], segs := [] }
    (bce e).stream 8 2 = some (0, e) ∧ (bce e).frame < e.lastFrame.toNat + ((bce e).reg 0x6400 6).toNat ∧
      e.lastFrame.toNat + ((bce e).reg 0x6400 6).toNat ≤ (atFrame 65535 (bce e)).frame ∧ ({ e with failed := some 5 } : CEnt).failed.isSome = true := by
  decide +kernel

theorem test_met_rounds :
    (let s := { b0 with hk := { chan := 31 } }; s.hk.chan < 32) ∧
    (let s := { b0 with hk := { chan := 32, witOut := 1, samples := [(12, 5000)] } }
     s.hk.chan = 32 ∧ s.dom 1 = true ∧ s.present 12 = some 5000 ∧ s.witnessBeyond 5000 = true ∧ s.hk.witOut ≠ 0 ∧ s.hk.refFault = false) ∧
    (7 < b0.n ∧ 7 ≠ b0.t ∧ bit b0.hk.chainGot 7 = false ∧ (List.replicate 32 (0 : Word)).length = 32 ∧
      (0 : BitVec 32) ≠ chainCrc (List.replicate 32 0) 0) := by decide +kernel

/-- An Assay step on group 2 at a temperature above 105 °C. -/
def bas : State := {
  b0 with anvil := { stopped := some (2, false) }, hk := { samples := [(1, 1700)] }, dict := { applied := [(wkey 0x7102 5, 60)] } }

theorem test_met_assay :
    bas.quench.on = false ∧ bas.anvil.stopped = some (2, false) ∧ bas.frozen = false ∧ bas.groupTemp 2 = some 1700 ∧ (1680 : Int) ≤ 1700 ∧
    0 ≤ i16 (bas.reg (coefIdx 0 2) 5) ∧ i16 (bas.reg (coefIdx 0 2) 5) ≤ 127 ∧
    i16 (61 : Word) - i16 (bas.reg (coefIdx 0 2) 5) ≤ (bas.reg 0x7000 6).toNat ∧ i16 (bas.reg (coefIdx 0 2) 5) - i16 (61 : Word) ≤ (bas.reg 0x7000 6).toNat ∧
    (let s := { bas with anvil := { stopped := some (0, true) }, clk := { pt := 36 * 10 ^ 15 } }
     s.anvil.stopped = some (3 / 4, true) ∧ (s.pc 3).recov = false ∧ s.quench.on = false ∧ s.planDueAt 3 s.tickNs = true ∧ (s.reg 0x7000 8).toNat ≤ 255) := by decide +kernel

/-- A recovery under way on row 0 of bank 9 of pseudo-channel 3. -/
def rc0 (rung : Nat) : Recov := { rung := rung, u := ⟨3, 9, 0, 0⟩, cls := .row, found := 0, opened := 0, behind := false, lanes := [] }
def brc (rung : Nat) : State := { b0 with repair := { b0.repair with recov := some (rc0 rung) }, clk := { now := 5 } }

theorem test_met_anneal :
    (brc 1).repair.recov = some (rc0 1) ∧ (brc 1).dom 1 = true ∧ RungAct.fence .clock ∉ b0.repair.due ∧ (rc0 1).rung = 1 ∧ (rc0 1).u.pc / 4 = 0 ∧ (rc0 1).annealed = false ∧
    (atFrame 23 (brc 1)).frame < (rc0 1).opened.toNat + 24 ∧ (rc0 1).opened.toNat + 24 ≤ (atFrame 24 (brc 1)).frame := by decide +kernel

theorem test_met_recovery :
    (brc 2).repair.recov = some (rc0 2) ∧ (rc0 2).rung = 2 ∧ (brc 2).dom 1 = true ∧ (brc 2).repair.waiting = [] ∧ (rc0 2).spared = [] ∧ (atFrame 5 (brc 2)).frame < (rc0 2).opened.toNat + 6 ∧
    (let s := atFrame 6 (brc 2)
     let r := { rc0 2 with rows := [(9, 0)], verified := (List.range 16).map (fun k => s.map.unplace ⟨3, 9, 0, k⟩) }
     r.rows = [(9, 0)] ∧ s.rowVerified r (9, 0) = true) ∧
    (rc0 2).opened.toNat + 6 ≤ (atFrame 6 (brc 2)).frame ∧ (atFrame 6 (brc 2)).cyc ≠ 0 ∧
    (atFrame 33 (brc 2)).frame ≤ (rc0 2).found.toNat + 33 ∧ (rc0 2).u.pc < 64 := by decide +kernel

theorem test_met_quench :
    b1.quench.on = false ∧ b1.dom 1 = true ∧ b1.boot.st ≠ 4 ∧ b1.boot.st ≠ 1 ∧ b1.boot.st ≠ 0 ∧ b1.cipher.ents = [] ∧ b0.boot.st = 0 ∧ (boot 4 b0).boot.st = 4 ∧ b0.cipher.ents = [] ∧
    (let s := { b0 with quench := { on := true } }; s.quench.on = true ∧ s.quench.restart = false) ∧
    ({ b0 with quench := { on := true, coolFrom := some 0 } } : State).quench.coolFrom = some 0 ∧
    (let s := { b1 with quench := { on := true, restart := true, assayed := List.range 16 } }
     s.quench.restart = true ∧ s.boot.st = 2 ∧ s.dom 1 = true ∧ (List.replicate 16 (⟨0, 0, 0, 0⟩ : AssayMeas)).length = 16 ∧
      (∀ g, g < 16 → g ∈ s.quench.assayed) ∧ s.repair.fenced = none ∧ s.phase ≠ 4 ∧ s.repair.stackRetired = false) := by decide +kernel

theorem test_met_notices :
    (7 < b0.n ∧ 7 ≠ b0.t ∧ (7, 0, 3, 4) ∉ b0.repair.others ∧ b0.map.seam = 0 ∧ bit b0.repair.view 7 = true ∧ RungAct.foster 7 ∉ b0.repair.due ∧ 0 = b0.t ∧
      b0.dom 29 = true ∧ (without 29 b0).dom 29 = false ∧ b0.repair.anchor = b0.t ∧ b0.repair.fenced = none ∧ b0.dom 1 = true ∧
      (let s := { b0 with anvil := { hb := [(7, { got := true })] } }; SMap.look s.anvil.hb 7 = some { got := true })) ∧
    1 < b0.n ∧ b0.t < b0.n ∧ b0.brokenLinks = [] ∧ bit b0.repair.links (b0.linkAt 0) = false ∧ bit b0.repair.links (b0.linkAt 1) = false := by decide +kernel

/-- A tile of eight with links 0 and 7 broken, the split declared for frame 3; and in a split whose heal is declared for frame 3. -/
def bsl : State := { bse with repair := { bse.repair with splitAt := some 3, links := 0x81 } }
def bhl : State := { b0 with repair := { b0.repair with healAt := some 3, split := some 0 } }

theorem test_met_links :
    bit bsl.repair.links 7 = true ∧ bsl.repair.split = none ∧
    (let s := { bsl with repair := { bsl.repair with split := some 0, splitAt := none } }
     s.repair.healAt = none ∧ s.repair.anchor = s.t ∧ s.repair.split.isSome = true ∧
      (let z := { s with repair := { s.repair with links := setBit s.repair.links 7 false } }; z.brokenLinks.length ≤ 1)) ∧
    (atFrame 2 bsl).frame < (3 : BitVec 64).toNat ∧ (3 : BitVec 64).toNat ≤ (atFrame 3 bsl).frame ∧ bsl.map.seam ≠ 0 ∧ bsl.seam.writes = [] ∧
    bsl.ha.txns = [] ∧ bsl.ports = [] ∧ bsl.seam.job = none ∧ bsl.sched.parts = [] ∧ bsl.seam.resync.length ≤ 4096 ∧ bit bhl.repair.arc bhl.repair.anchor = true ∧ bhl.ha.filter = [] ∧
    (let s := { bhl with repair := { bhl.repair with arc := 0xFE } }; bit s.repair.arc s.repair.anchor = false) ∧
    bhl.ha.work = [] ∧ bhl.repair.split.isSome = true := by decide +kernel

theorem test_met_other_digest : ∃ d : BitVec 32, bhl.digest false ≠ d := by
  generalize bhl.digest false = x
  exact ⟨x + 1, by bv_omega⟩

/-- A target with a dynamic address. -/
def bad : State := { b0 with maint := { dyn := some 9 } }

theorem test_met_bus :
    bad.addressed = true ∧ bad.busOn = true ∧ (192 : Byte).toNat + (64 : Byte).toNat ≤ 256 ∧ 256 < (193 : Byte).toNat + (64 : Byte).toNat ∧
    b0.busOn = true ∧ b0.maint.dyn = none ∧ (let s := { bad with repair := { b0.repair with anchor := 1 } }; s.repair.anchor ≠ s.t ∧ s.addressed = true ∧ s.repair.split = none ∧ s.repair.leader = false) ∧
    (2 : BitVec 4).toNat = 1 + 1 ∧ bad.repair.anchor = bad.t ∧ bit bad.repair.view 1 = true ∧ bad.across 1 = false ∧
    ({ bad with maint := { dyn := some 9, ibiOn := true, ibiPending := some 0x0202, ibiNewest := some 0x0203 } } : State).busOn = true ∧
    ({ bad with maint := { dyn := some 9, reply := some none, asked := 3 } } : State).addressed = true ∧ (2 : Nat) ≠ 3 := by decide +kernel

theorem test_met_discarded :
    ([1, 0, 0, 0, 0] : List Byte).length < 6 ∧ ([1, 0, 0, 0, 0, 0xFF] : List Byte).getLast? ≠ some (crc8 [1, 0, 0, 0, 0]) ∧
    (let bs : List Byte := [3, 0, 0, 0, 1] ++ [crc8 [3, 0, 0, 0, 1]]
     bs.getLast? = some (crc8 bs.dropLast) ∧ (∀ b ∈ bs.head?, b.toNat % 16 ≠ 1 ∧ b.toNat % 16 ≠ 2)) := by decide +kernel

theorem test_met_map :
    1 ≤ bse.map.n ∧ bse.map.seam ≤ bse.map.cap ∧ bse.map.cap % 4096 = 0 ∧ 0 < bse.map.mapEnd ∧ bse.map.mapEnd - 1 < bse.map.mapEnd ∧ bse.map.order = 2 ∧ (b0.setReg 0x2000 1 1).map.order = 1 ∧
    2 ^ 36 - 64 < 2 ^ 36 ∧ (2 ^ 36 - 64) % 64 = 0 := by decide +kernel

/-! ### Examples and tables of the spec -/

/-- A command completes from a state in one that passes a check. -/
def after (c : Instr) (s : State) (p : State → Bool) : Bool := match exec c s with
  | .next t => p t
  | _ => false

/-- The first package of the address-map chapter: eight tiles, 64 GB stacks of 2^14 rows, order 2, 4 KiB interleave, 32 units. -/
def mapA : MapCfg := { n := 8, cap := 2 ^ 36, order := 2, inter := 1, units := 32, r := 14 }

/-- 02_address_map.md, the worked decodes after R52: the ordinary part. -/
theorem test_map_ordinary :
    mapA.seamBase = 0x7000000000 ∧ mapA.mapEnd = 0x7E00000000 ∧ mapA.home 0x1234567890 = { tile := 7, loc := 0x2468AC890, parity := none } ∧
    mapA.place 0x2468AC890 = { pc := 44, bank := 8, row := 9320, col := 10 } := by decide +kernel

/-- The same, the Seam part: stack ID 3 bank 0 is bank 48. -/
theorem test_map_seam :
    mapA.home 0x7000015040 = { tile := 0, loc := 0xE00003040, parity := some 4 } ∧
    mapA.place 0xE00003040 = { pc := 3, bank := 48, row := 8192, col := 1 } := by decide +kernel

/-- The third: order 3 on a three-tile package with 48 GB stacks; stack ID 2 bank 2 is bank 34. -/
theorem test_map_striped :
    ({ n := 3, cap := 3 * 2 ^ 34, order := 3, inter := 1, units := 0, r := 14 } : MapCfg).place 0x740001234 = { pc := 37, bank := 34, row := 0, col := 0 } := by
  decide +kernel

/-- 01_tiles_and_the_store.md, the example of R28: SUCCESSION 0xFFFF_F425 of six tiles. -/
theorem test_succession :
    ({ ident := { n := 6, t := 0 }, dict := { applied := [(wkey 0x1003 1, 0xF425), (wkey 0x1003 2, 0xFFFF)] }, repair := { view := 0x3F } } : State).succession =
      [5, 2, 4, 0, 1, 3] := by decide +kernel

/-- 14_dictionary_access.md, the example of R381: the CRC-8 of its requests and of its replies. -/
theorem test_crc8 :
    crc8 [0x02, 0x00, 0x14, 0x01, 0x01, 0xC3, 0xA5] = 0xD9 ∧ crc8 [0x02, 0x00, 0x11, 0x04, 0x01, 0x05, 0x00] = 0x9B ∧ replyBytes 0 [] = [0x00, 0x00] ∧
    replyBytes 5 [] = [0x05, 0x1B] ∧ crc8 [0x41, 0x00, 0x10, 0x01, 0x04] = 0x01 := by decide +kernel

/-- The same example, step 1 and its reply: the write of 0xA5C3 to UNLOCK arms the bus latch. -/
theorem test_bus_unlock :
    after (.maintWrite 0 0x1400 1 [0xA5C3] none) ({ b1 with maint := { dyn := some 9 } })
      (fun t => decide (t.bus.armedAt = some 0 ∧ t.win.armedAt = none ∧ t.maint.reply = some (some [0, 0]))) := by decide +kernel

/-- The same example, steps 3 and 5: FAIL_LIMIT is written once the bus latch is armed, and answers LOCKED without it. -/
theorem test_bus_fail_limit :
    after (.maintWrite 0 0x1100 4 [5] none) ({ b1 with maint := { dyn := some 9 }, bus := { armedAt := some 0 } })
      (fun t => decide (t.reg 0x1100 4 = 5 ∧ t.bus.armedAt = none ∧ t.maint.reply = some (some [0, 0]))) ∧
    after (.maintWrite 0 0x1100 4 [5] none) ({ b1 with maint := { dyn := some 9 } })
      (fun t => decide (t.maint.reply = some (some [5, 0x1B]))) := by decide +kernel

/-- 11_assay_training_heat.md, the example of R283: DLY_GAIN of group 5 at 70 °C and at 79 °C. -/
theorem test_interpolation : interp [0, 0, 1000, 1120, 0] 1120 = 1060 ∧ interp [0, 0, 1000, 1120, 0] 1264 = 1096 ∧ interp [0, 0, 1000, 1138, 0] 1264 = 1110 := by
  decide +kernel

/-- 08_line_code_pickle_seam.md, the example of R190: PICKLE_INTERVAL of a 64 GB stack at 8.0 and at 9.6 Gb/s. -/
theorem test_pickle_interval :
    ({ phy := { cap := 2 ^ 36, grade := 3 } } : State).pickleInterval = 20116 ∧ ({ phy := { cap := 2 ^ 36, grade := 4 } } : State).pickleInterval = 24139 := by
  decide +kernel

/-- 07_command_scheduling.md, the table of R170: the example's timings in cycles at both speeds, and the write envelope of 4 lines (R159). -/
theorem test_timings :
    let s := fun (g : Nat) => ({ phy := { grade := g, declared := env0.stack.timing } } : State)
    (List.range 17).map (fun k => (s 3).tim (k + 1)) = [28, 28, 56, 84, 4, 24, 40, 12, 8, 2, 3900, 200, 350, 32, 16, 12, 16] ∧
      (List.range 17).map (fun k => (s 4).tim (k + 1)) = [34, 34, 68, 101, 5, 29, 48, 15, 10, 2, 4680, 240, 420, 39, 20, 15, 20] ∧
      writeEnvelope (s 3).tim 4 = 120 ∧ writeEnvelope (s 4).tim 4 = 144 := by decide +kernel

/-- R183: a line reads back good; with one bad symbol it is corrected; poisoned, it reads as poison; at another address it is misplaced. -/
theorem test_line_code :
    let c := encodeLine 0x123456789ABCDEF 64 false
    decodeLine c 64 [] = ⟨.good, 0x123456789ABCDEF, none⟩ ∧ decodeLine (setNth c 5 0xBEEF) 64 [] = ⟨.corrected, 0x123456789ABCDEF, some 5⟩ ∧
      (decodeLine (encodeLine 7 64 true) 64 []).res = .poisoned ∧ (decodeLine c 128 []).res = .misplaced := by decide +kernel

/-- The check value of CRC-32C, and FIPS 197's example of AES-128 (log entries 7 and 12: both codes are taken from outside the spec). -/
theorem test_codes :
    crc32c [0x31, 0x32, 0x33, 0x34, 0x35, 0x36, 0x37, 0x38, 0x39] = 0xE3069283 ∧
    aesEnc ((List.range 16).map (fun k => BitVec.ofNat 8 k)) ((List.range 16).map (fun k => BitVec.ofNat 8 (17 * k))) =
      [0x69, 0xC4, 0xE0, 0xD8, 0x6A, 0x7B, 0x04, 0x30, 0xD8, 0xCD, 0xB7, 0x80, 0x70, 0xB4, 0xC5, 0x5A] := by decide +kernel

/-- No word spells a command, and a placed word changes nothing (the table gives its rows no bits). -/
theorem test_no_words : decodeTableWord 16 0 = none ∧ b0.withFetchWord 16 0 = b0 := by decide +kernel

end Sys2Proof.Tests
end

/-!
What every command keeps (`Kept`): one lemma a command whose meaning is more than one operation, then the case split over the commands and the step.
-/
namespace Sys2Proof.Machine
open Sys2Proof

variable {s₀ s t : State}

/-- An outcome that, where it is a next state, has kept it; of a stop nothing is asked. -/
def KeptN (s₀ : State) : Host.Outcome State Fault Refusal → Prop
  | .next t => Kept s₀ t
  | .fault _ => True
  | .refused _ => True

theorem KeptN.next (h : Kept s₀ t) : KeptN s₀ (.next t) := h

/-- A state in which what is kept stands as it stood has kept it. -/
theorem Kept.alike (h : Kept s₀ s)
    (e : (t.pending, t.ident, t.freeCount, t.out, t.store.data, t.nor) = (s.pending, s.ident, s.freeCount, s.out, s.store.data, s.nor)) : Kept s₀ t := by
  simp only [Prod.mk.injEq] at e
  obtain ⟨hp, hi, hf, ho, hs, hn⟩ := e
  exact h.trans ⟨hp, hi, hf.ge, ho ▸ List.prefix_refl _, fun w => hs ▸ w, fun w => hn ▸ w⟩

/-! ### Power, reset, start and the store -/

/-- A tile without its state: what is kept stays, all else is as after reset but for the pins and the domains. -/
theorem Kept.afterReset {pins : Pins} {pd : Power} (h : Kept s₀ s) :
    Kept s₀ { State.reset with pending := s.pending, freeCount := s.freeCount, out := s.out, ident := s.ident, nor := s.nor, pins := pins, pd := pd } :=
  h.trans ⟨rfl, rfl, le_refl _, List.prefix_refl _, fun _ => rfl, id⟩

theorem KeptN.powerOn (h : Kept s₀ s) : KeptN s₀ (execPowerOn s) := h.afterReset

theorem KeptN.powerLoss (h : Kept s₀ s) : KeptN s₀ (execPowerLoss s) := h.cutStore.afterReset

theorem KeptN.resetAssert {lowNs : Nat} (h : Kept s₀ s) : KeptN s₀ (execResetAssert lowNs s) :=
  Kept.pulse (fun _ k => Kept.ite (k.alike rfl) (Kept.ite (k.alike rfl) k.resetTile)) h

theorem KeptN.resetRelease (h : Kept s₀ s) : KeptN s₀ (execResetRelease s) :=
  have h1 : Kept s₀ { s with pins := { s.pins with resetN := true } } := h.alike rfl
  Kept.ite h1.beginStart h1

theorem KeptN.pwrfailFall {lowNs : Nat} (h : Kept s₀ s) : KeptN s₀ (execPwrfailFall lowNs s) :=
  Kept.pulse (fun y k =>
    have k1 : Kept s₀ { y with pins := { y.pins with pwrfailN := false } } := k.alike rfl
    Kept.ite k1 (Kept.ite k1.shutBare k1.shutdown)) h

theorem KeptN.pwrfailRise (h : Kept s₀ s) : KeptN s₀ (execPwrfailRise s) :=
  have h1 : Kept s₀ { s with pins := { s.pins with pwrfailN := true } } := h.alike rfl
  Kept.ite (h1.alike rfl) (Kept.ite h1.stepDone h1)

theorem KeptN.start {e : StartEnv} (h : Kept s₀ s) : KeptN s₀ (execStart e s) :=
  Kept.ite (Kept.ite h.start (Kept.ite h.leaveBlank h)) h

theorem KeptN.startTimeout (h : Kept s₀ s) : KeptN s₀ (execStartTimeout s) :=
  have h1 : Kept s₀ (s.toTime (s.boot.began + 250000000)) := h.toTime
  Kept.ite (Kept.startFail (h1.alike rfl)) h

theorem KeptN.tallyHourly (h : Kept s₀ s) : KeptN s₀ (execTallyHourly s) :=
  Kept.ite h (Kept.ite h.sendLife (Kept.ite h.toTime.writeTally h))

theorem KeptN.pageProgramDone {ok : Bool} (h : Kept s₀ s) : KeptN s₀ (execPageProgramDone ok s) := by
  refine Kept.ite ?_ h.hmProgrammed
  split
  · exact h.shutDone
  · refine Kept.ite h.tallyDone.shutDone ?_
    extract_lets s1 _ s2
    have h1 : Kept s₀ s1 := h.halfProgram
    have h2 : Kept s₀ s2 := Kept.log1 (h1.alike rfl)
    exact Kept.ite h2.shutDone h2.owedTally

theorem KeptN.repairMapWrite (h : Kept s₀ s) : KeptN s₀ (execRepairMapWrite s) :=
  Kept.ite h (Kept.ite (Kept.ite h.writeMap h) (Kept.ite h (h.alike rfl)))

/-! ### The frame, commits and domains -/

theorem KeptN.frameTick (h : Kept s₀ s) : KeptN s₀ (execFrameTick s) := Kept.ite h.tick.beginStart h.tick

theorem KeptN.lockstepMismatch (h : Kept s₀ s) : KeptN s₀ (execLockstepMismatch s) :=
  have h1 : Kept s₀ { s with anvil := { s.anvil with lockstepOk := false } } := h.alike rfl
  Kept.ite h h1.log1.selfRefresh.ring.tileFault

theorem KeptN.heartbeatReceive {hb : Heartbeat} (h : Kept s₀ s) : KeptN s₀ (execHeartbeatReceive hb s) := by
  refine KeptN.next ?_
  extract_lets u _ _ s1 s2
  have h1 : Kept s₀ s1 := h.alike rfl
  have h2 : Kept s₀ s2 := Kept.ite h1.setAnchor h1
  exact Kept.ite h (Kept.ite h2.measureTick h2)

theorem KeptN.heartbeatLoss {u : TileNo} (h : Kept s₀ s) : KeptN s₀ (execHeartbeatLoss u s) := by
  refine KeptN.next ?_
  split
  · exact h
  · exact Kept.ite h h.dueAct

theorem KeptN.commitApply (h : Kept s₀ s) : KeptN s₀ (execCommitApply s) :=
  Kept.ite h.applyPackage (Kept.ite h.applyTile h)

theorem KeptN.commitHoldTimeout (h : Kept s₀ s) : KeptN s₀ (execCommitHoldTimeout s) := by
  refine KeptN.next ?_
  split
  · exact h
  · exact Kept.ite h h.tileFault

theorem Kept.domainUp {d : Nat} (h : Kept s₀ s) : Kept s₀ (s.domainUp d) :=
  Kept.ite (Kept.foldl _ _ h.releaseHeld.releaseUpdates fun _ _ k => k.seamPump) h.releaseHeld

theorem KeptN.domainPowered {d : Fin 30} (h : Kept s₀ s) : KeptN s₀ (execDomainPowered d s) :=
  Kept.ite (Kept.domainUp (h.alike rfl)) h

/-! ### Ports -/

theorem KeptN.masterReset {p : Port} {w : ReqWord} (h : Kept s₀ s) : KeptN s₀ (execMasterReset p w s) := by
  refine Kept.spendReq (fun a k => ?_) h
  refine Kept.ite k.malformed (Kept.ite ?_ k.enqueue)
  split
  · exact k.refuse.watch
  · exact k.masterReset.watch

theorem KeptN.unlistedOpcode {p : Port} {op : BitVec 4} {w : ReqWord} (h : Kept s₀ s) : KeptN s₀ (execUnlistedOpcode p op w s) := by
  unfold execUnlistedOpcode
  split
  · exact KeptN.masterReset h
  · exact KeptN.next h.accept
  · exact Kept.spendReq (fun _ k => k.malformed) h

theorem KeptN.responsePush {p : Port} (h : Kept s₀ s) : KeptN s₀ (execResponsePush p s) :=
  Kept.ite h (Kept.getD (fun _ e => h.deliver e) h)

theorem KeptN.pullStrobe {p : Port} (h : Kept s₀ s) : KeptN s₀ (execPullStrobe p s) := by
  refine Kept.ite h ?_
  split
  · next e => exact h.deliver e
  · exact h.emit.draw.draw

theorem KeptN.flushComplete {p : Port} (h : Kept s₀ s) : KeptN s₀ (execFlushComplete p s) :=
  Kept.ite h (Kept.ite (Kept.ite h.setPort h.sendInit) (Kept.ite h.sendInit h))

theorem KeptN.completionNotice {p : Port} {txid : Nat} (h : Kept s₀ s) : KeptN s₀ (execCompletionNotice p txid s) := by
  refine KeptN.next ?_
  split
  · exact Kept.ite (Kept.ite h.setOnward.addShare h) (Kept.ite h.endOnward h.pieceDone)
  · exact h

/-! ### Queues, schedulers, Pickle and Seam -/

theorem KeptN.latencySample (h : Kept s₀ s) : KeptN s₀ (execLatencySample s) :=
  Kept.ite h (Kept.alike (Kept.foldl _ _ h fun _ _ k => Kept.ite k.setQ k) rfl)

theorem KeptN.pickleDebtStep {pc : Pc} (h : Kept s₀ s) : KeptN s₀ (execPickleDebtStep pc s) := Kept.ite h h.setPc.walkFeed

theorem KeptN.picklePassEnd (h : Kept s₀ s) : KeptN s₀ (execPicklePassEnd s) := Kept.ite h (Kept.log1 (h.alike rfl))

theorem KeptN.seamAck {w : SeamRef} {ok : Bool} (h : Kept s₀ s) : KeptN s₀ (execSeamAck w ok s) := by
  refine KeptN.next ?_
  split
  · exact h.setSeam.endSeam
  · exact Kept.ite h.jobLine h

theorem KeptN.rebuildRowSwitch {row : Nat} {u : TileNo} (h : Kept s₀ s) : KeptN s₀ (execRebuildRowSwitch row u s) := by
  refine KeptN.next ?_
  split
  · exact h
  · exact Kept.ite h (Kept.rebuildStep (Kept.releaseHeld (Kept.releaseUpdates (h.alike rfl))))

theorem KeptN.rebuildDone (h : Kept s₀ s) : KeptN s₀ (execRebuildDone s) := Kept.ite h (Kept.log1 (h.alike rfl))

theorem KeptN.resyncDone {rows : List Nat} (h : Kept s₀ s) : KeptN s₀ (execResyncDone rows s) :=
  have h1 : Kept s₀ (rows.foldl (fun z j => if z.ownRow j then z else (z.rowReady j).rowBack j) s) :=
    Kept.foldl _ _ h fun _ _ k => Kept.ite k k.rowReady.rowBack
  Kept.ite h (Kept.ite h1 h1.stacksBack.log1)

/-! ### Coherence -/

theorem KeptN.snoopPresent {x : SnoopTurn} (h : Kept s₀ s) : KeptN s₀ (execSnoopPresent x s) := by
  refine KeptN.next ?_
  extract_lets z g
  have hz : Kept s₀ z := Kept.foldl _ _ h fun _ _ k => k.snoopArrive
  split
  · exact hz
  · refine Kept.ite hz ?_
    split
    · exact Kept.emit (hz.alike rfl)
    · exact hz

theorem KeptN.snoopTimeout {a : Fin 6} (h : Kept s₀ s) : KeptN s₀ (execSnoopTimeout a s) :=
  Kept.ite h (Kept.ite h.killAgent h.flushWith)

theorem KeptN.reservationExpire {line : Nat} (h : Kept s₀ s) : KeptN s₀ (execReservationExpire line s) := by
  refine KeptN.next ?_
  split
  · exact h
  · split
    · exact h
    · exact Kept.ite h h.dropResv.logLim.afterFree

theorem KeptN.lostHomeRecallDone (h : Kept s₀ s) : KeptN s₀ (execLostHomeRecallDone s) := by
  refine KeptN.next ?_
  split
  · exact h
  · exact Kept.ite h (Kept.log1 (h.alike rfl))

theorem KeptN.agentLoad {a : Fin 6} {line : Nat} {unique : Bool} (h : Kept s₀ s) : KeptN s₀ (execAgentLoad a line unique s) := by
  unfold execAgentLoad
  extract_lets l
  cases l.st with
  | i =>
    cases unique
    · exact h.setAgent.agentSend
    · exact h.setAgent.agentSend
  | s | e | o | m => exact h
  | isD | imAd | smA | omA | miA | oiA | eiA | iiA => trivial

theorem KeptN.agentStore {a : Fin 6} {line : Nat} {d : Line} (h : Kept s₀ s) : KeptN s₀ (execAgentStore a line d s) := by
  unfold execAgentStore
  extract_lets l
  cases l.st with
  | i | s | o => exact h.setAgent.agentSend
  | e | m => exact h.setAgent
  | isD | imAd | smA | omA | miA | oiA | eiA | iiA => trivial

theorem KeptN.agentEviction {a : Fin 6} {line : Nat} {tell : Bool} (h : Kept s₀ s) : KeptN s₀ (execAgentEviction a line tell s) := by
  unfold execAgentEviction
  extract_lets l
  cases l.st with
  | i => exact h
  | s => exact h.setAgent
  | e =>
    cases tell
    · exact h.setAgent
    · exact h.setAgent.agentSend
  | o | m => exact h.setAgent.agentSend
  | isD | imAd | smA | omA | miA | oiA | eiA | iiA => trivial

theorem KeptN.agentSnoop {a : Fin 6} (h : Kept s₀ s) : KeptN s₀ (execAgentSnoop a s) := by
  refine KeptN.next ?_
  extract_lets g
  split
  · exact h
  · exact Kept.emit (Kept.setAgent (h.alike rfl))

theorem KeptN.agentResponse {a : Fin 6} {line : Nat} {c : Cresp} {d : Line} (h : Kept s₀ s) : KeptN s₀ (execAgentResponse a line c d s) := by
  unfold execAgentResponse
  extract_lets l
  split
  · trivial
  · exact h.setAgent

/-! ### Cipher lanes -/

theorem KeptN.segmentCompare {e : Fin 256} {differ : Bool} (h : Kept s₀ s) : KeptN s₀ (execSegmentCompare e differ s) := by
  have h0 := h.assignPairs
  refine KeptN.next ?_
  extract_lets z
  split
  · exact h0
  · split
    · exact h0
    · exact (Kept.ite h0.slotBad.log1.failStream (Kept.ite h0.missSeg h0.passSeg)).assignPairs

theorem KeptN.streamTimeout {p : Port} {stream : BitVec 4} (h : Kept s₀ s) : KeptN s₀ (execStreamTimeout p stream s) := by
  refine KeptN.next ?_
  split
  · exact h
  · exact Kept.ite h (Kept.ite h.closeStream h.count.log1.failStream.closeStream)

/-! ### Housekeeping, training and Quench -/

theorem KeptN.hkSample {v : Option Word} {powered : Bool} (h : Kept s₀ s) : KeptN s₀ (execHkSample v powered s) :=
  have h1 : Kept s₀ (s.toTime (2 ^ 23 * s.hk.rounds + 2 ^ 18 * s.hk.chan)) := h.toTime
  Kept.ite h (Kept.judgeStack (Kept.judgeSample (Kept.keepSample (h1.alike rfl))))

theorem KeptN.hkRoundEnd {m : HkMeas} (h : Kept s₀ s) : KeptN s₀ (execHkRoundEnd m s) :=
  Kept.ite h (h.toTime.witnessCheck.channelFaults.coolCheck.recompute.measureTile.ageLife.chainStart.alike rfl)

theorem KeptN.chainRecordReceive {u : TileNo} {samples : List Word} {tail : ChainTail} (h : Kept s₀ s) :
    KeptN s₀ (execChainRecordReceive u samples tail s) := Kept.ite h (Kept.chainSend (h.alike rfl))

theorem KeptN.chainRecordTimeout {u : TileNo} (h : Kept s₀ s) : KeptN s₀ (execChainRecordTimeout u s) := by
  refine KeptN.next ?_
  extract_lets s1 view again new _ s2 _ s3
  have h1 : Kept s₀ s1 := h.toTime
  have h2 : Kept s₀ s2 := h1.alike rfl
  have h3 : Kept s₀ s3 := h2.alike rfl
  exact Kept.ite h (Kept.ite (Kept.ite h3.log1 h3) h2)

theorem KeptN.assayStepDone {g : Fin 16} {m : AssayMeas} (h : Kept s₀ s) : KeptN s₀ (execAssayStepDone g m s) :=
  Kept.ite (Kept.ite (Kept.measureGroup (h.alike rfl)) h)
    (Kept.ite (Kept.measureGroup (Kept.count (h.alike rfl))) (Kept.ite (Kept.measureGroup (h.alike rfl)) h))

theorem KeptN.planishStepDone {pc : Pc} {lanes : List LaneEye} (h : Kept s₀ s) : KeptN s₀ (execPlanishStepDone pc lanes s) :=
  Kept.ite h (Kept.foldl _ _ h.setPc.count.setEyes fun _ _ k => k.narrowEye)

theorem KeptN.pllLockLoss {k : Fin 2} (h : Kept s₀ s) : KeptN s₀ (execPllLockLoss k s) := Kept.tileFault (Kept.log1 (h.alike rfl))

theorem KeptN.annealDone {g : Fin 16} {fails : BitVec 4} {eyes : List (Pc × LaneEye)} (h : Kept s₀ s) : KeptN s₀ (execAnnealDone g fails eyes s) := by
  refine KeptN.next ?_
  split
  · exact h
  · exact Kept.ite h (Kept.log1 (Kept.laneCheck (Kept.count (Kept.foldl _ _ (h.alike rfl) fun _ _ k => k.setPc))))

theorem KeptN.quenchTrip {sensor : Option (Fin 8)} {reading : Word} (h : Kept s₀ s) : KeptN s₀ (execQuenchTrip sensor reading s) :=
  Kept.ite h (Kept.ite h.tripped h.tripped.quenchStop.log1)

theorem KeptN.quenchRestart (h : Kept s₀ s) : KeptN s₀ (execQuenchRestart s) := by
  refine KeptN.next ?_
  split
  · exact h
  · next c _ =>
    have h1 : Kept s₀ (s.toTime (c + 1000000000)) := h.toTime
    exact Kept.ite h (Kept.ite (h1.alike rfl) (h1.alike rfl))

theorem KeptN.quenchRestartDone {e : RestartEnv} (h : Kept s₀ s) : KeptN s₀ (execQuenchRestartDone e s) := by
  refine KeptN.next ?_
  extract_lets _ _ _ a1 a2 _ a3 a4 a5 bad a6
  have h1 : Kept s₀ a1 := h.alike rfl
  have h2 : Kept s₀ a2 := h1.startAssay.takeMarker
  have h3 : Kept s₀ a3 := h2.alike rfl
  have h4 : Kept s₀ a4 := Kept.ite h3 h3.leaveSelfRefresh.takeInterval
  have h5 : Kept s₀ a5 := h4.laneCheck
  have h6 : Kept s₀ a6 := Kept.ite h5 h5.stackFault
  exact Kept.ite h (Kept.foldl _ _ h6 fun _ _ k => k.pcFault).log1

/-! ### Recoveries and the ring -/

theorem Kept.rowDone {c : Nat} {x : Nat × Nat} (h : Kept s₀ s) : Kept s₀ (s.rowDone c x) := h.setPc.addMap.log1

theorem Kept.useRow {c : Nat} {x : Nat × Nat} (h : Kept s₀ s) : Kept s₀ (s.useRow c x) := h.setPc

theorem Kept.closeRows {r : Recov} {ok : Bool} (h : Kept s₀ s) : Kept s₀ (s.closeRows r ok) := by
  unfold State.closeRows
  extract_lets good bad s1
  have h1 : Kept s₀ s1 := Kept.foldl _ _ (Kept.foldl _ _ h fun _ _ k => k.useRow) fun _ _ k => k.rowDone
  exact Kept.atOnce (fun _ k => Kept.foldl _ _ k fun _ _ k => k.bankFault) h1.endRecovery

theorem KeptN.recoveryClose {r : RecResult} (h : Kept s₀ s) : KeptN s₀ (execRecoveryClose r s) := by
  refine KeptN.next ?_
  split
  · exact h
  · extract_lets s1
    have h1 : Kept s₀ s1 := Kept.ite (Kept.atOnce (fun _ k => k.afterLane) h.endRecovery) h.closeRows
    exact Kept.ite h (Kept.ite h1.openRecovery h1)

theorem KeptN.retirementNotice {u : TileNo} {kind : Fin 3} {pc bank : Pc} (h : Kept s₀ s) :
    KeptN s₀ (execRetirementNotice u kind pc bank s) := by
  refine KeptN.next ?_
  extract_lets e alive _ _ s1 s2
  have h1 : Kept s₀ s1 := h.alike rfl
  have h2 : Kept s₀ s2 := Kept.ite h1.loseStack h1.countGone
  exact Kept.ite h h2.unguarded

theorem KeptN.fenceNotice {u : TileNo} (h : Kept s₀ s) : KeptN s₀ (execFenceNotice u s) :=
  Kept.ite h (Kept.ite h.fenceTile (Kept.ite h (Kept.dueAct (h.alike rfl))))

theorem KeptN.linkTimeout {side : Fin 2} (h : Kept s₀ s) : KeptN s₀ (execLinkTimeout side s) :=
  Kept.ite h h.setLink.log1.fault.ring.ring.linksKnown

theorem KeptN.linkRestore {k : TileNo} (h : Kept s₀ s) : KeptN s₀ (execLinkRestore k s) := by
  refine KeptN.next ?_
  extract_lets s1 s2 at_ _ s3
  have h2 : Kept s₀ s2 := Kept.ite h.setLink.log1 h.setLink
  have h3 : Kept s₀ s3 := h2.alike rfl
  exact Kept.ite h (Kept.ite (Kept.ite h3.ring h3) h2)

theorem KeptN.splitApply (h : Kept s₀ s) : KeptN s₀ (execSplitApply s) := by
  refine KeptN.next ?_
  split
  · exact h
  · extract_lets arc lead _ s1 s2 _ s3
    have h2 : Kept s₀ s2 := Kept.log1 (h.alike rfl)
    have h3 : Kept s₀ s3 := Kept.ite h2 (Kept.splitSeam (Kept.log1 (h2.alike rfl)))
    exact Kept.ite h h3.homeSplit.endOutstanding

theorem KeptN.healApply {gen digest : BitVec 32} {group : List (Nat × Word)} {differs : Bool} {e : HealEnv} (h : Kept s₀ s) :
    KeptN s₀ (execHealApply gen digest group differs e s) := by
  refine KeptN.next ?_
  split
  · exact h
  · extract_lets at_ back _ s1 s2 s2' _ s3 s4 s4' s4'' s5
    have h2 : Kept s₀ s2 := Kept.log1 (h.alike rfl)
    have h2' : Kept s₀ s2' := Kept.ite h2.takeMarker h2
    have h3 : Kept s₀ s3 := h2'.alike rfl
    have h4 : Kept s₀ s4' := Kept.ite h3.homeHeal.ring h3.homeHeal
    have h4' : Kept s₀ s4'' := Kept.ite h4.ring h4
    have h5 : Kept s₀ s5 := Kept.ite h4'.reconcile h4'
    exact Kept.ite h (Kept.ite h5.fenceTile h5)

/-! ### The dictionary and the maintenance bus -/

theorem KeptN.windowBadAccess {off : BitVec 25} {bits : Nat} {write : Bool} (h : Kept s₀ s) : KeptN s₀ (execWindowBadAccess off bits write s) :=
  Kept.ite h (Kept.ite h.badAccess h.badAccess.emit)

theorem KeptN.registerWrite {p : Path} {idx : Word} {sub : Byte} {ws : List Word} (h : Kept s₀ s) : KeptN s₀ (execRegisterWrite p idx sub ws s) := by
  refine Kept.ite h.write (Kept.ite ?_ h)
  cases p with
  | win => exact h.badAccess
  | bus => exact h

theorem KeptN.packageWideWrite {p : Path} {via : Via} {idx : Word} {sub : Byte} {ws : List Word} (h : Kept s₀ s) :
    KeptN s₀ (execPackageWideWrite p via idx sub ws s) := by
  refine Kept.ite h ?_
  cases via with
  | own => exact h.write
  | onward => exact h.writeWith
  | copy => exact Kept.ite (Kept.ite h.log1 h) (Kept.foldl _ _ h fun _ _ k => Kept.ite k.setStaged k)

theorem KeptN.latchRead {p : Path} {idx : Word} {sub : Byte} {width : Fin 3} (h : Kept s₀ s) : KeptN s₀ (execLatchRead p idx sub width s) := by
  refine Kept.ite h (Kept.ite ?_ h.readAccess.emit)
  cases p with
  | win => exact h.badAccess.emit
  | bus => exact h

theorem KeptN.unlockLatchExpire {p : Path} (h : Kept s₀ s) : KeptN s₀ (execUnlockLatchExpire p s) := by
  refine KeptN.next ?_
  split
  · exact h
  · exact h.toTime.setPath

theorem KeptN.pathLockExpire {p : Path} (h : Kept s₀ s) : KeptN s₀ (execPathLockExpire p s) := by
  refine KeptN.next ?_
  split
  · exact h
  · exact h.toTime.setPath

theorem KeptN.packageSnapshotTake (h : Kept s₀ s) : KeptN s₀ (execPackageSnapshotTake s) := by
  refine Kept.ite h ?_
  split
  · exact Kept.ite h (Kept.takeSnapshot (h.alike rfl))
  · exact Kept.ite h h.takeSnapshot

theorem KeptN.replicaRestoreDone {idx : Word} {sub : Byte} {v : Word} {digest : BitVec 32} (h : Kept s₀ s) :
    KeptN s₀ (execReplicaRestoreDone idx sub v digest s) := by
  refine KeptN.next ?_
  extract_lets i x y _ z
  have hy : Kept s₀ y := h.setReg
  have hz : Kept s₀ z := hy.alike rfl
  exact Kept.ite (Kept.ite hz.tileFault hz) h

theorem KeptN.maintReplyFetch (h : Kept s₀ s) : KeptN s₀ (execMaintReplyFetch s) := by
  refine Kept.ite h ?_
  split
  · exact h.emit
  · exact h
  · exact Kept.emit (h.alike rfl)

theorem KeptN.ibiAck (h : Kept s₀ s) : KeptN s₀ (execIbiAck s) := by
  refine Kept.ite h ?_
  split
  · exact Kept.ite (Kept.emit (h.alike rfl)) (h.alike rfl)
  · exact h.alike rfl

/-! ### Every command -/

theorem KeptN.tenantMapWrite {p : Path} {who : BitVec 12 ⊕ Port} {v : Word} (h : Kept s₀ s) : KeptN s₀ (execTenantMapWrite p who v s) := by
  cases who with
  | inl _ => exact h.write
  | inr _ => exact h.write

theorem KeptN.latModeWrite {p : Path} {q : Option (Fin 1024)} {v : Word} (h : Kept s₀ s) : KeptN s₀ (execLatModeWrite p q v s) := by
  cases q with
  | none => exact h.write
  | some _ => exact h.write

/-- What no command ever does, said of `exec`: a next state has kept the queue, the tile, what was driven, the free values and the memories' form. -/
theorem exec_kept (h : Kept s₀ s) : ∀ c : Instr, KeptN s₀ (exec c s)
  | .powerOn => KeptN.powerOn h
  | .resetRelease => KeptN.resetRelease h
  | .resetAssert _ => KeptN.resetAssert h
  | .pwrfailFall _ => KeptN.pwrfailFall h
  | .pwrfailRise => KeptN.pwrfailRise h
  | .start _ => KeptN.start h
  | .startRetry => Kept.ite h.toTime.beginStart h
  | .startTimeout => KeptN.startTimeout h
  | .startCmdRestart _ => h.write
  | .startCmdShutdown _ _ => Kept.ite h.shutdownCmd h.write
  | .tallyHourly => KeptN.tallyHourly h
  | .hmOpen _ => h.write
  | .hmEraseDone _ => h.hmErased
  | .hmPageProgram _ _ => h.write
  | .hmClose _ => h.write
  | .hmAbandon _ => h.write
  | .repairMapWrite => KeptN.repairMapWrite h
  | .frameTick => KeptN.frameTick h
  | .slotStart => h.slotStart
  | .refreshDebtAccrue _ _ => h.accrue
  | .forcedRefresh _ => h.forcedRefresh
  | .perBankRefresh _ => h.perBank
  | .allBankRefresh _ => h.allBank
  | .lockstepMismatch => KeptN.lockstepMismatch h
  | .heartbeatReceive _ => KeptN.heartbeatReceive h
  | .heartbeatLoss _ => KeptN.heartbeatLoss h
  | .commitArmTile _ => h.write
  | .commitArmPackage _ => h.write
  | .commitPrepare _ _ _ => Kept.ite h h.prepare
  | .commitVote _ _ => Kept.ite (h.alike rfl) h
  | .commitDecide => h.decideCommit
  | .commitGo => Kept.ite (h.alike rfl) h
  | .commitAbort _ _ => Kept.ite h.abortCommit h
  | .commitApply => KeptN.commitApply h
  | .mapInitDone => h.alike rfl
  | .commitHoldTimeout => KeptN.commitHoldTimeout h
  | .pdEnableWrite _ _ => h.write
  | .domainPowered _ => KeptN.domainPowered h
  | .decodeAddrWrite _ _ => h.write
  | .read _ _ => h.accept
  | .writePosted _ _ => h.accept
  | .writeAck _ _ => h.accept
  | .rdShared _ _ => h.accept
  | .rdUnique _ _ => h.accept
  | .upgrade _ _ => h.accept
  | .wrBack _ _ => h.accept
  | .masterReset _ _ => KeptN.masterReset h
  | .writeLine _ _ => h.takeLine
  | .requestLeaveQueue _ => Kept.ite h.leaveFrom h
  | .responsePush _ => KeptN.responsePush h
  | .pullStrobe _ => KeptN.pullStrobe h
  | .responseReturn _ => Kept.ite h.response h
  | .watermarksWrite _ _ _ => h.write
  | .portEnable _ _ => h.write
  | .portDisable _ _ => h.write
  | .portFlush _ _ => h.write
  | .flushComplete _ => KeptN.flushComplete h
  | .portPullSet _ _ _ => h.write
  | .portXoffPinSet _ _ _ => h.write
  | .creditsWrite _ _ _ => h.write
  | .mboxPop _ _ => h.write
  | .mboxClear _ _ => h.write
  | .completionNotice _ _ => KeptN.completionNotice h
  | .budgetWindowStart _ => Kept.ite (h.alike rfl) h
  | .budgetWrite _ _ _ => h.write
  | .outCapWrite _ _ _ => h.write
  | .windowWrite _ _ _ => h.write
  | .homeRequestArrive _ => h.homeArrive
  | .tenantMapWrite _ _ _ => KeptN.tenantMapWrite h
  | .shaperWrite _ _ _ _ => h.write
  | .requestRelease _ => Kept.ite h.release.seamPump h
  | .latencySample => KeptN.latencySample h
  | .latModeWrite _ _ _ => KeptN.latModeWrite h
  | .agePromotion => Kept.mapReqs (h.alike rfl)
  | .panicNotice _ _ _ => h.alike rfl
  | .accessIssue _ => h.accessNow
  | .schedWrite _ _ _ => h.write
  | .overrideWrite _ _ _ => h.write
  | .readDataReturn _ _ => h.readArrives
  | .readDataAbsent _ => h.readAbsent
  | .writeDataDone _ _ => h.writeArrives
  | .pickleDebtStep _ => KeptN.pickleDebtStep h
  | .picklePassEnd => KeptN.picklePassEnd h
  | .pickleWrite _ _ _ => h.write
  | .seamUpdate _ _ _ => h.takeUpdate
  | .seamAck _ _ => KeptN.seamAck h
  | .seamReconstructDone _ _ _ => h.reconstruct.seamPump
  | .rebuildRowSwitch _ _ => KeptN.rebuildRowSwitch h
  | .rebuildDone => KeptN.rebuildDone h
  | .resyncDone _ => KeptN.resyncDone h
  | .rebuildLimitWrite _ _ => h.write
  | .snoopPresent _ => KeptN.snoopPresent h
  | .rplGone _ _ => h.agentReply.releaseHeld
  | .rplKept _ _ => h.agentReply.releaseHeld
  | .rplFwd _ _ _ _ _ => h.agentReply.releaseHeld
  | .homeStackReadDone _ _ => h.homeRead.releaseHeld
  | .homeWritebackDone _ => h.homeWritten.releaseHeld
  | .snoopTimeout _ => KeptN.snoopTimeout h
  | .reservationExpire _ => KeptN.reservationExpire h
  | .deadAgentNotice _ _ => h.deadAgent
  | .reclaimWalkDone _ => h.reclaimDone
  | .lostHomeRecallDone => KeptN.lostHomeRecallDone h
  | .splitClassifyDone => h.classifyDone
  | .holdExpire => h.holdExpire
  | .healResolveDone => h.healDone
  | .lostLineNotice _ _ => h.lostNotice
  | .haWrite _ _ _ => h.write
  | .agentLoad _ _ _ => KeptN.agentLoad h
  | .agentStore _ _ _ => KeptN.agentStore h
  | .agentEviction _ _ _ => KeptN.agentEviction h
  | .agentSnoop _ => KeptN.agentSnoop h
  | .agentResponse _ _ _ _ => KeptN.agentResponse h
  | .cipherAdmit _ => Kept.ite h.admitFirst h
  | .segmentCompare _ _ => KeptN.segmentCompare h
  | .streamTimeout _ _ => KeptN.streamTimeout h
  | .slotLoadKind1 _ _ => h.write
  | .slotLoadKind2 _ _ => h.write
  | .slotLoadKind3 _ _ => h.write
  | .slotErase _ _ => h.write
  | .slotCmdApply _ => h.slotApply
  | .kcvDone _ => h.slotDone
  | .keyWrite _ _ _ _ => h.write
  | .keyBufferTimeout _ => Kept.ite h.clearBuffer h
  | .eraseAll _ => h.write
  | .hkSample _ _ => KeptN.hkSample h
  | .hkRoundEnd _ => KeptN.hkRoundEnd h
  | .chainRecordReceive _ _ _ => KeptN.chainRecordReceive h
  | .chainRecordTimeout _ => KeptN.chainRecordTimeout h
  | .assayStepDone _ _ => KeptN.assayStepDone h
  | .planishStepDone _ _ => KeptN.planishStepDone h
  | .pllLockLoss _ => KeptN.pllLockLoss h
  | .annealDone _ _ _ => KeptN.annealDone h
  | .coeffSetWrite _ _ _ _ _ => h.write
  | .quenchTrip _ _ => KeptN.quenchTrip h
  | .quenchRestart => KeptN.quenchRestart h
  | .quenchRestartDone _ => KeptN.quenchRestartDone h
  | .recoveryClose _ => KeptN.recoveryClose h
  | .retirementNotice _ _ _ _ => KeptN.retirementNotice h
  | .fenceNotice _ => KeptN.fenceNotice h
  | .linkTimeout _ => KeptN.linkTimeout h
  | .linkNotice _ => Kept.ite h h.setLink.linksKnown
  | .linkRestore _ => KeptN.linkRestore h
  | .splitApply => KeptN.splitApply h
  | .healApply _ _ _ _ _ => KeptN.healApply h
  | .repairLane _ => h.write
  | .repairRetireBank _ => h.write
  | .repairRetirePc _ => h.write
  | .repairRetireStack _ => h.write
  | .repairFenceTile _ _ => h.write
  | .repairRestartTile _ _ _ => Kept.ite h.restartFenced h.write
  | .repairFosterSplit _ => h.write
  | .repairMapClear _ => h.write
  | .maintRead _ _ _ _ _ => Kept.ite h.maintRead h
  | .maintWrite _ _ _ _ _ => Kept.ite h.maintWrite h
  | .maintReplyFetch => KeptN.maintReplyFetch h
  | .entdaa _ => Kept.ite (h.alike rfl) h
  | .setnewda _ => Kept.ite (h.alike rfl) h
  | .rstdaa => Kept.ite (h.alike rfl) h
  | .enec => Kept.ite (h.alike rfl) h
  | .disec => Kept.ite (h.alike rfl) h
  | .getpid => Kept.ite h.emit h
  | .getbcr => Kept.ite h.emit h
  | .getdcr => Kept.ite h.emit h
  | .getstatus => Kept.ite h.emit h
  | .getmwl => Kept.ite h.emit h
  | .getmrl => Kept.ite h.emit h
  | .hdrEntry => Kept.ite (h.alike rfl) h
  | .ibiAck => KeptN.ibiAck h
  | .windowBadAccess _ _ _ => KeptN.windowBadAccess h
  | .registerWrite _ _ _ _ => KeptN.registerWrite h
  | .packageWideWrite _ _ _ _ _ => KeptN.packageWideWrite h
  | .latchRead _ _ _ _ => KeptN.latchRead h
  | .unlockWrite _ _ => h.write
  | .unlockLatchExpire _ => KeptN.unlockLatchExpire h
  | .pathLockExpire _ => KeptN.pathLockExpire h
  | .phaseWrite _ _ => h.write
  | .snapshotTile _ => h.write
  | .snapshotPackage _ => h.write
  | .packageSnapshotTake => KeptN.packageSnapshotTake h
  | .replicaRestoreDone _ _ _ _ => KeptN.replicaRestoreDone h
  | .logPop _ => h.write
  | .logClear _ => h.write
  | .powerLoss => KeptN.powerLoss h
  | .unlistedOpcode _ _ _ => KeptN.unlistedOpcode h
  | .respZeroAnswer _ _ => h.agentReply.releaseHeld
  | .discardedRequest _ => Kept.ite h.privateWrite h
  | .onwardReply _ => Kept.ite h.setReply h
  | .hdrExitPattern => h.alike rfl
  | .pageProgramDone _ => KeptN.pageProgramDone h
  | .coolingCountStart => Kept.ite (h.alike rfl) h

theorem Kept.of_exec {c : Instr} (h : exec c s = .next t) : Kept s t := by
  have k := exec_kept (Kept.refl s) c
  rwa [h] at k

/-- A step takes the front of the queue, if there is one, and keeps the rest. -/
theorem Kept.of_step (h : step s = .next t) : Kept { s with pending := s.pending.drop 1 } t := by
  obtain ⟨pending⟩ := s
  cases pending with
  | nil =>
    obtain rfl : _ = t := Host.Outcome.next.inj h
    exact (Kept.refl _).idle
  | cons c rest => exact Kept.of_exec (c := c) h

/-- Settles O3: a step is an idle cycle or one command run with the queue's rest, and each keeps the tile, the queue it is given, the record of
outputs and the free values (`Kept`). The queue, the record and the free values are the model's own transport (log entries 2 and 4). -/
theorem stepKeeps : Obligations.StepKeeps := by
  intro s t h
  have k := Kept.of_step h
  obtain ⟨l, hl⟩ := k.out
  exact ⟨k.ident, k.pending, ⟨l, hl.symm⟩, k.free⟩

end Sys2Proof.Machine

/-!
Power domains (R29 to R31): a PD_ENABLE write as one write of a guarded two-word object, and a domain that becomes usable.
-/
namespace Sys2Proof.Machine
open Sys2Proof

variable {s t : State}

/-! ### Bits and words -/

/-- A bit after any bit is set: the new value there, the old one elsewhere. -/
theorem bit_setBit {n : Nat} (w : BitVec n) (i j : Nat) (b : Bool) (hj : j < n) : bit (setBit w i b) j = if i = j then b else bit w j := by
  have hp : (BitVec.ofNat n (2 ^ i)).getLsbD j = decide (i = j) := by
    rw [BitVec.getLsbD_ofNat, Nat.testBit_two_pow, decide_eq_true hj, Bool.true_and]
  cases b
  · simp only [bit, setBit, Bool.false_eq_true, if_false, BitVec.getLsbD_and, BitVec.getLsbD_not, hp]
    by_cases h : i = j <;> simp [h, hj]
  · simp only [bit, setBit, if_true, BitVec.getLsbD_or, hp]
    by_cases h : i = j <;> simp [h]

/-- Both words of a 32-bit value, the upper without its two reserved bits. -/
theorem ofWords_two_masked (v : BitVec 32) :
    ofWords [w16 v.toNat &&& 0xFFFF, w16 (v.toNat / 65536) &&& 0x3FFF] = (v &&& 0x3FFFFFFF).toNat := by
  have h16 : ∀ x : Nat, x &&& 65535 = x % 65536 := fun x => Nat.and_two_pow_sub_one_eq_mod x 16
  have h14 : ∀ x : Nat, x &&& 16383 = x % 16384 := fun x => Nat.and_two_pow_sub_one_eq_mod x 14
  have h30 : ∀ x : Nat, x &&& 1073741823 = x % 1073741824 := fun x => Nat.and_two_pow_sub_one_eq_mod x 30
  simp only [ofWords, w16, BitVec.toNat_and, BitVec.toNat_ofNat, BitVec.reduceToNat, Nat.reducePow, h16, h14, h30]
  omega

/-! ### Frames of small operations -/

theorem OnlyChanges.then {u : State} {l m : List Field} (h : OnlyChanges l s t) (k : OnlyChanges m t u) : OnlyChanges (m ++ l) s u := by
  intro f hf
  rw [List.mem_append, not_or] at hf
  exact State.same_trans (h f hf.2) (k f hf.1)

theorem State.setPath_frame (s : State) (h : Path) (q : PathSt) : OnlyChanges [pathField h] s (s.setPath h q) := by
  cases h with
  | win => exact Fr.only (M := 2 ^ 10) (Fr.upd (Fr.refl s) rfl) (by decide)
  | bus => exact Fr.only (M := 2 ^ 11) (Fr.upd (Fr.refl s) rfl) (by decide)

theorem State.log1_frame (s : State) (code : Nat) (args : List Word) : OnlyChanges [.log, .maint, .out] s (s.log1 code args) := by
  rw [State.log1_only]
  exact Fr.only (M := 2 ^ 2 + 2 ^ 9 + 2 ^ 12) (Fr.upd (Fr.refl s) rfl) (by decide)

/-- While PD1 is powered an event is in the log. -/
theorem State.log1_logs {code : Nat} {args : List Word} (h : s.dom 1 = true) : LogsOne s (s.log1 code args) code args := by
  unfold LogsOne State.log1
  rw [if_pos h, State.raiseIbi_log]
  rfl

/-! ### The path that a write comes on -/

@[simp] theorem State.path_setPath (s : State) (h : Path) (q : PathSt) : (s.setPath h q).path h = q := by cases h <;> rfl

@[simp] theorem State.path_log1 (s : State) (h : Path) (code : Nat) (args : List Word) : (s.log1 code args).path h = s.path h := by
  cases h
  · exact State.log1_win s code args
  · exact State.log1_bus s code args

@[simp] theorem State.setPath_setPath (s : State) (h : Path) (q r : PathSt) : (s.setPath h q).setPath h r = s.setPath h r := by cases h <;> rfl

/-- Whether or not an assembly stood for another object (R376), none is left once the write has taken what was assembled. -/
theorem State.setAsm_forgetAsm (s : State) (h : Path) (k : Nat) :
    (s.forgetAsm h k).setAsm (some h) none = s.setPath h { s.path h with asm := none } := by
  unfold State.forgetAsm State.setAsm
  split
  · split
    · rfl
    · simp
  · rfl

/-! ### A write of a whole object -/

/-- An access that spells every word of one object is one part. -/
theorem partsOf_whole {i x : Nat} {row : RegRow} {w : Word} {r : List Word} (hr : regRow i x = some row) (hb : row.base x = x)
    (hw : r.length + 1 = row.w) : partsOf i 256 x (w :: r) = [⟨row, i, x, 0, w :: r⟩] := by
  have hk : min (x + row.w - x) (r.length + 1) = r.length + 1 := by omega
  simp only [partsOf, hr, hb, hk, Nat.sub_self]
  simp [partsOf]

/-- A guarded object written whole, with the latch armed and the path unlocked: the latch is used, and the object's one part is written (R379). -/
theorem State.write_guarded {h : Path} {i x : Nat} {row : RegRow} {w : Word} {r : List Word} (hd : s.dictOn = true) (hg : s.guardOk h = true)
    (hr : regRow i x = some row) (hb : row.base x = x) (hw : r.length + 1 = row.w) (ha : row.acc = .guarded) :
    s.write h i x (w :: r) =
      (((s.setPath h { s.path h with armedAt := none }).forgetAsm h (wkey i x)).writeRw (some h) false State.rwCmd ⟨row, i, x, 0, w :: r⟩).1 := by
  unfold State.write State.writeWith State.writeAccess
  rw [if_pos hd, partsOf_whole hr hb hw]
  have hu : s.guardUse h = s.setPath h { s.path h with armedAt := none } := by rw [State.guardUse, if_pos hg]
  simp only [List.any_cons, List.any_nil, ha, beq_self_eq_true, Bool.true_or, if_true, List.foldl_cons, List.foldl_nil, hu, hg]
  simp only [State.writePart, ha, if_true]
  rfl

/-! ### PD_ENABLE -/

/-- The row of PD_ENABLE (R30). -/
def pdRow : RegRow := { i0 := 0x1201, i1 := 0x1201, s0 := 1, s1 := 2, acc := .guarded, w := 2 }

theorem regRow_pdEnable : regRow 0x1201 1 = some pdRow := by decide

/-- PD_ENABLE written whole. -/
def pdPart (v : BitVec 32) : WPart := ⟨pdRow, 0x1201, 1, 0, two v.toNat⟩

@[simp] theorem State.toStage_pdPart (s : State) (v : BitVec 32) : s.toStage (pdPart v) = false := by
  simp [State.toStage, pdPart, pdRow, actsAtOnce]

/-- The value taken is the one written, without its reserved bits: every word is new, whatever was assembled before. -/
theorem State.fullValue_pdPart (s z : State) (h : Path) (v : BitVec 32) :
    z.fullValue (pdPart v) (s.assembled (some h) (pdPart v)) = (v &&& 0x3FFFFFFF).toNat := by
  obtain ⟨old, hm⟩ : ∃ old, s.assembled (some h) (pdPart v) = SMap.set (SMap.set old 0 (w16 v.toNat)) 1 (w16 (v.toNat / 65536)) := ⟨_, rfl⟩
  have h0 (c : Word) : (s.assembled (some h) (pdPart v)).getD 0 c = w16 v.toNat := by
    rw [hm, SMap.getD_set_ne _ _ _ Nat.zero_ne_one, SMap.getD_set_same]
  have h1 (c : Word) : (s.assembled (some h) (pdPart v)).getD 1 c = w16 (v.toNat / 65536) := by
    rw [hm, SMap.getD_set_same]
  rw [← ofWords_two_masked]
  show ofWords [_ &&& _, _ &&& _] = _
  rw [h0, h1]
  rfl

/-- Its part as it acts: PD_ENABLE is neither package-wide nor staged nor a command, and takes any value (R31). -/
theorem State.writeRw_pdPart (s : State) (h : Path) (v : BitVec 32) :
    (s.writeRw (some h) false State.rwCmd (pdPart v)).1 = (s.setAsm (some h) none).pdWrite (v &&& 0x3FFFFFFF) := by
  have hshort : ¬ (pdPart v).off + (pdPart v).ws.length < (pdPart v).row.w := by simp [pdPart, pdRow, two, wordsOf]
  have hpkg : isPkgWide (pdPart v).i (pdPart v).base = false := rfl
  unfold State.writeRw
  rw [if_neg (by simp [hpkg]), if_neg (by simp)]
  dsimp only
  rw [if_neg hshort, State.fullValue_pdPart]
  show ((s.setAsm (some h) none).putValue (some h) (pdPart v) (v &&& 0x3FFFFFFF).toNat) = _
  unfold State.putValue
  rw [if_neg (by simp), if_pos (show (pdPart v).i = 0x1201 from rfl), BitVec.ofNat_toNat, BitVec.setWidth_eq]

/-- The value is masked once more where it is judged (R30). -/
theorem State.pdWrite_masked (s : State) (v : BitVec 32) : s.pdWrite (v &&& 0x3FFFFFFF) = s.pdWrite v := by
  unfold State.pdWrite
  rw [BitVec.and_assoc, BitVec.and_self]

theorem State.pdWrite_good {v : BitVec 32} (h : s.pdBad ((v &&& 0x3FFFFFFF) ||| 3) = false) :
    s.pdWrite v = { s with pd := { s.pd with due := some ((v &&& 0x3FFFFFFF) ||| 3) } } :=
  if_neg (by rw [h]; exact Bool.false_ne_true)

theorem State.pdWrite_bad {v : BitVec 32} (h : s.pdBad ((v &&& 0x3FFFFFFF) ||| 3) = true) : s.pdWrite v = s.log1 0x0201 [] := if_pos h

/-- A state whose path has used its latch on a guarded object written whole: nothing is left assembled (R376, R379). -/
def State.spent (s : State) (h : Path) : State := s.setPath h { s.path h with armedAt := none, asm := none }

@[simp] theorem State.spent_pd (s : State) (h : Path) : (s.spent h).pd = s.pd := s.setPath_pd h _

@[simp] theorem State.spent_armedAt (s : State) (h : Path) : ((s.spent h).path h).armedAt = none := by rw [State.spent, State.path_setPath]

theorem State.spent_frame (s : State) (h : Path) : OnlyChanges [pathField h] s (s.spent h) := s.setPath_frame h _

/-- Whether a value breaks the rules of the domains does not depend on what a path keeps. -/
@[simp] theorem State.spent_pdBad (s : State) (h : Path) (v : BitVec 32) : (s.spent h).pdBad v = s.pdBad v := by cases h <;> rfl

theorem LogsOne.of_spent {h : Path} {code : Nat} {args : List Word} (k : LogsOne (s.spent h) t code args) : LogsOne s t code args := by
  cases h <;> exact k

/-- PD_ENABLE written whole on a path whose latch is armed (R31, R376, R379). -/
theorem State.write_pdEnable {h : Path} (v : BitVec 32) (hd : s.dictOn = true) (hg : s.guardOk h = true) :
    s.write h 0x1201 1 (two v.toNat) = (s.spent h).pdWrite v := by
  have hw := State.write_guarded (w := w16 v.toNat) (r := [w16 (v.toNat / 65536)]) hd hg regRow_pdEnable rfl rfl rfl
  refine hw.trans ((State.writeRw_pdPart _ h v).trans ?_)
  rw [State.setAsm_forgetAsm, State.pdWrite_masked, State.path_setPath, State.setPath_setPath]
  rfl

theorem State.pd_due_frame (s : State) (v : Option (BitVec 32)) : OnlyChanges [.pd] s { s with pd := { s.pd with due := v } } :=
  Fr.only (M := 2 ^ 15) (Fr.upd (Fr.refl s) rfl) (by decide)

theorem powerWriteAwaitsTick : Claims.PowerWriteAwaitsTick := by
  intro s h v hd hg w
  have hx : exec (.pdEnableWrite h v) s = .next ((s.spent h).pdWrite v) := congrArg _ (State.write_pdEnable v hd hg)
  constructor
  · intro hb
    rw [State.pdWrite_good (by rwa [State.spent_pdBad])] at hx
    refine ⟨_, hx, ?_, ?_, (s.spent_frame h).then ((s.spent h).pd_due_frame _)⟩
    · rw [State.spent_pd]
    · cases h <;> rfl
  · intro hb
    rw [State.pdWrite_bad (by rwa [State.spent_pdBad])] at hx
    have hd1 : (s.spent h).dom 1 = true := by rw [State.dom, State.spent_pd]; exact hd
    refine ⟨_, hx, (State.log1_logs hd1).of_spent, ?_, ?_, (s.spent_frame h).then ((s.spent h).log1_frame _ _)⟩
    · rw [State.log1_pd, State.spent_pd]
    · rw [State.path_log1, State.spent_armedAt]

/-! ### A domain that was switched on -/

theorem State.releaseHeld_none (h : s.ha.held = []) : s.releaseHeld = s := by simp [State.releaseHeld, h]

theorem State.releaseUpdates_none (h : s.seam.updates = []) : s.releaseUpdates = s := by
  unfold State.releaseUpdates
  rw [h, List.foldl_nil, ← h]

theorem State.seamPump_none (c : Nat) (hw : s.seam.writes = []) (hp : s.sched.parts = []) : s.seamPump c = s := by
  simp [State.seamPump, State.pcParts, hw, hp]

/-- With nothing that waited for it a domain comes up without any other effect. -/
theorem State.domainUp_none {d : Nat} (hh : s.ha.held = []) (hs : d = 11 → s.seam.updates = [] ∧ s.seam.writes = [] ∧ s.sched.parts = []) :
    s.domainUp d = s := by
  unfold State.domainUp
  split
  · next hd =>
    obtain ⟨hu, hw, hp⟩ := hs hd
    rw [State.releaseHeld_none hh, State.releaseUpdates_none hu]
    exact List.foldl_fixed' (fun c => State.seamPump_none c hw hp) _
  · exact State.releaseHeld_none hh

theorem domainBecomesUsable : Claims.DomainBecomesUsable := by
  intro s d hr hh hs
  set z : State := { s with pd := { s.pd with status := setBit s.pd.status d.val true, rising := setBit s.pd.rising d.val false } } with hz
  have hx : exec (.domainPowered d) s = .next z := by
    show Host.Outcome.next _ = _
    rw [if_pos hr, State.domainUp_none (s := z) hh hs]
  refine ⟨z, hx, ?_, ?_, ?_, rfl, Fr.only (M := 2 ^ 15) (Fr.upd (Fr.refl s) rfl) (by decide)⟩
  · exact (bit_setBit _ _ _ _ d.isLt).trans (if_pos rfl)
  · exact (bit_setBit _ _ _ _ d.isLt).trans (if_pos rfl)
  · intro k hk
    exact (bit_setBit _ _ _ _ k.isLt).trans (if_neg fun e => hk (Fin.ext e.symm))

/-- Settles O27: a PD_ENABLE write comes down to `State.pdWrite` on a path that has used its latch, and a domain with nothing waiting for it comes
up alone. That event 0x0201 carries no arguments is the model's choice (log entry 30). -/
theorem powerDomains : Obligations.PowerDomains := ⟨powerWriteAwaitsTick, domainBecomesUsable⟩

end Sys2Proof.Machine

/-!
The address map is one to one (R42 to R49): each form of `MapCfg.home` stated once, with `MapCfg.package` undoing it, and the places of orders 1 and 2
with `MapCfg.unplace` undoing them.
-/
namespace Sys2Proof.Machine
open Sys2Proof

variable {m : MapCfg}

/-! ### The parts of a tile -/

theorem MapCfg.ord_add_seam (hs : m.seam ≤ m.cap) : m.ord + m.seam = m.cap := Nat.sub_add_cancel hs

/-- The Seam size is a whole number of 4 KiB blocks (R41). -/
theorem MapCfg.seam_blocks (m : MapCfg) : m.seam = 4096 * (65536 * m.units) := by
  rw [MapCfg.seam, mib256]
  omega

/-- With the capacity the ordinary part of a tile is a whole number of 4 KiB blocks. -/
theorem MapCfg.ord_mod (hs : m.seam ≤ m.cap) (hc : m.cap % 4096 = 0) : m.ord % 4096 = 0 := by
  have h := MapCfg.ord_add_seam hs
  rw [MapCfg.seam_blocks] at h
  omega

theorem MapCfg.parityOf_lt (hn : 1 ≤ m.n) (j : Nat) : m.parityOf j < m.n := by
  unfold MapCfg.parityOf
  omega

/-- The size of the Seam part in a package of several tiles (R42): two tiles hold each line twice, more of them hold one parity block a row. -/
theorem MapCfg.mapEnd_seam (hn : 2 ≤ m.n) : m.mapEnd = m.seamBase + (m.n - 1) * m.seam := by
  unfold MapCfg.mapEnd
  rw [if_neg (by omega)]
  split
  · next h2 => rw [h2, Nat.one_mul]
  · rfl

theorem MapCfg.mapEnd_one (hn : m.n ≤ 1) : m.mapEnd = m.seamBase := by rw [MapCfg.mapEnd, if_pos hn, Nat.add_zero]

/-! ### The choice of the tile, form by form -/

theorem MapCfg.home_interleaved {p : Nat} (hp : p < m.seamBase) (hi : m.inter = 1) :
    m.home p = { tile := p / 4096 % m.n, loc := p / 4096 / m.n * 4096 + p % 4096, parity := none } := by
  rw [MapCfg.home, if_pos hp, if_pos hi]

theorem MapCfg.home_linear {p : Nat} (hp : p < m.seamBase) (hi : m.inter ≠ 1) :
    m.home p = { tile := p / m.ord, loc := p % m.ord, parity := none } := by
  rw [MapCfg.home, if_pos hp, if_neg hi]

theorem MapCfg.home_mirrored (hn : m.n = 2) (d : Nat) :
    m.home (m.seamBase + d) = { tile := d / 4096 % 2, loc := m.ord + d / 4096 * 4096 + d % 4096, parity := some (1 - d / 4096 % 2) } := by
  rw [MapCfg.home, if_neg (by omega), Nat.add_sub_cancel_left, if_pos hn]

/-- The tile of a data block in the stripe row with parity tile q (R45). -/
def dataTile (q pos : Nat) : Nat := if pos < q then pos else pos + 1

theorem MapCfg.home_striped (hn : m.n ≠ 2) (d : Nat) :
    m.home (m.seamBase + d) =
      { tile := dataTile (m.parityOf (d / 4096 / (m.n - 1))) (d / 4096 % (m.n - 1)),
        loc := m.ord + d / 4096 / (m.n - 1) * 4096 + d % 4096, parity := some (m.parityOf (d / 4096 / (m.n - 1))) } := by
  rw [MapCfg.home, if_neg (by omega), Nat.add_sub_cancel_left, if_neg hn]
  rfl

/-! ### The package address of a line, form by form -/

theorem MapCfg.package_interleaved {loc : Nat} (t : Nat) (hl : loc < m.ord) (hi : m.inter = 1) :
    m.package t loc = some ((loc / 4096 * m.n + t) * 4096 + loc % 4096) := by
  rw [MapCfg.package, if_pos hl, if_pos hi]

theorem MapCfg.package_linear {loc : Nat} (t : Nat) (hl : loc < m.ord) (hi : m.inter ≠ 1) : m.package t loc = some (t * m.ord + loc) := by
  rw [MapCfg.package, if_pos hl, if_neg hi]

/-- A byte of block j above the ordinary part lies in that block, at its own place. -/
theorem add_block_div_mod {o r : Nat} (j : Nat) (ho : o % 4096 = 0) (hr : r < 4096) :
    (o + j * 4096 + r - o) / 4096 = j ∧ (o + j * 4096 + r) % 4096 = r := by omega

theorem MapCfg.package_mirrored {j r : Nat} (hn : m.n = 2) (ho : m.ord % 4096 = 0) (hr : r < 4096) :
    m.package (j % 2) (m.ord + j * 4096 + r) = some (m.seamBase + j * 4096 + r) := by
  obtain ⟨hj, hm⟩ := add_block_div_mod j ho hr
  rw [MapCfg.package, if_neg (by omega)]
  simp only [hj, hm, if_pos hn, if_true]

theorem dataTile_ne (q pos : Nat) : dataTile q pos ≠ q := by
  unfold dataTile
  split <;> omega

theorem dataTile_lt {q pos n : Nat} (hq : q < n) (hp : pos < n - 1) : dataTile q pos < n := by
  unfold dataTile
  split <;> omega

/-- The position of a data block is found again from its tile: the tiles above the parity tile count one less. -/
theorem dataTile_pos (q pos : Nat) : (if dataTile q pos < q then dataTile q pos else dataTile q pos - 1) = pos := by
  unfold dataTile
  by_cases h : pos < q
  · rw [if_pos h, if_pos h]
  · rw [if_neg h, if_neg (by omega), Nat.add_sub_cancel]

theorem MapCfg.package_striped {j r : Nat} (pos : Nat) (hn : m.n ≠ 2) (ho : m.ord % 4096 = 0) (hr : r < 4096) :
    m.package (dataTile (m.parityOf j) pos) (m.ord + j * 4096 + r) = some (m.seamBase + (j * (m.n - 1) + pos) * 4096 + r) := by
  obtain ⟨hj, hm⟩ := add_block_div_mod j ho hr
  rw [MapCfg.package, if_neg (by omega)]
  simp only [hj, hm, if_neg hn, if_neg (dataTile_ne _ _), dataTile_pos]

/-! ### The map is one to one -/

/-- A home is the one place of package address p: in a tile of the package and inside its stack, giving p back, with the parity or mirror in another tile. -/
def MapCfg.Locates (m : MapCfg) (p : Nat) (h : Home1) : Prop :=
  h.tile < m.n ∧ h.loc < m.cap ∧ m.package h.tile h.loc = some p ∧ ∀ q, h.parity = some q → q < m.n ∧ q ≠ h.tile

theorem MapCfg.locates_interleaved {p : Nat} (hn : 1 ≤ m.n) (hs : m.seam ≤ m.cap) (hc : m.cap % 4096 = 0) (hp : p < m.seamBase) (hi : m.inter = 1) :
    m.Locates p (m.home p) := by
  obtain ⟨o, ho⟩ := Nat.dvd_of_mod_eq_zero (MapCfg.ord_mod hs hc)
  have hk : p / 4096 / m.n < o := by
    refine Nat.div_lt_of_lt_mul (Nat.div_lt_of_lt_mul ?_)
    rwa [MapCfg.seamBase, ho, Nat.mul_left_comm] at hp
  have hl : p / 4096 / m.n * 4096 + p % 4096 < m.ord := by omega
  have hb : (p / 4096 / m.n * 4096 + p % 4096) / 4096 = p / 4096 / m.n ∧ (p / 4096 / m.n * 4096 + p % 4096) % 4096 = p % 4096 := by omega
  rw [MapCfg.home_interleaved hp hi]
  refine ⟨Nat.mod_lt _ hn, Nat.lt_of_lt_of_le hl (Nat.sub_le _ _), ?_, nofun⟩
  rw [MapCfg.package_interleaved _ hl hi, hb.1, hb.2, Nat.div_add_mod', Nat.div_add_mod']

theorem MapCfg.locates_linear {p : Nat} (hp : p < m.seamBase) (hi : m.inter ≠ 1) : m.Locates p (m.home p) := by
  have ho : 0 < m.ord := Nat.pos_of_ne_zero fun h => by simp [MapCfg.seamBase, h] at hp
  have hl := Nat.mod_lt p ho
  rw [MapCfg.home_linear hp hi]
  refine ⟨Nat.div_lt_of_lt_mul (by rwa [Nat.mul_comm]), Nat.lt_of_lt_of_le hl (Nat.sub_le _ _), ?_, nofun⟩
  rw [MapCfg.package_linear _ hl hi, Nat.div_add_mod']

theorem MapCfg.locates_mirrored {d : Nat} (hs : m.seam ≤ m.cap) (hc : m.cap % 4096 = 0) (hn : m.n = 2) (hd : d < m.seam) :
    m.Locates (m.seamBase + d) (m.home (m.seamBase + d)) := by
  have hcap := MapCfg.ord_add_seam hs
  have hr : d % 4096 < 4096 := Nat.mod_lt _ (by decide)
  rw [MapCfg.home_mirrored hn]
  refine ⟨?_, ?_, ?_, ?_⟩
  · show d / 4096 % 2 < m.n
    omega
  · show m.ord + d / 4096 * 4096 + d % 4096 < m.cap
    omega
  · rw [MapCfg.package_mirrored hn (MapCfg.ord_mod hs hc) hr, Nat.add_assoc, Nat.div_add_mod']
  · rintro q ⟨⟩
    show 1 - d / 4096 % 2 < m.n ∧ 1 - d / 4096 % 2 ≠ d / 4096 % 2
    omega

theorem MapCfg.locates_striped {d : Nat} (hs : m.seam ≤ m.cap) (hc : m.cap % 4096 = 0) (hn : 3 ≤ m.n) (hd : d < (m.n - 1) * m.seam) :
    m.Locates (m.seamBase + d) (m.home (m.seamBase + d)) := by
  have hcap := MapCfg.ord_add_seam hs
  have hseam := m.seam_blocks
  have hr : d % 4096 < 4096 := Nat.mod_lt _ (by decide)
  have hj : d / 4096 / (m.n - 1) < 65536 * m.units := by
    refine Nat.div_lt_of_lt_mul (Nat.div_lt_of_lt_mul ?_)
    rwa [hseam, Nat.mul_left_comm] at hd
  have hq : m.parityOf (d / 4096 / (m.n - 1)) < m.n := MapCfg.parityOf_lt (by omega) _
  rw [MapCfg.home_striped (by omega)]
  refine ⟨dataTile_lt hq (Nat.mod_lt _ (by omega)), ?_, ?_, ?_⟩
  · show m.ord + d / 4096 / (m.n - 1) * 4096 + d % 4096 < m.cap
    omega
  · rw [MapCfg.package_striped _ (by omega) (MapCfg.ord_mod hs hc) hr, Nat.div_add_mod', Nat.add_assoc, Nat.div_add_mod']
  · rintro q ⟨⟩
    exact ⟨hq, (dataTile_ne _ _).symm⟩

theorem mapOneToOne : Claims.MapOneToOne := by
  intro m p hn hs hc hp
  by_cases hb : p < m.seamBase
  · by_cases hi : m.inter = 1
    · exact MapCfg.locates_interleaved hn hs hc hb hi
    · exact MapCfg.locates_linear hb hi
  · have hn2 : 2 ≤ m.n := by
      by_contra h
      exact hb (MapCfg.mapEnd_one (m := m) (by omega) ▸ hp)
    obtain ⟨d, rfl⟩ := Nat.exists_eq_add_of_le (Nat.le_of_not_lt hb)
    rw [MapCfg.mapEnd_seam hn2] at hp
    have hd := Nat.lt_of_add_lt_add_left hp
    by_cases h2 : m.n = 2
    · rw [h2, Nat.one_mul] at hd
      exact MapCfg.locates_mirrored hs hc h2 hd
    · exact MapCfg.locates_striped hs hc (by omega) hd

/-! ### The place inside the tile -/

/-- The deep index of a place: the stack ID above the row bits (R48). -/
def Place.deep (r : Nat) (p : Place) : Nat := p.bank / 16 * 2 ^ r + p.row

/-- The deep index is found again from the stack ID and the row. -/
theorem placeOf_deep (r pc deep col : Nat) {bank : Nat} (hb : bank < 16) : (placeOf r pc bank deep col).deep r = deep := by
  have h : (16 * (deep / 2 ^ r) + bank) / 16 = deep / 2 ^ r := by omega
  rw [Place.deep, placeOf, h, Nat.div_add_mod']

theorem placeOf_bank (r pc deep col : Nat) {bank : Nat} (hb : bank < 16) : (placeOf r pc bank deep col).bank % 16 = bank := by
  show (16 * (deep / 2 ^ r) + bank) % 16 = bank
  omega

theorem placeOf_row_lt (r pc bank deep col : Nat) : (placeOf r pc bank deep col).row < 2 ^ r := Nat.mod_lt _ (Nat.two_pow_pos r)

theorem MapCfg.place_order1 (h : m.order = 1) (l : Nat) :
    m.place l = placeOf m.r (l / 2 ^ 6 % 64) (l / 2 ^ 12 % 16) (l / 2 ^ 20 % 2 ^ 16) (l / 2 ^ 16 % 16) := if_pos h

theorem MapCfg.place_order2 (h : m.order = 2) (l : Nat) :
    m.place l = placeOf m.r (l / 2 ^ 12 % 64) (l / 2 ^ 8 % 16) (l / 2 ^ 20 % 2 ^ 16) (l / 2 ^ 6 % 4 + 4 * (l / 2 ^ 18 % 4)) := by
  simp [MapCfg.place, h]

theorem MapCfg.unplace_order1 (h : m.order = 1) (p : Place) :
    m.unplace p = 2 ^ 20 * p.deep m.r + 2 ^ 16 * p.col + p.bank % 16 * 2 ^ 12 + p.pc * 2 ^ 6 := if_pos h

theorem MapCfg.unplace_order2 (h : m.order = 2) (p : Place) :
    m.unplace p = 2 ^ 20 * p.deep m.r + 2 ^ 18 * (p.col / 4) + p.pc * 2 ^ 12 + p.bank % 16 * 2 ^ 8 + p.col % 4 * 2 ^ 6 := by
  simp [MapCfg.unplace, Place.deep, h]

theorem MapCfg.unplace_place_order1 {l : Nat} (h : m.order = 1) (hl : l < 2 ^ 36) (ha : l % 64 = 0) : m.unplace (m.place l) = l := by
  have hb : l / 2 ^ 12 % 16 < 16 := Nat.mod_lt _ (by decide)
  rw [MapCfg.unplace_order1 h, MapCfg.place_order1 h, placeOf_deep _ _ _ _ hb, placeOf_bank _ _ _ _ hb]
  dsimp only [placeOf]
  omega

theorem MapCfg.unplace_place_order2 {l : Nat} (h : m.order = 2) (hl : l < 2 ^ 36) (ha : l % 64 = 0) : m.unplace (m.place l) = l := by
  have hb : l / 2 ^ 8 % 16 < 16 := Nat.mod_lt _ (by decide)
  rw [MapCfg.unplace_order2 h, MapCfg.place_order2 h, placeOf_deep _ _ _ _ hb, placeOf_bank _ _ _ _ hb]
  dsimp only [placeOf]
  omega

theorem placesOneToOne : Claims.PlacesOneToOne := by
  rintro m l (h | h) hl ha
  · refine ⟨MapCfg.unplace_place_order1 h hl ha, ?_⟩
    rw [MapCfg.place_order1 h]
    exact ⟨Nat.mod_lt _ (by decide), Nat.mod_lt _ (by decide), placeOf_row_lt _ _ _ _ _⟩
  · refine ⟨MapCfg.unplace_place_order2 h hl ha, ?_⟩
    rw [MapCfg.place_order2 h]
    refine ⟨Nat.mod_lt _ (by decide), ?_, placeOf_row_lt _ _ _ _ _⟩
    show l / 2 ^ 6 % 4 + 4 * (l / 2 ^ 18 % 4) < 16
    omega

/-- Settles O60: in each form of the ordinary and of the Seam part the home locates its package address (R44 to R46), and the fields of orders 1 and 2
are disjoint bits of the local address that cover it (R48, R49). -/
theorem addressMapOneToOne : Obligations.AddressMapOneToOne := ⟨mapOneToOne, placesOneToOne⟩

end Sys2Proof.Machine

/-!
DECODE_ADDR (R55): a write of a whole unguarded object, the words that a value taken leaves in the dictionary, and the decode words that follow.
-/
namespace Sys2Proof.SMap
open Sys2Proof

/-- A write leaves what is listed at every other key, whatever that key's own default is. -/
theorem look_put_ne {α : Type} [DecidableEq α] (d : α) (m : SMap α) {k x : Nat} (v : α) (h : x ≠ k) : look (put d m k v) x = look m x := by
  unfold put
  split
  · exact look_del_ne m h
  · exact look_set_ne m v h

/-- Words assembled one after another: those listed before stand beside the new ones, which read in their order. -/
theorem getD_assemble (m : SMap Word) (ws : List Word) (n j : Nat) (c : Word) :
    getD ((ws.zipIdx n).foldl (fun m e => set m e.2 e.1) m) j c =
      if j < n then getD m j c else (ws[j - n]?).getD (getD m j c) := by
  induction ws generalizing m n with
  | nil => simp
  | cons w r ih =>
    rw [List.zipIdx_cons, List.foldl_cons, ih]
    rcases Nat.lt_trichotomy j n with h | rfl | h
    · rw [if_pos h, if_pos (Nat.lt_succ_of_lt h), getD_set_ne _ _ _ (Nat.ne_of_lt h)]
    · simp
    · rw [if_neg (by omega), if_neg (by omega), getD_set_ne _ _ _ (Nat.ne_of_gt h), show j - n = j - (n + 1) + 1 by omega, List.getElem?_cons_succ]

end Sys2Proof.SMap

namespace Sys2Proof.Machine
open Sys2Proof

variable {s : State}

/-! ### Words -/

/-- The words of a number make it again, as far as they reach (R5). -/
theorem ofWords_wordAt (k v : Nat) : ofWords ((List.range k).map (wordAt v)) = v % 65536 ^ k := by
  induction k generalizing v with
  | zero => simp [ofWords, Nat.mod_one]
  | succ k ih =>
    have hw : ∀ j, wordAt v (j + 1) = wordAt (v / 65536) j := fun j => by rw [wordAt, wordAt, Nat.pow_succ', Nat.div_div_eq_div_mul]
    have h0 : (wordAt v 0).toNat = v % 65536 := by simp [wordAt]
    rw [List.range_succ_eq_map, List.map_cons, List.map_map, ofWords, h0, Nat.pow_succ', Nat.mod_mul]
    simp only [Function.comp_def, Nat.succ_eq_add_one, hw, ih]

/-- The four words of DECODE_ADDR without its reserved bits [63:44] (R53). -/
theorem ofWords_four_masked {v : Nat} (hv : v < 2 ^ 44) :
    ofWords [w16 v &&& 0xFFFF, w16 (v / 65536) &&& 0xFFFF, w16 (v / 65536 / 65536) &&& 0x0FFF, w16 (v / 65536 / 65536 / 65536) &&& 0] = v := by
  have h16 : ∀ x : Nat, x &&& 65535 = x % 65536 := fun x => Nat.and_two_pow_sub_one_eq_mod x 16
  have h12 : ∀ x : Nat, x &&& 4095 = x % 4096 := fun x => Nat.and_two_pow_sub_one_eq_mod x 12
  simp only [ofWords, w16, BitVec.toNat_and, BitVec.toNat_ofNat, BitVec.reduceToNat, Nat.reducePow, h16, h12, Nat.and_zero]
  omega

/-! ### Applied words after a word is set -/

@[simp] theorem State.reg_dropStaged (s : State) (i x j y : Nat) : (s.dropStaged i x).reg j y = s.reg j y := rfl

@[simp] theorem State.reg_setReg_same (s : State) (i x : Nat) (v : Word) : (s.setReg i x v).reg i x = v := SMap.getD_put_same _ _ _ _

theorem State.reg_setReg_ne (s : State) {i x j y : Nat} (v : Word) (h : wkey j y ≠ wkey i x) : (s.setReg i x v).reg j y = s.reg j y :=
  congrArg (fun o => o.getD (wordDefault s.ident.n j y)) (SMap.look_put_ne _ _ v h)

/-- The words of a value taken, one after another (R383): the part of `State.takeValue` before what follows the new value. -/
def State.takeWords (s : State) (i x v : Nat) (l : List Nat) : State :=
  l.foldl (fun z j => (z.dropStaged i (x + j)).setReg i (x + j) (wordAt v j)) s

theorem State.takeValue_eq (s : State) (i x k v : Nat) : s.takeValue i x k v = (s.takeWords i x v (List.range k)).took i x := rfl

theorem State.takeWords_cons (s : State) (i x v a : Nat) (l : List Nat) :
    s.takeWords i x v (a :: l) = ((s.dropStaged i (x + a)).setReg i (x + a) (wordAt v a)).takeWords i x v l := rfl

theorem State.reg_takeWords_ne {i x v j y : Nat} {l : List Nat} (h : ∀ a ∈ l, wkey j y ≠ wkey i (x + a)) :
    (s.takeWords i x v l).reg j y = s.reg j y := by
  induction l generalizing s with
  | nil => rfl
  | cons a l ih =>
    rw [State.takeWords_cons, ih fun b hb => h b (.tail _ hb), State.reg_setReg_ne _ _ (h a (.head _)), State.reg_dropStaged]

theorem State.reg_takeWords_mem {i x v j : Nat} {l : List Nat} (h : j ∈ l) : (s.takeWords i x v l).reg i (x + j) = wordAt v j := by
  induction l generalizing s with
  | nil => cases h
  | cons a l ih =>
    rw [State.takeWords_cons]
    by_cases hl : j ∈ l
    · exact ih hl
    · have hj : j = a := (List.mem_cons.mp h).resolve_right hl
      have hne : ∀ b ∈ l, wkey i (x + j) ≠ wkey i (x + b) := fun b hb e => hl (by rwa [show j = b by simp only [wkey] at e; omega])
      rw [State.reg_takeWords_ne hne, hj, State.reg_setReg_same]

/-- The object holds the value taken, as far as its words reach. -/
theorem State.regs_takeWords (s : State) (i x v k : Nat) : (s.takeWords i x v (List.range k)).regs i x k = v % 65536 ^ k := by
  rw [← ofWords_wordAt, State.regs]
  exact congrArg ofWords (List.map_congr_left fun j hj => State.reg_takeWords_mem hj)

theorem State.takeWords_frame (s : State) (i x v : Nat) (l : List Nat) : OnlyChanges [.dict] s (s.takeWords i x v l) :=
  Fr.only (M := 2 ^ 6) (Fr.foldl l _ (Fr.refl s) fun _ _ h => Fr.upd (Fr.upd h rfl) rfl) (by decide)

/-- The applied map depends on the map objects, TILE_COUNT and what the start found of the stacks alone (R52). -/
theorem State.map_takeWords {i x v : Nat} {l : List Nat} (h : i ≠ 0x2000 ∧ ∀ a ∈ l, x + a < 256) : (s.takeWords i x v l).map = s.map := by
  have hr : ∀ y < 256, (s.takeWords i x v l).reg 0x2000 y = s.reg 0x2000 y := fun y hy => State.reg_takeWords_ne fun a ha => by
    have := h.2 a ha
    simp only [wkey]
    omega
  have hp : (s.takeWords i x v l).phy = s.phy := s.takeWords_frame i x v l .phy (by decide)
  have hi : (s.takeWords i x v l).ident = s.ident := s.takeWords_frame i x v l .ident (by decide)
  simp only [State.map, State.n, hr 1 (by decide), hr 2 (by decide), hr 3 (by decide), hp, hi]

@[simp] theorem State.map_setPath (s : State) (h : Path) (q : PathSt) : (s.setPath h q).map = s.map := by cases h <;> rfl

/-! ### A whole object written -/

/-- An RW object written whole: the object's one part is written, after an assembly for another object is discarded (R376). -/
theorem State.write_rw {h : Path} {i x : Nat} {row : RegRow} {w : Word} {r : List Word} (hd : s.dictOn = true)
    (hr : regRow i x = some row) (hb : row.base x = x) (hw : r.length + 1 = row.w) (ha : row.acc = .rw) :
    s.write h i x (w :: r) = ((s.forgetAsm h (wkey i x)).writeRw (some h) false State.rwCmd ⟨row, i, x, 0, w :: r⟩).1 := by
  unfold State.write State.writeWith State.writeAccess
  rw [if_pos hd, partsOf_whole hr hb hw]
  have hg : (Acc.rw == Acc.guarded) = false := by decide
  simp only [List.any_cons, List.any_nil, ha, hg, Bool.or_false, Bool.false_eq_true, if_false, List.foldl_cons, List.foldl_nil]
  simp only [State.writePart, ha]
  rfl

/-- The value taken of a part that spells its whole object: every word is new, whatever was assembled before (R376), and only its reserved
bits are lost (R375). -/
theorem State.fullValue_whole (s z : State) (src : Option Path) {p : WPart} (ho : p.off = 0) (hw : p.ws.length = p.row.w) :
    z.fullValue p (s.assembled src p) = ofWords (p.ws.mapIdx fun j w => w &&& keptBits p.i (p.base + j)) := by
  unfold State.fullValue State.assembled
  congr 1
  refine List.ext_getElem (by simp [hw]) fun j hj _ => ?_
  have hlt : j < p.ws.length := by simpa [hw] using hj
  simp only [List.getElem_map, List.getElem_range, List.getElem_mapIdx, ho, Nat.zero_add, SMap.getD_assemble, Nat.not_lt_zero, if_false, Nat.sub_zero,
    List.getElem?_eq_getElem hlt, Option.getD_some]

/-! ### DECODE_ADDR -/

/-- The row of DECODE_ADDR (R53). -/
def decodeRow : RegRow := { i0 := 0x2005, i1 := 0x2005, s0 := 1, s1 := 4, acc := .rw, w := 4 }

theorem regRow_decodeAddr : regRow 0x2005 1 = some decodeRow := by decide

/-- DECODE_ADDR written whole. -/
def decodePart (v : Nat) : WPart := ⟨decodeRow, 0x2005, 1, 0, four v⟩

/-- A write of DECODE_ADDR acts at once in every phase (R383). -/
@[simp] theorem State.toStage_decodePart (s : State) (v : Nat) : s.toStage (decodePart v) = false := by
  simp [State.toStage, decodePart, decodeRow, actsAtOnce]

theorem State.fullValue_decodePart (s z : State) (src : Option Path) {v : Nat} (hv : v < 2 ^ 44) :
    z.fullValue (decodePart v) (s.assembled src (decodePart v)) = v :=
  (State.fullValue_whole s z src rfl rfl).trans (ofWords_four_masked hv)

/-- DECODE_ADDR takes any value, and nothing else follows it. -/
theorem State.putValue_decodePart (s : State) (src : Option Path) (w v : Nat) :
    s.putValue src (decodePart w) v = s.takeWords 0x2005 1 v (List.range 4) := by
  unfold State.putValue
  rw [if_neg (by simp)]
  rfl

/-- Its part as it acts: DECODE_ADDR is neither package-wide nor staged nor a command, and no value is out of its range. -/
theorem State.writeRw_decodePart (s : State) (h : Path) {v : Nat} (hv : v < 2 ^ 44) :
    (s.writeRw (some h) false State.rwCmd (decodePart v)).1 = (s.setAsm (some h) none).takeWords 0x2005 1 v (List.range 4) := by
  have hpkg : isPkgWide (decodePart v).i (decodePart v).base = false := rfl
  have hwhole : ¬ (decodePart v).off + (decodePart v).ws.length < (decodePart v).row.w := by simp [decodePart, decodeRow, four, wordsOf]
  unfold State.writeRw
  rw [if_neg (by simp [hpkg]), if_neg (by simp)]
  dsimp only
  rw [if_neg hwhole, State.fullValue_decodePart _ _ _ hv, ← State.putValue_decodePart _ (some h) v v]
  rfl

/-- DECODE_ADDR written whole (R55, R376). -/
theorem State.write_decodeAddr (h : Path) {v : Nat} (hd : s.dictOn = true) (hv : v < 2 ^ 44) :
    s.write h 0x2005 1 (four v) = (s.setPath h { s.path h with asm := none }).takeWords 0x2005 1 v (List.range 4) := by
  rw [← State.setAsm_forgetAsm s h (wkey 0x2005 1), ← State.writeRw_decodePart _ h hv]
  exact State.write_rw hd regRow_decodeAddr rfl rfl rfl

/-- The decode words as they read (R54). -/
theorem State.live2_decode (s : State) :
    s.live2 0x2006 1 = (s.map.decode (s.regs 0x2005 1 4)).1 ∧ s.live2 0x2006 2 = (s.map.decode (s.regs 0x2005 1 4)).2.1 ∧
    s.live2 0x2006 3 = (s.map.decode (s.regs 0x2005 1 4)).2.2.1 ∧ s.live2 0x2006 4 = (s.map.decode (s.regs 0x2005 1 4)).2.2.2 :=
  ⟨rfl, rfl, rfl, rfl⟩

/-- Settles O10: the write leaves the four words of the address and the map that was applied, from which the decode words are read. -/
theorem decodeAddrFollows : Obligations.DecodeAddrFollows := by
  intro s h v hd hv
  have hx : exec (.decodeAddrWrite h v) s = .next ((s.setPath h { s.path h with asm := none }).takeWords 0x2005 1 v.toNat (List.range 4)) :=
    congrArg _ (State.write_decodeAddr h hd hv)
  set z := s.setPath h { s.path h with asm := none }
  have hregs : (z.takeWords 0x2005 1 v.toNat (List.range 4)).regs 0x2005 1 4 = v.toNat :=
    (z.regs_takeWords 0x2005 1 v.toNat 4).trans (Nat.mod_eq_of_lt v.isLt)
  have hmap : (z.takeWords 0x2005 1 v.toNat (List.range 4)).map = s.map :=
    (State.map_takeWords (by decide)).trans (s.map_setPath h _)
  obtain ⟨h1, h2, h3, h4⟩ := (z.takeWords 0x2005 1 v.toNat (List.range 4)).live2_decode
  rw [hregs, hmap] at h1 h2 h3 h4
  exact ⟨_, hx, hregs, h1, h2, h3, h4, (s.setPath_frame h _).then (z.takeWords_frame _ _ _ _)⟩

end Sys2Proof.Machine

/-!
Words that cross the faces, read back from their bits (R88, R90, R213, R242, R243): a field spelled above others is found at its own place, and neighbouring
fields put side by side make the bits they were cut from.
-/
namespace Sys2Proof.Machine
open Sys2Proof

/-! ### Fields side by side -/

/-- A flag spelled as one bit is read back. -/
theorem bit_append_ofBool {n : Nat} (x : BitVec n) (b : Bool) : bit (x ++ BitVec.ofBool b) 0 = b := by
  rw [bit, BitVec.getLsbD_append, if_pos Nat.one_pos, BitVec.getLsbD_ofBool, decide_eq_true rfl, Bool.true_and]

theorem bit_ofBool (b : Bool) : bit (BitVec.ofBool b) 0 = b := by
  rw [bit, BitVec.getLsbD_ofBool, decide_eq_true rfl, Bool.true_and]

/-- A bit above the lowest field belongs to those above it. -/
theorem bit_append_of_le {n k i : Nat} (x : BitVec n) (y : BitVec k) (h : k ≤ i) : bit (x ++ y) i = bit x (i - k) := by
  rw [bit, BitVec.getLsbD_append, if_neg (Nat.not_lt.mpr h), bit]

/-- A flag cut from a value is the field of one bit at its place. -/
theorem ofBool_bit {n : Nat} (x : BitVec n) (i : Nat) : BitVec.ofBool (bit x i) = x.extractLsb' i 1 := by
  refine BitVec.eq_of_getLsbD_eq fun j hj => ?_
  obtain rfl : j = 0 := by omega
  simp [bit]

/-! ### Request words -/

theorem opOf_opBits (op : Op) : opOf (opBits op) = some op := by cases op <;> decide

theorem ReqWord.ofBits_bits (w : ReqWord) (c : BitVec 4) : ReqWord.ofBits (w.bits c) w.sideband w.desc = w := by
  simp (disch := decide) only [ReqWord.ofBits, ReqWord.bits, ReqWord.sideband, bit_append_of_le, bit_append_ofBool, bit_ofBool, Nat.reduceSub,
    BitVec.extractLsb'_append_eq_of_le, BitVec.extractLsb'_append_eq_right, BitVec.extractLsb'_eq_self]

theorem opField_bits (w : ReqWord) (c : BitVec 4) : opField (w.bits c) = c := by
  simp (disch := decide) only [opField, ReqWord.bits, Nat.reduceSub, BitVec.extractLsb'_append_eq_of_le, BitVec.extractLsb'_append_eq_right]

theorem ReqWord.bits_ofBits {b : BitVec 96} (side : BitVec 4) (d : Option CDesc) (h : b.extractLsb' 0 16 = 0) :
    (ReqWord.ofBits b side d).bits (opField b) = b := by
  simp only [ReqWord.bits, ReqWord.ofBits, opField, ofBool_bit, ← h]
  simp (disch := decide) only [BitVec.extractLsb'_append_extractLsb'_eq_extractLsb']
  exact BitVec.extractLsb'_eq_self

theorem ReqWord.sideband_ofBits (b : BitVec 96) (side : BitVec 4) (d : Option CDesc) : (ReqWord.ofBits b side d).sideband = side := by
  simp (disch := decide) only [ReqWord.sideband, ReqWord.ofBits, ofBool_bit, BitVec.extractLsb'_append_extractLsb'_eq_extractLsb']
  exact BitVec.extractLsb'_eq_self

theorem requestWordsRoundTrip : Claims.RequestWordsRoundTrip := by
  refine ⟨fun w op => ⟨w.ofBits_bits _, ?_⟩, fun b side d h => ⟨ReqWord.bits_ofBits side d h, ReqWord.sideband_ofBits b side d⟩⟩
  rw [opField_bits, opOf_opBits]

/-! ### Cipher descriptors and write lines -/

theorem CDesc.ofBits_bits (d : CDesc) : CDesc.ofBits d.bits = d := by
  simp (disch := decide) only [CDesc.ofBits, CDesc.bits, bit_append_of_le, bit_append_ofBool, Nat.reduceSub,
    BitVec.extractLsb'_append_eq_of_le, BitVec.extractLsb'_append_eq_right, BitVec.extractLsb'_eq_self]

theorem CDesc.bits_ofBits (b : BitVec 304) : (CDesc.ofBits b).bits = b := by
  simp (disch := decide) only [CDesc.bits, CDesc.ofBits, ofBool_bit, BitVec.extractLsb'_append_extractLsb'_eq_extractLsb']
  exact BitVec.extractLsb'_eq_self

theorem WLine.ofBits_sideband (l : WLine) : WLine.ofBits l.sideband l.data = l := by
  simp (disch := decide) only [WLine.ofBits, WLine.sideband, bit_append_of_le, bit_append_ofBool, Nat.reduceSub,
    BitVec.extractLsb'_append_eq_of_le, BitVec.extractLsb'_eq_self]

theorem WLine.sideband_ofBits (b : BitVec 4) (d : Line) : (WLine.ofBits b d).sideband = b := by
  simp (disch := decide) only [WLine.sideband, WLine.ofBits, ofBool_bit, BitVec.extractLsb'_append_extractLsb'_eq_extractLsb']
  exact BitVec.extractLsb'_eq_self

/-- Settles O59: in each of the three formats every field stands at the place it is read from, and the fields together are all the bits but the ignored ones. -/
theorem wordsRoundTrip : Obligations.WordsRoundTrip :=
  ⟨requestWordsRoundTrip, CDesc.ofBits_bits, CDesc.bits_ofBits, WLine.ofBits_sideband, fun b d => ⟨WLine.sideband_ofBits b d, rfl⟩⟩

end Sys2Proof.Machine

/-!
Writes that act at once on their path (R374, R383): one word of an RW object that every phase takes, and the WO commands of the mailbox and the log.
-/
namespace Sys2Proof.Machine
open Sys2Proof

variable {s t : State}

/-! ### The path after a write -/

/-- Nothing is left assembled on the path (R376). -/
def State.noAsm (s : State) (h : Path) : State := s.setPath h { s.path h with asm := none }

theorem State.noAsm_frame (s : State) (h : Path) : OnlyChanges [pathField h] s (s.noAsm h) := s.setPath_frame h _

theorem State.forgetAsm_frame (s : State) (h : Path) (k : Nat) : OnlyChanges [pathField h] s (s.forgetAsm h k) := by
  unfold State.forgetAsm
  split
  · split
    · exact fun f _ => s.same_refl f
    · exact s.setPath_frame h _
  · exact fun f _ => s.same_refl f

/-- A part of the state that is no path's stands after a step that changes one path alone. -/
theorem OnlyChanges.off_path {h : Path} {f : Field} (k : OnlyChanges [pathField h] s t) (hw : f ≠ .win) (hb : f ≠ .bus) : s.same t f :=
  k f (by cases h <;> simpa [pathField])

/-- What an event says of its moment does not depend on the paths. -/
theorem LogsOne.of_path {h : Path} {u : State} {code : Nat} {args : List Word} (k : OnlyChanges [pathField h] s t) (l : LogsOne t u code args) :
    LogsOne s u code args := by
  have hi : t.ident = s.ident := k.off_path (f := .ident) (by decide) (by decide)
  have hc : t.clk = s.clk := k.off_path (f := .clk) (by decide) (by decide)
  have hb : t.boot = s.boot := k.off_path (f := .boot) (by decide) (by decide)
  have hl : t.log = s.log := k.off_path (f := .log) (by decide) (by decide)
  simpa only [LogsOne, State.event, State.t, State.ns, hi, hc, hb, hl] using l

/-! ### One word of an RW object that acts at once -/

section
variable {h : Path} {i x : Nat} {row : RegRow} {v : Word} (hd : s.dictOn = true) (hr : regRow i x = some row) (hw : row.w = 1) (ha : row.acc = .rw)
  (hp : isPkgWide i x = false) (hs : actsAtOnce i x = true)
include hd hr hw ha

/-- The object's one part is written, with nothing left assembled. -/
theorem State.write_now :
    s.write h i x [v] = ((s.forgetAsm h (wkey i x)).writeRw (some h) false State.rwCmd (onePart row i x v)).1 := by
  have hl : s.latched h row = s := by simp [State.latched, ha]
  rw [State.write_one hd hr hw, hl, State.writePart_one]
  simp only [ha]

include hp hs

/-- A word that spells a command is carried out. -/
theorem State.write_cmd {r : State × Nat} (hc : (s.noAsm h).rwCmd i x (v &&& keptBits i x).toNat = some r) : s.write h i x [v] = r.1 := by
  rw [State.write_now hd hr hw ha, State.writeRw_one _ _ _ _ _ _ _ hw (by simp [hp]) (by simp [State.toStage, onePart, ha, hs])]
  simp only [State.setAsm_forgetAsm]
  rw [show State.rwCmd (s.setPath h { s.path h with asm := none }) _ _ _ = _ from hc]

/-- Any other word in its range is taken, without its reserved bits. -/
theorem State.write_put (hc : (s.noAsm h).rwCmd i x (v &&& keptBits i x).toNat = none)
    (hb : (s.noAsm h).badValue i x (v &&& keptBits i x).toNat = none) :
    s.write h i x [v] = (s.noAsm h).putValue (some h) (onePart row i x v) (v &&& keptBits i x).toNat := by
  rw [State.write_now hd hr hw ha, State.writeRw_one _ _ _ _ _ _ _ hw (by simp [hp]) (by simp [State.toStage, onePart, ha, hs])]
  simp only [State.setAsm_forgetAsm]
  rw [show State.rwCmd (s.setPath h { s.path h with asm := none }) _ _ _ = _ from hc,
    show State.badValue (s.setPath h { s.path h with asm := none }) _ _ _ = _ from hb]
  rfl
end

theorem State.reg_noAsm (s : State) (h : Path) (i x : Nat) : (s.noAsm h).reg i x = s.reg i x := by cases h <;> rfl

/-! ### CREDITS -/

/-- The row of CREDITS (R111). -/
def creditsRow : RegRow := { i0 := 0x3000, i1 := 0x301F, s0 := 3, s1 := 3, acc := .rw }

theorem regRow_credits : ∀ p : Port, regRow (0x3000 + p) 3 = some creditsRow := by decide

theorem isPkgWide_port (p : Port) (x : Nat) : isPkgWide (0x3000 + p) x = false := by
  have hlt := p.isLt
  simp [isPkgWide, isAclKey]
  omega

theorem State.rwCmd_port (s : State) (p : Port) (x v : Nat) : s.rwCmd (0x3000 + p) x v = none := by
  have hlt := p.isLt
  unfold State.rwCmd
  repeat rw [if_neg (by omega)]

/-- A word of a CREDITS object holds every bit that is written. -/
theorem keptBits_credits (p : Port) : keptBits (0x3000 + p) 3 = 0xFFFF := by
  revert p
  decide

theorem w16_toNat (v : Word) : w16 v.toNat = v := by simp [w16]

theorem actsAtOnce_port : ∀ p : Port, actsAtOnce (0x3000 + p) 1 = true ∧ actsAtOnce (0x3000 + p) 3 = true := by decide

theorem State.badValue_credits (s : State) {p : Port} {v : Word} (h1 : p.val ≠ 28) (h2 : p.val ≠ 29)
    (hv : 1 ≤ fld v 15 8 ∧ fld v 15 8 ≤ 64 ∧ 1 ≤ fld v 7 0 ∧ fld v 7 0 ≤ 32) : s.badValue (0x3000 + p) 3 v.toNat = none := by
  have hlt := p.isLt
  unfold State.badValue
  simp only [w16_toNat]
  repeat rw [if_neg (by omega)]
  rw [if_pos (by omega), if_neg (by omega), if_pos trivial, if_pos (by simpa [and_assoc] using hv)]

theorem State.took_credits (s : State) (p : Port) : s.took (0x3000 + p) 3 = s := by
  have hlt := p.isLt
  unfold State.took
  simp only [show ¬(3 : Nat) = 4 by decide, and_false, dif_neg, not_false_iff]
  repeat rw [if_neg (by omega)]

/-- CREDITS are applied as they are written, and nothing follows. -/
theorem State.putValue_credits (s : State) (h : Path) (p : Port) (v : Word) :
    s.putValue (some h) (onePart creditsRow (0x3000 + p) 3 v) v.toNat = (s.dropStaged (0x3000 + p) 3).setReg (0x3000 + p) 3 v := by
  have hlt := p.isLt
  have ht : s.toStage (onePart creditsRow (0x3000 + p) 3 v) = false := by
    simp [State.toStage, onePart, creditsRow, (actsAtOnce_port p).2]
  have hv : wordAt v.toNat 0 = v := by simp [wordAt]
  unfold State.putValue
  rw [if_neg (by simp [ht]), if_neg (by show ¬(0x3000 + p.val = 0x1201); omega), dif_neg (fun e => absurd e.2.2 (by show ¬(3 = 1); decide))]
  show ((s.dropStaged (0x3000 + p) 3).setReg (0x3000 + p) 3 (wordAt v.toNat 0)).took (0x3000 + p) 3 = _
  rw [State.took_credits, hv]

theorem State.write_credits (h : Path) {p : Port} {v : Word} (hd : s.dictOn = true) (h1 : p.val ≠ 28) (h2 : p.val ≠ 29)
    (hv : 1 ≤ fld v 15 8 ∧ fld v 15 8 ≤ 64 ∧ 1 ≤ fld v 7 0 ∧ fld v 7 0 ≤ 32) :
    s.write h (0x3000 + p) 3 [v] = ((s.noAsm h).dropStaged (0x3000 + p) 3).setReg (0x3000 + p) 3 v := by
  have hlt := p.isLt
  have hk : v &&& keptBits (0x3000 + p) 3 = v := by rw [keptBits_credits]; exact BitVec.and_allOnes
  rw [State.write_put hd (regRow_credits p) rfl rfl (isPkgWide_port p 3) (actsAtOnce_port p).2 (State.rwCmd_port _ _ _ _) (by rw [hk]; exact State.badValue_credits _ h1 h2 hv),
    hk, State.putValue_credits]

/-! ### One word of the dictionary -/

theorem State.onlyWord_setReg (s : State) (i x : Nat) (v : Word) : OnlyWord s (s.setReg i x v) i x :=
  ⟨rfl, fun _ hk => ⟨SMap.look_put_ne _ _ v hk, rfl⟩⟩

theorem State.onlyWord_dropStaged (s : State) (i x : Nat) : OnlyWord s (s.dropStaged i x) i x :=
  ⟨rfl, fun _ hk => ⟨rfl, SMap.look_del_ne _ hk⟩⟩

theorem OnlyWord.trans {u : State} {i x : Nat} (h : OnlyWord s t i x) (k : OnlyWord t u i x) : OnlyWord s u i x :=
  ⟨k.1.trans h.1, fun j hj => ⟨(k.2 j hj).1.trans (h.2 j hj).1, (k.2 j hj).2.trans (h.2 j hj).2⟩⟩

/-- A step that leaves the dictionary alone leaves every word as it was. -/
theorem OnlyWord.of_dict {u : State} {i x : Nat} (h : OnlyWord s t i x) (e : u.dict = t.dict) : OnlyWord s u i x := by
  unfold OnlyWord
  rw [e]
  exact h

theorem OnlyWord.of_same {i x : Nat} (e : t.dict = s.dict) : OnlyWord s t i x := OnlyWord.of_dict ⟨rfl, fun _ _ => ⟨rfl, rfl⟩⟩ e

theorem State.noAsm_dict (s : State) (h : Path) : (s.noAsm h).dict = s.dict := s.setPath_dict h _

theorem State.setReg_frame (s : State) (i x : Nat) (v : Word) : OnlyChanges [.dict] s (s.setReg i x v) :=
  Fr.only (M := 2 ^ 6) (Fr.upd (Fr.refl s) rfl) (by decide)

theorem State.dropStaged_frame (s : State) (i x : Nat) : OnlyChanges [.dict] s (s.dropStaged i x) :=
  Fr.only (M := 2 ^ 6) (Fr.upd (Fr.refl s) rfl) (by decide)

/-- The list of a frame may be given in any order, and longer. -/
theorem OnlyChanges.mono {l m : List Field} (h : OnlyChanges l s t) (hl : l ⊆ m) : OnlyChanges m s t := fun f hf => h f fun k => hf (hl k)

theorem creditsWriteActs : Claims.CreditsWriteActs := by
  intro s h p v hd h1 h2 a1 a2 a3 a4
  have hx : exec (.creditsWrite h p v) s = .next (((s.noAsm h).dropStaged (0x3000 + p) 3).setReg (0x3000 + p) 3 v) :=
    congrArg _ (State.write_credits h hd h1 h2 ⟨a1, a2, a3, a4⟩)
  refine ⟨_, hx, State.reg_setReg_same _ _ _ _, ?_, ?_⟩
  · exact (OnlyWord.of_same (s.noAsm_dict h)).trans ((State.onlyWord_dropStaged _ _ _).trans (State.onlyWord_setReg _ _ _ _))
  · exact ((s.noAsm_frame h).then ((State.dropStaged_frame _ _ _).then (State.setReg_frame _ _ _ _))).mono (by simp)

/-! ### PHASE -/

/-- The row of PHASE and COMMIT_LEAD (R382). -/
def phaseRow : RegRow := { i0 := 0x1500, i1 := 0x1500, s0 := 0, s1 := 2, acc := .rw }

/-- A write of PHASE is the command of its value (R382). -/
theorem State.write_phase (h : Path) (v : Word) (hd : s.dictOn = true) : s.write h 0x1500 0 [v] = ((s.noAsm h).phaseCmd v.toNat).1 :=
  have hk : v &&& keptBits 0x1500 0 = v := BitVec.and_allOnes
  State.write_cmd (row := phaseRow) hd (by decide) rfl rfl (by decide) (by decide) (by rw [hk]; rfl)

/-- PHASE reads the same whatever assembly a path holds. -/
theorem State.phase_noAsm (s : State) (h : Path) : (s.noAsm h).phaseWord = s.phaseWord := by cases h <;> rfl

theorem phaseWrites : Claims.PhaseWrites := by
  intro s h v hd
  have hx : exec (.phaseWrite h v) s = .next ((s.noAsm h).phaseCmd v.toNat).1 := congrArg _ (State.write_phase h v hd)
  have hp : (s.noAsm h).phase = s.phase := congrArg BitVec.toNat (s.phase_noAsm h)
  set z := s.noAsm h with hz
  constructor
  · intro a1 a2 a3 a4
    rw [State.phaseCmd, hp, if_pos ⟨a1, a2, a3, a4⟩] at hx
    have hc : z.clk = s.clk := by rw [hz, State.noAsm, State.setPath_clk]
    refine ⟨_, hx, ?_, fun k hk => ?_, ?_, ?_, ?_⟩
    · show BitVec.toNat (if z.clk.now < z.clk.now then _ else z.phaseWord) = _
      rw [if_neg (Nat.lt_irrefl _)]
      exact hp
    · show BitVec.toNat (if z.clk.now < k.now then w16 v.toNat else z.phaseWord) = _
      rw [hc, if_pos hk, w16_toNat]
    · rw [← s.noAsm_dict h]
    · rw [← s.noAsm_dict h]
    · exact ((s.noAsm_frame h).then (m := [.dict]) (Fr.only (M := 2 ^ 6) (Fr.upd (Fr.refl z) rfl) (by decide))).mono (by simp)
  · intro hv
    rw [State.phaseCmd, hp, if_neg (by omega)] at hx
    have hd1 : z.dom 1 = true := by rw [hz, State.dom, State.noAsm, State.setPath_pd]; exact hd
    exact ⟨_, hx, (State.log1_logs hd1).of_path (s.noAsm_frame h), ((s.noAsm_frame h).then (z.log1_frame _ _)).mono (by simp)⟩

/-! ### The mailbox and the log -/

/-- The row of MBOX_POP and MBOX_CLEAR (R113). -/
def mboxRow : RegRow := { i0 := 0x3100, i1 := 0x311F, s0 := 5, s1 := 6, acc := .wo }

theorem regRow_mbox : ∀ p : Port, regRow (0x3100 + p) 5 = some mboxRow ∧ regRow (0x3100 + p) 6 = some mboxRow := by decide

/-- The row of LOG_POP and LOG_CLEAR (R389). -/
def logRow : RegRow := { i0 := 0x9000, i1 := 0x9000, s0 := 5, s1 := 6, acc := .wo }

theorem State.avail_forgetAsm (s : State) (h : Path) (k i : Nat) : (s.forgetAsm h k).avail i = s.avail i := by
  have hp : (s.forgetAsm h k).pd = s.pd := (s.forgetAsm_frame h k).off_path (f := .pd) (by decide) (by decide)
  simp only [State.avail, State.dom, hp]

/-- The objects of all ports stand in one domain (R391). -/
theorem State.avail_port (s : State) (p : Port) : s.avail (0x3100 + p) = s.avail 0x3100 := by
  have : domainsOf (0x3100 + p) = domainsOf 0x3100 := by revert p; decide
  rw [State.avail, State.avail, this]

theorem State.port_of_ports (e : t.ports = s.ports) (k : Nat) : t.port k = s.port k := by rw [State.port, State.port, e]

theorem State.port_forgetAsm (s : State) (h : Path) (a k : Nat) : (s.forgetAsm h a).port k = s.port k :=
  State.port_of_ports ((s.forgetAsm_frame h a).off_path (f := .ports) (by decide) (by decide)) k

@[simp] theorem State.port_setPort_same (s : State) (p : Nat) (v : PortSt) : (s.setPort p v).port p = v := SMap.getD_put_same _ _ _ _

theorem State.port_setPort_ne (s : State) {p k : Nat} (v : PortSt) (h : k ≠ p) : (s.setPort p v).port k = s.port k := SMap.getD_put_ne _ _ _ h

theorem State.setPort_frame (s : State) (p : Nat) (v : PortSt) : OnlyChanges [.ports] s (s.setPort p v) :=
  Fr.only (M := 2 ^ 16) (Fr.upd (Fr.refl s) rfl) (by decide)

/-- A mailbox command written to port p (R113), x being its subindex. -/
theorem State.write_mbox (h : Path) (p : Port) {x : Nat} (hr : regRow (0x3100 + p) x = some mboxRow) (hd : s.dictOn = true) (hv : s.avail 0x3100 = true) :
    s.write h (0x3100 + p) x [1] = ((s.forgetAsm h (wkey (0x3100 + p) x)).mboxCmd p x 1).1 := by
  have hlt := p.isLt
  rw [State.write_wo hd hr rfl rfl (by rw [State.avail_forgetAsm, State.avail_port, hv])]
  unfold State.woCmd
  rw [if_neg (by omega), if_neg (by omega), if_pos (by omega), Option.getD_some, Nat.add_sub_cancel_left]
  rfl

/-- The port after a mailbox command, beside the path's assembly: `v` is what the command makes of it. -/
theorem mbox_frames (s : State) (h : Path) (k : Nat) (p : Port) (v : PortSt) :
    OnlyPort s ((s.forgetAsm h k).setPort p v) p ∧ OnlyChanges [.ports, pathField h] s ((s.forgetAsm h k).setPort p v) :=
  ⟨fun j hj => (State.port_setPort_ne _ _ hj).trans (s.port_forgetAsm h k j), (s.forgetAsm_frame h k).then (State.setPort_frame _ _ _)⟩

theorem mailboxCommands : Claims.MailboxCommands := by
  intro s h p hd hv
  have hx (c : Nat) (hr : regRow (0x3100 + p) c = some mboxRow) := State.write_mbox h p hr hd hv
  constructor
  · refine ⟨_, congrArg Host.Outcome.next (hx 5 (regRow_mbox p).1), ?_⟩
    simp only [State.mboxCmd, ne_eq, not_true_eq_false, if_false, if_true, State.port_setPort_same, State.port_forgetAsm, true_and]
    exact mbox_frames s h _ p _
  · refine ⟨_, congrArg Host.Outcome.next (hx 6 (regRow_mbox p).2), ?_⟩
    simp only [State.mboxCmd, ne_eq, not_true_eq_false, if_false, Nat.reduceEqDiff, State.port_setPort_same, State.port_forgetAsm, true_and]
    exact mbox_frames s h _ p _

theorem State.write_logCmd (h : Path) {x : Nat} (hr : regRow 0x9000 x = some logRow) (hd : s.dictOn = true) :
    s.write h 0x9000 x [1] = ((s.forgetAsm h (wkey 0x9000 x)).logCmd x 1).1 := by
  have hv : s.avail 0x9000 = true := (Bool.or_false _).trans hd
  rw [State.write_wo hd hr rfl rfl (by rw [State.avail_forgetAsm, hv])]
  rfl

theorem logCommands : Claims.LogCommands := by
  intro s h hd
  have hl (k : Nat) : (s.forgetAsm h k).log = s.log := (s.forgetAsm_frame h k).off_path (f := .log) (by decide) (by decide)
  have hf (k : Nat) (l : Log) : OnlyChanges [.log, pathField h] s { s.forgetAsm h k with log := l } :=
    (s.forgetAsm_frame h k).then (m := [.log]) (Fr.only (M := 2 ^ 9) (Fr.upd (Fr.refl _) rfl) (by decide))
  constructor
  · refine ⟨_, congrArg Host.Outcome.next (State.write_logCmd h (x := 5) (by decide) hd), ?_⟩
    simp only [State.logCmd, ne_eq, not_true_eq_false, if_false, if_true, hl, true_and]
    exact hf _ _
  · refine ⟨_, congrArg Host.Outcome.next (State.write_logCmd h (x := 6) (by decide) hd), ?_⟩
    simp only [State.logCmd, ne_eq, not_true_eq_false, if_false, Nat.reduceEqDiff, hl, true_and]
    exact hf _ _

/-- Settles O11: each write is one word that acts in every phase. That the mailbox commands act in push mode too is the model's choice (log entry 72), as is
the layout of event 0x0F06 (log entry 11). -/
theorem immediateWrites : Obligations.ImmediateWrites := ⟨creditsWriteActs, mailboxCommands, logCommands, phaseWrites⟩

end Sys2Proof.Machine

/-!
How the operations of the ports move a port (R91 to R107): each leaves every other port alone and touches a few parts of the state, and each makes a
known change to its own port, after which XOFF and PANIC follow the level.
-/
namespace Sys2Proof.Machine
open Sys2Proof

variable {s t u : State} {l : List Field} {p : Port}

/-! ### Frames of one port -/

/-- Only one port differs, and no part of the state but those listed. -/
def PortFrame (l : List Field) (p : Port) (s t : State) : Prop := OnlyPort s t p ∧ OnlyChanges l s t

theorem PortFrame.refl (s : State) : PortFrame l p s s := ⟨fun _ _ => rfl, fun f _ => s.same_refl f⟩

theorem PortFrame.trans (h : PortFrame l p s t) (k : PortFrame l p t u) : PortFrame l p s u :=
  ⟨fun j hj => (k.1 j hj).trans (h.1 j hj), fun f hf => State.same_trans (h.2 f hf) (k.2 f hf)⟩

theorem PortFrame.mono {m : List Field} (h : PortFrame l p s t) (hl : l ⊆ m) : PortFrame m p s t := ⟨h.1, h.2.mono hl⟩

/-- An operation after others, what it touches being among what they touch. -/
theorem PortFrame.next {m : List Field} (h : PortFrame l p s t) (k : PortFrame m p t u) (hm : m ⊆ l := by simp) : PortFrame l p s u :=
  h.trans (k.mono hm)

/-- A step that touches no port. -/
theorem PortFrame.off_ports (h : OnlyChanges l s t) (hl : Field.ports ∉ l) : PortFrame l p s t :=
  ⟨fun k _ => State.port_of_ports (h .ports hl) k, h⟩

theorem PortFrame.foldl {α : Type} (xs : List α) (f : State → α → State) (hf : ∀ a x, PortFrame l p a (f a x)) (s : State) :
    PortFrame l p s (xs.foldl f s) := by
  induction xs generalizing s with
  | nil => exact .refl s
  | cons x r ih => exact (hf s x).trans (ih _)

theorem PortFrame.setPort (s : State) (p : Port) (v : PortSt) : PortFrame [.ports] p s (s.setPort p v) :=
  ⟨fun _ hk => State.port_setPort_ne s v hk, s.setPort_frame p v⟩

theorem PortFrame.emit (s : State) (o : Out) : PortFrame [.out] p s (s.emit o) :=
  .off_ports (Fr.only (M := 2 ^ 2) (Fr.upd (Fr.refl s) rfl) (by decide)) (by decide)

theorem PortFrame.ring (s : State) (m : RingMsg) : PortFrame [.out] p s (s.ring m) := .emit s _

theorem PortFrame.log1 (s : State) (code : Nat) (args : List Word) : PortFrame [.log, .maint, .out] p s (s.log1 code args) :=
  .off_ports (s.log1_frame code args) (by decide)

@[simp] theorem State.port_emit (s : State) (o : Out) (k : Nat) : (s.emit o).port k = s.port k := rfl

@[simp] theorem State.port_ring (s : State) (m : RingMsg) (k : Nat) : (s.ring m).port k = s.port k := rfl

@[simp] theorem State.port_log1 (s : State) (code : Nat) (args : List Word) (k : Nat) : (s.log1 code args).port k = s.port k :=
  State.port_of_ports (s.log1_ports code args) k

/-! ### XOFF and PANIC follow the level -/

/-- A port whose XOFF and PANIC have followed its level, `w` being its WATERMARKS (R100, R101). -/
def PortSt.flowed (q : PortSt) (p : Nat) (w : Word) : PortSt :=
  { q with xoff := nextXoff (fld w 15 8) (fld w 7 0) (q.watched p) q.xoff,
           panic := nextPanic p (fld w 15 8) (fld w 7 0) (q.watched p) q.reading q.panic }

section
variable (q : PortSt) (k : Nat) (w : Word)
@[simp] theorem PortSt.flowed_epoch : (q.flowed k w).epoch = q.epoch := rfl
@[simp] theorem PortSt.flowed_live : (q.flowed k w).live = q.live := rfl
@[simp] theorem PortSt.flowed_reqCred : (q.flowed k w).reqCred = q.reqCred := rfl
@[simp] theorem PortSt.flowed_wrCred : (q.flowed k w).wrCred = q.wrCred := rfl
@[simp] theorem PortSt.flowed_queue : (q.flowed k w).queue = q.queue := rfl
@[simp] theorem PortSt.flowed_early : (q.flowed k w).early = q.early := rfl
@[simp] theorem PortSt.flowed_fifo : (q.flowed k w).fifo = q.fifo := rfl
@[simp] theorem PortSt.flowed_flush : (q.flowed k w).flush = q.flush := rfl
@[simp] theorem PortSt.flowed_flushOff : (q.flowed k w).flushOff = q.flushOff := rfl
@[simp] theorem PortSt.flowed_onward : (q.flowed k w).onward = q.onward := rfl
@[simp] theorem PortSt.flowed_resets : (q.flowed k w).resets = q.resets := rfl
end

/-- Where the high mark is not 0 a port that holds nothing has XOFF clear (R100). -/
theorem nextXoff_empty {hi lo : Nat} (h : 1 ≤ hi) (old : Bool) : nextXoff hi lo 0 old = false := by
  rw [nextXoff, if_neg (by omega), if_pos (Nat.zero_le _)]

theorem State.port_setPanic (s : State) (p : Port) (b : Bool) : (s.setPanic p b).port p = { s.port p with panic := b } := by
  unfold State.setPanic
  simp only []
  split
  · next h => rw [← h]
  · simp

theorem PortFrame.setPanic (s : State) (p : Port) (b : Bool) : PortFrame [.ports, .out] p s (s.setPanic p b) := by
  unfold State.setPanic
  simp only []
  split
  · exact .refl s
  · exact ((PortFrame.refl s).next (.setPort s p _)).next (.ring _ _)

theorem State.out_setPanic (s : State) (p : Port) (b : Bool) : (s.setPanic p b).out = s.out ∨ (s.setPanic p b).out = s.out ++ [.ring (.panic p b)] := by
  unfold State.setPanic
  simp only []
  split
  · exact .inl rfl
  · exact .inr rfl

@[simp] theorem State.port_watch (s : State) (p : Port) : (s.watch p).port p = (s.port p).flowed p (s.reg (0x3000 + p) 4) := by
  rw [State.watch, State.port_setPanic, State.port_setPort_same]
  rfl

theorem PortFrame.watch (s : State) (p : Port) : PortFrame [.ports, .out] p s (s.watch p) :=
  ((PortFrame.refl s).next (.setPort s p _)).next (.setPanic _ p _)

/-- The one message that a level may cause is the change of PANIC (R101). -/
theorem State.out_watch (s : State) (p : Port) : (s.watch p).out = s.out ∨ ∃ on, (s.watch p).out = s.out ++ [.ring (.panic p on)] :=
  (State.out_setPanic (s.setPort p _) p _).imp_right fun h => ⟨_, h⟩

/-! ### Credits and beats -/

/-- Return words touch the record of outputs alone. -/
theorem State.each_return (s : State) (p : Port) (e : BitVec 2) (xs : List (Nat × Nat)) :
    s.each xs (fun a x => a.emit (.returnWord p e x.1 x.2)) = { s with out := s.out ++ xs.map fun x => .returnWord p e x.1 x.2 } := by
  unfold State.each
  induction xs generalizing s with
  | nil => simp
  | cons x r ih => rw [List.foldl_cons, ih]; simp [State.emit]

theorem PortFrame.retCred (s : State) (p : Port) (nr nw : Nat) : PortFrame [.ports, .out] p s (s.retCred p nr nw) := by
  have h : PortFrame [.ports, .out] p s (s.setPort p { s.port p with reqCred := (s.port p).reqCred + nr, wrCred := (s.port p).wrCred + nw }) :=
    (PortFrame.refl s).next (.setPort s p _)
  exact h.trans (.foldl _ _ (fun a _ => (PortFrame.refl a).next (.emit a _)) _)

@[simp] theorem State.port_retCred (s : State) (p : Port) (nr nw : Nat) :
    (s.retCred p nr nw).port p = { s.port p with reqCred := (s.port p).reqCred + nr, wrCred := (s.port p).wrCred + nw } := by
  rw [State.retCred, State.each_return]
  exact State.port_setPort_same _ _ _

theorem PortFrame.retCredOf (s : State) (p : Port) (e : BitVec 2) (nr nw : Nat) : PortFrame [.ports, .out] p s (s.retCredOf p e nr nw) := by
  unfold State.retCredOf
  split
  · exact .retCred s p nr nw
  · exact .refl s

/-- Credits that do not return leave the port as it is; those that do change no other part of it (R95). -/
theorem State.port_retCredOf (s : State) (p : Port) (e : BitVec 2) (nr nw : Nat) :
    ∃ a b, (s.retCredOf p e nr nw).port p = { s.port p with reqCred := a, wrCred := b } := by
  unfold State.retCredOf
  split
  · exact ⟨_, _, s.port_retCred p nr nw⟩
  · exact ⟨_, _, rfl⟩

theorem PortFrame.pushBeat (s : State) (p : Port) (b : Beat) (a : Nat) : PortFrame [.ports, .out] p s (s.pushBeat p b a) :=
  ((PortFrame.refl s).next (.setPort s p _)).next (.watch _ p)

@[simp] theorem State.port_pushBeat (s : State) (p : Port) (b : Beat) (a : Nat) :
    (s.pushBeat p b a).port p = PortSt.flowed { s.port p with fifo := (s.port p).fifo ++ [(b, a)] } p (s.reg (0x3000 + p) 4) := by
  rw [State.pushBeat, State.port_watch, State.port_setPort_same]
  rfl

/-! ### MASTER_RESETs that are done -/

theorem PortFrame.finishResets (s : State) (p : Port) : PortFrame [.ports, .out] p s (s.finishResets p) :=
  ((PortFrame.refl s).next (.setPort s p _)).trans (.foldl _ _ (fun a _ => .pushBeat a p _ _) _)

/-- With no MASTER_RESET under way nothing is answered. -/
theorem State.finishResets_none (h : (s.port p).resets = []) : s.finishResets p = s.setPort p (s.port p) := by
  have hq : { s.port p with resets := [] } = s.port p := by rw [← h]
  simp [State.finishResets, h, hq]

/-! ### Onward requests -/

theorem PortFrame.setOnward (s : State) (p : Port) (o : Onward) : PortFrame [.ports] p s (s.setOnward p o) := .setPort s p _

@[simp] theorem State.port_setOnward (s : State) (p : Port) (o : Onward) :
    (s.setOnward p o).port p = { s.port p with onward := (s.port p).onward.map fun x => if x.txid = o.txid then o else x } :=
  State.port_setPort_same _ _ _

theorem PortFrame.addOut (s : State) (m : BitVec 8) (d : Int) : PortFrame [.budget] p s (s.addOut m d) :=
  .off_ports (Fr.only (M := 2 ^ 17) (Fr.upd (Fr.refl s) rfl) (by decide)) (by decide)

theorem PortFrame.addShare (s : State) (h : Nat) (d : Int) : PortFrame [.budget] p s (s.addShare h d) :=
  .off_ports (Fr.only (M := 2 ^ 17) (Fr.upd (Fr.refl s) rfl) (by decide)) (by decide)

@[simp] theorem State.port_addOut (s : State) (m : BitVec 8) (d : Int) (k : Nat) : (s.addOut m d).port k = s.port k := rfl

@[simp] theorem State.port_addShare (s : State) (h : Nat) (d : Int) (k : Nat) : (s.addShare h d).port k = s.port k := rfl

theorem PortFrame.freeIfDone (s : State) (k : Nat) : PortFrame [.cipher] p s (s.freeIfDone k) := by
  refine .off_ports ?_ (by decide)
  unfold State.freeIfDone
  split
  · exact fun f _ => s.same_refl f
  · split
    · exact Fr.only (M := 2 ^ 26) (Fr.upd (Fr.refl s) rfl) (by decide)
    · exact fun f _ => s.same_refl f

/-- An onward request that ends, but for the cipher queue's entry that may end with it (R105, R132, R138). -/
def State.gaveUp (s : State) (p : Port) (o : Onward) : State :=
  let s1 := (s.setPort p { s.port p with onward := (s.port p).onward.filter fun x => x.txid ≠ o.txid }).addOut o.master (-1)
  (if o.share then s1.addShare o.home (-1) else s1)

theorem State.endOnward_eq (s : State) (p : Port) (o : Onward) :
    s.endOnward p o = match o.cent with
      | some k => (((s.gaveUp p o).watch p).finishResets p).freeIfDone k
      | none => ((s.gaveUp p o).watch p).finishResets p := rfl

theorem PortFrame.gaveUp (s : State) (p : Port) (o : Onward) : PortFrame [.ports, .budget] p s (s.gaveUp p o) := by
  have h : PortFrame [.ports, .budget] p s
      ((s.setPort p { s.port p with onward := (s.port p).onward.filter fun x => x.txid ≠ o.txid }).addOut o.master (-1)) :=
    ((PortFrame.refl s).next (.setPort s p _)).next (.addOut _ _ _)
  unfold State.gaveUp
  simp only []
  split
  · exact h.next (.addShare _ _ _)
  · exact h

theorem State.port_gaveUp (s : State) (p : Port) (o : Onward) :
    (s.gaveUp p o).port p = { s.port p with onward := (s.port p).onward.filter fun x => x.txid ≠ o.txid } := by
  unfold State.gaveUp
  simp only []
  split <;> simp

theorem PortFrame.endOnward_plain (s : State) (p : Port) {o : Onward} (h : o.cent = none) :
    PortFrame [.ports, .out, .budget] p s (s.endOnward p o) := by
  rw [State.endOnward_eq, h]
  exact (((PortFrame.refl s).next (.gaveUp s p o)).next (.watch _ p)).next (.finishResets _ p)

theorem PortFrame.endOnward (s : State) (p : Port) (o : Onward) : PortFrame [.ports, .out, .budget, .cipher] p s (s.endOnward p o) := by
  have h : PortFrame [.ports, .out, .budget, .cipher] p s (((s.gaveUp p o).watch p).finishResets p) :=
    (((PortFrame.refl s).next (.gaveUp s p o)).next (.watch _ p)).next (.finishResets _ p)
  rw [State.endOnward_eq]
  split
  · exact h.next (.freeIfDone _ _)
  · exact h

@[simp] theorem State.port_freeIfDone (s : State) (k j : Nat) : (s.freeIfDone k).port j = s.port j :=
  State.port_of_ports ((PortFrame.freeIfDone (p := 0) s k).2 .ports (by decide)) j

/-- Words stand while the dictionary does. -/
theorem State.reg_of_frame (k : OnlyChanges l s t) (hd : .dict ∉ l := by simp) (hi : .ident ∉ l := by simp) (i x : Nat) : t.reg i x = s.reg i x := by
  have ed : t.dict = s.dict := k .dict hd
  have ei : t.ident = s.ident := k .ident hi
  rw [State.reg, State.reg, ed, ei]

/-- With no MASTER_RESET under way the port loses the request and nothing else. -/
theorem State.port_endOnward (h : (s.port p).resets = []) (o : Onward) :
    (s.endOnward p o).port p =
      PortSt.flowed { s.port p with onward := (s.port p).onward.filter fun x => x.txid ≠ o.txid } p (s.reg (0x3000 + p) 4) := by
  have hr : (((s.gaveUp p o).watch p).port p).resets = [] := by rw [State.port_watch, State.port_gaveUp]; exact h
  rw [State.endOnward_eq, State.finishResets_none hr, ← State.port_gaveUp, ← State.reg_of_frame (PortFrame.gaveUp s p o).2, ← State.port_watch]
  split
  · rw [State.port_freeIfDone, State.port_setPort_same]
  · rw [State.port_setPort_same]

/-- The counts that the end of an onward request gives up (R132, R138). -/
theorem State.budget_endOnward (s : State) (p : Port) (o : Onward) : (s.endOnward p o).budget = (s.gaveUp p o).budget := by
  have hw : (((s.gaveUp p o).watch p).finishResets p).budget = (s.gaveUp p o).budget :=
    ((PortFrame.watch _ p).trans (.finishResets _ p)).2 .budget (by decide)
  rw [State.endOnward_eq]
  split
  · exact ((PortFrame.freeIfDone (p := p) _ _).2 .budget (by decide)).trans hw
  · exact hw

end Sys2Proof.Machine

/-!
Responses (R91 to R93, R113, R132): beats that move to their consumer, answers that come back from a home, and the notices that a home sends.
-/
namespace Sys2Proof.Machine
open Sys2Proof

variable {s t : State} {p : Port}

/-! ### Beats that move -/

theorem beatsMove : Claims.BeatsMove := by
  intro s p hu moved c
  -- what a port has at its head moves by the command of its mode
  have hc (z : State) (hz : s.deliver p = some z) : exec (c (s.port p).pull) s = .next z := by
    cases hp : (s.port p).pull
    · show Host.Outcome.next _ = _
      rw [hu, hp, hz]
      rfl
    · show Host.Outcome.next _ = _
      rw [hu, hp, hz]
      rfl
  refine ⟨fun r rest hm => ?_, fun b rest hm hf => ?_, fun hm hf hp => ?_⟩
  · have hd : s.deliver p = some ((s.setPort p { s.port p with mbox := rest }).emit (.beat p (mboxBeat r))) := by
      simp only [State.deliver, hm]
    refine ⟨_, hc _ hd, rfl, ?_, ?_, ?_⟩
    · simp
    · simp
    · exact ((PortFrame.refl s).next (.setPort s p _)).next (.emit _ _)
  · have hd : s.deliver p = some (((s.setPort p { s.port p with fifo := rest }).emit (.beat p b.1)).watch p) := by
      simp only [State.deliver, hm, hf]
    refine ⟨_, hc _ hd, ?_, ?_, ?_, ?_⟩
    · refine (State.out_watch _ p).imp_right fun ⟨on, h⟩ => ⟨on, h.trans ?_⟩
      simp [State.emit, State.setPort]
    · simp
    · simp
    · exact (((PortFrame.refl s).next (.setPort s p _)).next (.emit _ _)).next (.watch _ p)
  · have hd : s.deliver p = none := by simp only [State.deliver, hm, hf]
    refine ⟨(s.emit (.beat p (emptyBeat s.freeCount))).draw.draw, ?_, ⟨_, rfl, rfl, rfl⟩, Fr.only (M := 2 ^ 1 + 2 ^ 2) (Fr.upd (Fr.refl s) rfl) (by decide)⟩
    show Host.Outcome.next _ = _
    rw [hu, hp, hd]
    rfl

/-! ### Counts given up -/

/-- A count lowered by 1. -/
theorem SMap.getD_put_pred (m : SMap Nat) (k : Nat) :
    (m.put 0 k (((m.getD k 0 : Nat) : Int) + -1).toNat).getD k 0 = m.getD k 0 - 1 := by
  rw [SMap.getD_put_same]
  omega

theorem State.gaveUp_outst (s : State) (p : Port) (o : Onward) :
    (s.gaveUp p o).budget.outst.getD o.master.toNat 0 = s.budget.outst.getD o.master.toNat 0 - 1 := by
  unfold State.gaveUp
  simp only []
  split <;> exact SMap.getD_put_pred _ _

theorem State.gaveUp_share (s : State) (p : Port) {o : Onward} (h : o.share = true) :
    (s.gaveUp p o).budget.shareHeld.getD o.home 0 = s.budget.shareHeld.getD o.home 0 - 1 := by
  unfold State.gaveUp
  simp only [h, if_true]
  exact SMap.getD_put_pred _ _

/-! ### The only onward request of a port -/

section
variable {o : Onward} (h : (s.port p).onward = [o])
include h

theorem PortSt.find_only : (s.port p).find o.txid = some o := by simp [PortSt.find, h]

/-- Changed under its own number, it stands alone as changed. -/
theorem State.port_setOnward_only (o' : Onward) (e : o'.txid = o.txid) : (s.setOnward p o').port p = { s.port p with onward := [o'] } := by
  simp [h, e]

/-- Its end leaves none. -/
theorem State.port_endOnward_only (hr : (s.port p).resets = []) {o' : Onward} (e : o'.txid = o.txid) :
    (s.endOnward p o').port p = PortSt.flowed { s.port p with onward := [] } p (s.reg (0x3000 + p) 4) := by
  simpa [h, e] using State.port_endOnward hr o'
end

/-! ### Notices of the home -/

theorem postedWriteCompletes : Claims.PostedWriteCompletes := by
  intro s p o ho hs
  have hf := PortSt.find_only ho
  constructor
  · intro hop
    have hx : exec (.completionNotice p o.txid) s = .next ((s.setOnward p { o with share := false }).addShare o.home (-1)) := by
      show Host.Outcome.next _ = _
      simp only [hf, hop, hs, ne_eq, not_false_iff, and_self, if_true]
    have hp : ((s.setOnward p { o with share := false }).addShare o.home (-1)).port p = { s.port p with onward := [{ o with share := false }] } := by
      rw [State.port_addShare]
      exact State.port_setOnward_only ho _ rfl
    refine ⟨_, hx, by rw [hp], SMap.getD_put_pred _ _, rfl, by rw [hp], by rw [hp], ?_⟩
    exact ((PortFrame.refl s).next (.setOnward s p _)).next (.addShare _ _ _)
  · intro hop hr
    have hx : exec (.completionNotice p o.txid) s = .next (s.endOnward p o) := by
      show Host.Outcome.next _ = _
      simp only [hf, hop, ne_eq, not_true_eq_false, if_false, if_true]
    have hp := State.port_endOnward_only ho hr (o' := o) rfl
    refine ⟨_, hx, by rw [hp]; rfl, ?_, ?_, by rw [hp]; rfl, by rw [hp]; rfl, fun hc => ?_, ?_⟩
    · rw [State.budget_endOnward, State.gaveUp_outst]
    · rw [State.budget_endOnward, State.gaveUp_share s p hs]
    · exact (PortFrame.endOnward_plain s p hc).2 .cipher (by decide)
    · exact (PortFrame.refl s).next (.endOnward s p o)

/-! ### Answers that return -/

/-- A beat enters the FIFO, and the only onward request of the port ends: it is no longer outstanding. -/
theorem State.beat_endOnward_only {o o' : Onward} (ho : (s.port p).onward = [o]) (e : o'.txid = o.txid) (hc : o'.cent = none) (hr : (s.port p).resets = [])
    (b : Beat) (a : Nat) :
    (((s.pushBeat p b a).endOnward p o').port p).fifo = (s.port p).fifo ++ [(b, a)] ∧ (((s.pushBeat p b a).endOnward p o').port p).onward = [] ∧
      ((s.pushBeat p b a).endOnward p o').budget.outst.getD o'.master.toNat 0 = s.budget.outst.getD o'.master.toNat 0 - 1 ∧
      PortFrame [.ports, .out, .budget] p s ((s.pushBeat p b a).endOnward p o') := by
  have hq := State.port_endOnward_only (s := s.pushBeat p b a) (p := p) (o := o) (by simpa using ho) (by simpa using hr) e
  refine ⟨by simp [hq], by simp [hq], ?_, ((PortFrame.refl s).next (.pushBeat s p b a)).next (.endOnward_plain _ p hc)⟩
  rw [State.budget_endOnward, State.gaveUp_outst, (PortFrame.pushBeat s p b a).2 .budget (by decide)]

/-- The beat of a line that a read of one line awaits (R92). -/
def lineBeat (o : Onward) (a : LineAns) : Beat :=
  { status := a.status, line := 0, last := true, corrected := a.corrected && a.status == .ok, tag := o.tag, cresp := .none,
    data := if a.status = .ok then a.data else 0, cstat := o.cstat, ctag := 0 }

/-- The line at hand of a read of one line takes the entry reserved for it, and the read ends (R92, R99). -/
theorem State.readBeats_one {o : Onward} {a : LineAns} (ho : (s.port p).onward = [o]) (hl : o.lines = 1) (hv : o.reserved = 1) (hb : o.beats = [a])
    (ha : a.line = 0) (n : Nat) :
    s.readBeats p o.txid (n + 1) =
      ((s.setOnward p { o with reserved := 0 }).pushBeat p (lineBeat o a) o.addr).endOnward p { o with reserved := 0 } := by
  have hz : (((s.setOnward p { o with reserved := 0 }).pushBeat p (lineBeat o a) o.addr).port p).onward = [{ o with reserved := 0 }] := by
    rw [State.port_pushBeat, State.port_setOnward_only ho { o with reserved := 0 } rfl]
    rfl
  have hf : ((((s.setOnward p { o with reserved := 0 }).pushBeat p (lineBeat o a) o.addr).port p).find o.txid) = some { o with reserved := 0 } :=
    PortSt.find_only (o := { o with reserved := 0 }) hz
  have hbeat : [a].find? (fun a => a.line == o.lines - o.reserved) = some a := by simp [ha, hl, hv]
  rw [State.readBeats, PortSt.find_only ho]
  simp only [hb, hbeat]
  rw [if_neg (by omega), if_pos (by omega)]
  simp only [hv, hl, Nat.zero_add, Nat.sub_self, beq_self_eq_true, Nat.mul_zero, Nat.add_zero, true_or, if_true]
  simp only [hb, hl] at hf
  rw [show Beat.mk a.status 0 true (a.corrected && a.status == .ok) o.tag .none (if a.status = .ok then a.data else 0) o.cstat 0 = lineBeat o a from rfl, hf]

/-- The only answer of a plain read of one line (R92). -/
theorem State.readReturn_one {o : Onward} {a : LineAns} (hd : o.dropped = false) (hc : o.cent = none) (hl : o.lines = 1) (hb : o.beats = [])
    (ha : a.line = 0) : s.readReturn p o [a] = (s.setOnward p { o with beats := [a] }).readBeats p o.txid 4 := by
  simp [State.readReturn, hd, hc, hl, hb, ha]

theorem responsesReturn : Claims.ResponsesReturn := by
  intro s p o a hu ho hd hc hr m
  have hf : (s.port m.port).find m.txid = some o := PortSt.find_only ho
  have hx : exec (.responseReturn m) s = .next (s.response m) := by
    show Host.Outcome.next _ = _
    rw [if_pos hu]
  constructor
  · intro hop hst
    set z := s.setOnward p { o with reserved := 0 }
    have hz : z.port p = { s.port p with onward := [{ o with reserved := 0 }] } := State.port_setOnward_only ho _ rfl
    have hm : s.response m = (z.pushBeat p (statusBeat a.status o.tag .none o.cstat) o.addr).endOnward p o := by
      have he : s.response m = s.endWith p o (statusBeat a.status o.tag .none o.cstat) := by
        simp only [State.response, hf]
        simp [m, hop, hst, isCoherent, crespData, statusBeat]
      rw [he, State.endWith, if_neg (by simp [hd])]
    obtain ⟨h1, h2, h3, h4⟩ := State.beat_endOnward_only (s := z) (p := p) (o := { o with reserved := 0 }) (o' := o) (by rw [hz]) rfl hc (by rw [hz]; exact hr)
      (statusBeat a.status o.tag .none o.cstat) o.addr
    rw [hz] at h1
    exact ⟨_, hx, hm ▸ h1, hm ▸ h2, hm ▸ h3, hm ▸ ((PortFrame.refl s).next (.setOnward s p _)).trans h4⟩
  · intro hop hl hv hb ha hs
    set o1 : Onward := { o with beats := [a] } with ho1
    set y := s.setOnward p o1
    have hy : y.port p = { s.port p with onward := [o1] } := State.port_setOnward_only ho _ rfl
    set z := y.setOnward p { o1 with reserved := 0 }
    have hz : z.port p = { s.port p with onward := [{ o1 with reserved := 0 }] } := by
      rw [show z.port p = _ from State.port_setOnward_only (o := o1) (by rw [hy]) _ rfl, hy]
    have hm : s.response m = (z.pushBeat p (lineBeat o1 a) o1.addr).endOnward p { o1 with reserved := 0 } := by
      have he : s.response m = s.readReturn p o [a] := by
        simp only [State.response, hf]
        simp [m, hop]
      rw [he, State.readReturn_one hd hc hl hb ha]
      exact State.readBeats_one (o := o1) (by rw [hy]) hl hv rfl ha 3
    obtain ⟨h1, h2, h3, h4⟩ := State.beat_endOnward_only (s := z) (p := p) (o := { o1 with reserved := 0 }) (o' := { o1 with reserved := 0 })
      (by rw [hz]) rfl hc (by rw [hz]; exact hr) (lineBeat o1 a) o1.addr
    rw [hz] at h1
    refine ⟨_, hx, ⟨lineBeat o1 a, hm ▸ h1, hs, rfl, rfl, rfl, ?_, ?_⟩, hm ▸ h2, hm ▸ h3, hm ▸ ?_⟩
    · exact if_pos hs
    · simp [lineBeat, hs]
    · exact (((PortFrame.refl s).next (.setOnward s p _)).next (.setOnward y p _)).trans h4

/-- Settles O36: a head beat leaves by `State.deliver`, an answer and a notice by the end of the port's only onward request. That the home gives the notice of
a request's last access is the model's choice (log entry 72). -/
theorem responseFlow : Obligations.ResponseFlow := ⟨beatsMove, responsesReturn, postedWriteCompletes⟩

end Sys2Proof.Machine

/-!
What meets a request or line before it enters a port (R97, R98): a request of whatever opcode, and a line, of another epoch is dropped and counted.
-/
namespace Sys2Proof.Machine
open Sys2Proof

variable {s t : State} {p : Port}

/-! ### Counters and limited events -/

theorem State.count_frame (s : State) (i x n : Nat) : OnlyChanges [.ctr] s (s.count i x n) :=
  Fr.only (M := 2 ^ 7) (Fr.upd (Fr.refl s) rfl) (by decide)

theorem State.counted_count (s : State) (i x n : Nat) : s.counted (s.count i x n) i x n := by
  unfold State.counted State.ctrOf State.count
  split
  · exact SMap.getD_put_same _ _ _ _
  · rfl

/-- Whether or not a logged event asks for an in-band interrupt (R368). -/
theorem State.out_raiseIbi (s : State) (code : Nat) : (s.raiseIbi code).out = s.out ∨ ∃ b, (s.raiseIbi code).out = s.out ++ [.ibi b] := by
  unfold State.raiseIbi
  split
  · split
    · exact .inl rfl
    · split
      · exact .inr ⟨_, rfl⟩
      · exact .inl rfl
  · exact .inl rfl

theorem State.out_log1 (s : State) (code : Nat) (args : List Word) : (s.log1 code args).out = s.out ∨ ∃ b, (s.log1 code args).out = s.out ++ [.ibi b] := by
  unfold State.log1
  split
  · exact State.out_raiseIbi _ code
  · exact .inl rfl

theorem Log.getLast_push (l : Log) (e : LogEntry) : (l.push e).entries.getLast? = some e := by
  unfold Log.push
  split <;> simp

/-- An event of a limit may be logged again (R405). -/
def State.limDue (s : State) (k n : Nat) : Prop := ∀ f, SMap.look s.log.seen k = some f → f + n ≤ s.frame

theorem State.logLim_due {code key n : Nat} (w : Nat) (args : Nat → List Word) (h : s.limDue (limKey code key) n) :
    (s.logLim code key n w args).log.entries = (s.log1 code (args (s.log.held.getD (limKey code key) 0))).log.entries ∧
      (s.logLim code key n w args).out = (s.log1 code (args (s.log.held.getD (limKey code key) 0))).out := by
  unfold State.logLim State.logLimAs
  cases hk : SMap.look s.log.seen (limKey code key) with
  | none => simp only [hk, if_true, and_self]
  | some f => simp only [hk, h f hk, decide_true, if_true, and_self]

theorem State.logLim_held {code key n : Nat} (w : Nat) (args : Nat → List Word) (h : ¬ s.limDue (limKey code key) n) :
    (s.logLim code key n w args).log.entries = s.log.entries ∧ (s.logLim code key n w args).out = s.out := by
  unfold State.limDue at h
  simp only [not_forall, exists_prop] at h
  obtain ⟨f, hk, hf⟩ := h
  unfold State.logLim State.logLimAs
  simp only [hk, hf, decide_false, Bool.false_eq_true, if_false, and_self]

theorem State.logLim_frame (s : State) (code key n w : Nat) (args : Nat → List Word) : OnlyChanges [.log, .maint, .out] s (s.logLim code key n w args) := by
  rw [State.logLim_only]
  exact Fr.only (M := 2 ^ 2 + 2 ^ 9 + 2 ^ 12) (Fr.upd (Fr.refl s) rfl) (by decide)

/-! ### What arrives -/

/-- A request of whatever opcode, or a line, comes to a port with an epoch; `ch` is its channel. -/
inductive Arrives (p : Port) (e : BitVec 2) (s : State) : Instr → Nat → Prop
  | request (c : Instr) (w : ReqWord) (f : State → State) (hw : w.epoch = e) (hc : exec c s = .next (s.spendReq p w f)) : Arrives p e s c 0
  | line (l : WLine) (hl : l.epoch = e) : Arrives p e s (.writeLine p l) 1

theorem exec_requestOf (op : Op) (w : ReqWord) (s : State) : ∃ f, exec (requestOf op p w) s = .next (s.spendReq p w f) := by
  cases op <;> exact ⟨_, rfl⟩

theorem exec_unlistedOpcode (code : BitVec 4) (w : ReqWord) (s : State) : ∃ f, exec (.unlistedOpcode p code w) s = .next (s.spendReq p w f) := by
  show ∃ f, execUnlistedOpcode p code w s = _
  unfold execUnlistedOpcode
  split <;> exact ⟨_, rfl⟩

theorem Arrives.of_requestOf (op : Op) {w : ReqWord} {e : BitVec 2} (hw : w.epoch = e) : Arrives p e s (requestOf op p w) 0 :=
  (exec_requestOf op w s).elim fun f hc => .request _ w f hw hc

theorem Arrives.of_unlisted (code : BitVec 4) {w : ReqWord} {e : BitVec 2} (hw : w.epoch = e) : Arrives p e s (.unlistedOpcode p code w) 0 :=
  (exec_unlistedOpcode code w s).elim fun f hc => .request _ w f hw hc

/-- What comes with an epoch that is not in force is dropped (R97). -/
theorem Arrives.dropped {e : BitVec 2} {c : Instr} {ch : Nat} (a : Arrives p e s c ch) (hu : s.portsUp = true) (hi : internalPort p = false)
    (he : s.epochOk p e = false) : exec c s = .next (s.epochDrop p) := by
  cases a with
  | request _ w f hw hc => rw [hc]; simp [State.spendReq, hu, hi, hw, he]
  | line l hl =>
    show Host.Outcome.next (s.takeLine p l) = _
    simp [State.takeLine, hu, hi, hl, he]

theorem State.epochOk_eq_false {e : BitVec 2} (h : s.enabled p = false ∨ (s.port p).live = false ∨ e ≠ (s.port p).epoch) : s.epochOk p e = false := by
  rcases h with h | h | h <;> simp [State.epochOk, h]

/-- What a drop leaves: the count, the limited event and no other output (R97). -/
theorem droppedOnArrival : Claims.OtherEpochDropped := by
  intro s c p e hd hu hi he hc
  have hx : exec c s = .next (s.epochDrop p) := by
    have ha : ∃ ch, Arrives p e s c ch := by
      rcases hc with ⟨op, w, rfl, hw⟩ | ⟨code, w, rfl, hw⟩ | ⟨l, rfl, hl⟩
      · exact ⟨0, .of_requestOf op hw⟩
      · exact ⟨0, .of_unlisted code hw⟩
      · exact ⟨1, .line l hl⟩
    exact ha.elim fun ch a => a.dropped hu hi (State.epochOk_eq_false he)
  set u := s.count (0x3100 + p) 8 with hu'
  have hf : OnlyChanges [.ctr, .log, .maint, .out] s (s.epochDrop p) :=
    ((s.count_frame _ _ _).then (u.logLim_frame 0x0401 0 8192 1 _)).mono (by simp)
  refine ⟨_, hx, ?_, ?_, ?_, hf⟩
  · have hk := s.counted_count (0x3100 + p) 8 1
    unfold State.counted State.ctrOf at hk ⊢
    rwa [State.epochDrop, State.logLim_ctr]
  · split
    next h =>
      refine ⟨sat16 (u.log.held.getD (limKey 0x0401 0) 0), ?_⟩
      rw [State.epochDrop, (State.logLim_due (s := u) 1 _ h).1, State.log1_logs (s := u) hd]
      exact Log.getLast_push _ _
    next h =>
      rw [State.epochDrop, (State.logLim_held (s := u) 1 _ h).1]
      rfl
  · rw [State.epochDrop]
    by_cases h : u.limDue (limKey 0x0401 0) 8192
    · rw [(State.logLim_due 1 _ h).2]
      exact State.out_log1 u _ _
    · exact .inl (State.logLim_held 1 _ h).2

/-- Settles O33: what carries another epoch is dropped before it meets the port. -/
theorem otherEpochDropped : Obligations.OtherEpochDropped := droppedOnArrival

end Sys2Proof.Machine

/-!
PORT_CTRL and the flush of a port (R95, R103 to R106, R112): what a write of the control word comes to, what a flush leaves of its port, and the
initialisation word that ends it.
-/
namespace Sys2Proof.Machine
open Sys2Proof

variable {s t u : State} {l : List Field} {p : Port}

/-! ### Events between other changes -/

/-- An event after changes to other parts of the state. -/
theorem LogsOne.of_frame {code : Nat} {args : List Word} (k : OnlyChanges l s t) (h : LogsOne t u code args) (hi : .ident ∉ l := by simp)
    (hc : .clk ∉ l := by simp) (hb : .boot ∉ l := by simp) (hl : .log ∉ l := by simp) : LogsOne s u code args := by
  have ei : t.ident = s.ident := k .ident hi
  have ec : t.clk = s.clk := k .clk hc
  have eb : t.boot = s.boot := k .boot hb
  have el : t.log = s.log := k .log hl
  simpa only [LogsOne, State.event, State.t, State.ns, ei, ec, eb, el] using h

/-- An event before changes to other parts of the state. -/
theorem LogsOne.then {code : Nat} {args : List Word} (h : LogsOne s t code args) (k : OnlyChanges l t u) (hl : .log ∉ l := by simp) :
    LogsOne s u code args := (k .log hl : u.log = t.log).trans h

/-! ### What a flush discards -/

/-- The parts that the end of onward work may touch. -/
@[simp] def workFields : List Field := [.ports, .out, .budget, .cipher]

theorem PortFrame.dropCipherWork (s : State) (p : Port) (m : Option (BitVec 8)) : PortFrame workFields p s (s.dropCipherWork p m) := by
  refine .foldl _ _ (fun a o => ?_) s
  split
  · exact .endOnward a p o
  · exact (PortFrame.refl a).next (.setOnward a p _)

theorem PortFrame.closeStreams (s : State) (p : Port) (m : Option (BitVec 8)) : PortFrame [.cipher] p s (s.closeStreams p m) :=
  .off_ports (Fr.only (M := 2 ^ 26) (Fr.upd (Fr.refl s) rfl) (by decide)) (by decide)

@[simp] theorem State.port_closeStreams (s : State) (p : Nat) (m : Option (BitVec 8)) (k : Nat) : (s.closeStreams p m).port k = s.port k := rfl

theorem PortFrame.endReturned (s : State) (p : Port) : PortFrame workFields p s (s.endReturned p) :=
  .foldl _ _ (fun a o => .endOnward a p o) s

theorem PortFrame.killAgent (s : State) (p : Port) (c : DeadCause) : PortFrame [.out, .snoops, .agents] p s (s.killAgent p c) := by
  unfold State.killAgent
  split
  · exact .off_ports (Fr.only (M := 2 ^ 2 + 2 ^ 24 + 2 ^ 25) (Fr.upd (Fr.refl s) rfl) (by decide)) (by decide)
  · exact .refl s

@[simp] theorem State.port_killAgent (s : State) (p : Port) (c : DeadCause) (k : Nat) : (s.killAgent p c).port k = s.port k :=
  State.port_of_ports ((PortFrame.killAgent s p c).2 .ports (by simp)) k

/-- MASTER_RESETs that are done leave the epoch in force. -/
theorem State.epoch_finishResets (s : State) (p : Port) : ((s.finishResets p).port p).epoch = (s.port p).epoch :=
  List.foldlRecOn (motive := fun a : State => (a.port p).epoch = (s.port p).epoch) _ _ (by simp) (fun a h x _ => by simpa using h)

theorem State.epoch_endOnward (s : State) (p : Port) (o : Onward) : ((s.endOnward p o).port p).epoch = (s.port p).epoch := by
  have h : ((((s.gaveUp p o).watch p).finishResets p).port p).epoch = (s.port p).epoch := by
    rw [State.epoch_finishResets, State.port_watch, State.port_gaveUp]
    rfl
  rw [State.endOnward_eq]
  split
  · rw [State.port_freeIfDone, h]
  · exact h

theorem State.epoch_dropCipherWork (s : State) (p : Port) (m : Option (BitVec 8)) : ((s.dropCipherWork p m).port p).epoch = (s.port p).epoch := by
  refine List.foldlRecOn (motive := fun a : State => (a.port p).epoch = (s.port p).epoch) _ _ rfl (fun a h o _ => ?_)
  split
  · rw [State.epoch_endOnward, h]
  · rw [State.port_setOnward, ← h]

/-! ### The port that a flush leaves -/

/-- A port that a flush for a cause has emptied: nothing queued or to be read, and what is onward runs to its end unseen (R104). -/
structure PortSt.Flushed (q : PortSt) (cause : Nat) (off : Bool) (e : BitVec 2) : Prop where
  queue : q.queue = []
  early : q.early = []
  fifo : q.fifo = []
  resets : q.resets = []
  xoff : q.xoff = false
  flush : q.flush = some cause
  flushOff : q.flushOff = off
  epoch : q.epoch = e
  onward : ∀ o ∈ q.onward, o.dropped = true ∧ o.reserved = 0

section
variable {q : PortSt} {cause : Nat} {off : Bool} {e : BitVec 2}

/-- It holds nothing, so its watched FIFO is empty. -/
theorem PortSt.Flushed.watched (h : q.Flushed cause off e) (k : Nat) : q.watched k = 0 := by
  have ho : q.reserved = 0 := by
    rw [PortSt.reserved, h.resets]
    exact List.foldlRecOn (motive := fun a => a = 0) _ _ rfl (fun a ha o hm => by rw [ha, (h.onward o hm).2])
  unfold PortSt.watched
  split
  · simp [PortSt.wrLevel, h.queue, h.early]
  · simp [PortSt.respLevel, h.fifo, ho]

/-- The end of onward work leaves it as it was. -/
theorem PortSt.Flushed.ended (h : q.Flushed cause off e) {k : Nat} {w : Word} (hw : 1 ≤ fld w 15 8) (f : Onward → Bool) :
    (PortSt.flowed { q with onward := q.onward.filter f } k w).Flushed cause off e := by
  have hq : PortSt.Flushed { q with onward := q.onward.filter f } cause off e :=
    ⟨h.queue, h.early, h.fifo, h.resets, h.xoff, h.flush, h.flushOff, h.epoch, fun o ho => h.onward o (List.mem_of_mem_filter ho)⟩
  refine ⟨hq.queue, hq.early, hq.fifo, hq.resets, ?_, hq.flush, hq.flushOff, hq.epoch, hq.onward⟩
  show nextXoff _ _ (PortSt.watched { q with onward := q.onward.filter f } k) _ = false
  rw [hq.watched k, nextXoff_empty hw]

theorem PortSt.Flushed.setPanic (h : q.Flushed cause off e) (b : Bool) : PortSt.Flushed { q with panic := b } cause off e :=
  ⟨h.queue, h.early, h.fifo, h.resets, h.xoff, h.flush, h.flushOff, h.epoch, h.onward⟩

theorem State.flushed_endReturned (h : (s.port p).Flushed cause off e) (hw : 1 ≤ fld (s.reg (0x3000 + p) 4) 15 8) :
    ((s.endReturned p).port p).Flushed cause off e := by
  have hm : ∀ xs : List Onward, ((xs.foldl (fun a o => a.endOnward p o) s).port p).Flushed cause off e := by
    intro xs
    induction xs generalizing s with
    | nil => exact h
    | cons o r ih =>
      refine ih (s := s.endOnward p o) ?_ ?_
      · rw [State.port_endOnward h.resets]
        exact h.ended hw _
      · rwa [State.reg_of_frame (PortFrame.endOnward s p o).2]
  exact hm _
end

/-- The parts that a flush may touch. -/
@[simp] def flushFields : List Field := [.ports, .out, .log, .maint, .cipher, .budget, .snoops, .agents]

/-- The port as a flush empties it. -/
def PortSt.discard (q : PortSt) (cause : Nat) (off : Bool) : PortSt :=
  { q with queue := [], early := [], fifo := [], xoff := false, resets := [], onward := q.onward.map (fun o => { o with dropped := true, reserved := 0 }),
           flush := some cause, flushOff := off }

theorem PortSt.flushed_discard (q : PortSt) (cause : Nat) (off : Bool) : (q.discard cause off).Flushed cause off q.epoch :=
  ⟨rfl, rfl, rfl, rfl, rfl, rfl, rfl, rfl, by simp [PortSt.discard]⟩

/-- The state of a flush before its event: the port is empty, and reads all whose lines are back have ended (R104). -/
def State.emptied (s : State) (p : Port) (cause : Nat) (off : Bool) : State :=
  let a := (s.dropCipherWork p none).closeStreams p none
  ((a.setPort p ((a.port p).discard cause off)).endReturned p).setPanic p false

/-- A flush where none is in progress (R104, R113). -/
theorem State.flushPort_eq (h : (s.port p).flush = none) (cause : Nat) :
    s.flushPort p cause = ((s.emptied p (w16 cause).toNat (cause == 4)).log1 0x0404 [w16 p, w16 cause, w16 ((s.port p).epoch + 1).toNat]).killAgent p .flushed := by
  simp only [State.flushPort, State.flushWith, h]
  rfl

theorem PortFrame.emptied (s : State) (p : Port) (cause : Nat) (off : Bool) : PortFrame workFields p s (s.emptied p cause off) :=
  ((((PortFrame.dropCipherWork s p none).next (.closeStreams _ p none)).next (.setPort _ p _)).next (.endReturned _ p)).next (.setPanic _ p false)

theorem State.flushed_emptied (s : State) (p : Port) (cause : Nat) (off : Bool) (hw : 1 ≤ fld (s.reg (0x3000 + p) 4) 15 8) :
    ((s.emptied p cause off).port p).Flushed cause off (s.port p).epoch ∧ ((s.emptied p cause off).port p).panic = false := by
  set a := (s.dropCipherWork p none).closeStreams p none with ha
  have hf : PortFrame workFields p s a := (PortFrame.dropCipherWork s p none).next (.closeStreams _ p none)
  set b := a.setPort p ((a.port p).discard cause off) with hb
  have hq : (b.port p).Flushed cause off (s.port p).epoch := by
    rw [hb, State.port_setPort_same, ← s.epoch_dropCipherWork p none]
    exact PortSt.flushed_discard _ _ _
  have hr : 1 ≤ fld (b.reg (0x3000 + p) 4) 15 8 := by rwa [State.reg_of_frame (hf.next (.setPort a p _)).2]
  have hz : (s.emptied p cause off).port p = { (b.endReturned p).port p with panic := false } := State.port_setPanic _ _ _
  rw [hz]
  exact ⟨(State.flushed_endReturned hq hr).setPanic false, rfl⟩

/-- What a flush of a port comes to (R104, R113). -/
theorem State.flushPort_flushes (hd : s.dom 1 = true) (hf : (s.port p).flush = none) (hw : 1 ≤ fld (s.reg (0x3000 + p) 4) 15 8) (cause : Nat) :
    ((s.flushPort p cause).port p).Flushed (w16 cause).toNat (cause == 4) (s.port p).epoch ∧ ((s.flushPort p cause).port p).panic = false ∧
      LogsOne s (s.flushPort p cause) 0x0404 [w16 p, w16 cause, w16 ((s.port p).epoch + 1).toNat] ∧ PortFrame flushFields p s (s.flushPort p cause) := by
  have hfr := PortFrame.emptied s p (w16 cause).toNat (cause == 4)
  obtain ⟨h1, h2⟩ := s.flushed_emptied p (w16 cause).toNat (cause == 4) hw
  rw [State.flushPort_eq hf]
  refine ⟨by simpa using h1, by simpa using h2, ?_, ?_⟩
  · have hd' : (s.emptied p (w16 cause).toNat (cause == 4)).dom 1 = true := by
      have e : (s.emptied p (w16 cause).toNat (cause == 4)).pd = s.pd := hfr.2 .pd (by simp)
      rw [State.dom, e]
      exact hd
    exact (LogsOne.of_frame hfr.2 (State.log1_logs hd')).then (PortFrame.killAgent _ p .flushed).2
  · exact ((PortFrame.mono hfr (by simp)).next (.log1 _ _ _)).next (.killAgent _ p _)

/-! ### The initialisation word -/

/-- A port that has sent its initialisation word, `c` being its CREDITS (R94, R95, R104). -/
def PortSt.started (q : PortSt) (c : Word) (pull : Bool) : PortSt :=
  { q with epoch := q.epoch + 1, live := true, reqCred := fld c 15 8, wrCred := fld c 7 0, initDue := false, flush := none, flushOff := false,
           queue := [], early := [], pull := pull }

/-- The initialisation word of the next epoch. -/
def State.initOut (s : State) (p : Port) : Out :=
  let c := s.reg (0x3000 + p) 3
  .initWord p ((s.port p).epoch + 1) (fld c 15 8) (fld c 7 0)

theorem State.sendInit_eq (s : State) (p : Port) :
    s.sendInit p = ((s.setPort p ((s.port p).started (s.reg (0x3000 + p) 3) (bit (s.reg (0x3000 + p) 1) 13))).emit (s.initOut p)).watch p := rfl

theorem PortFrame.sendInit (s : State) (p : Port) : PortFrame [.ports, .out] p s (s.sendInit p) := by
  rw [State.sendInit_eq]
  exact (((PortFrame.refl s).next (.setPort s p _)).next (.emit _ _)).next (.watch _ p)

theorem State.port_sendInit (s : State) (p : Port) :
    ∃ w, (s.sendInit p).port p = PortSt.flowed ((s.port p).started (s.reg (0x3000 + p) 3) (bit (s.reg (0x3000 + p) 1) 13)) p w := by
  rw [State.sendInit_eq, State.port_watch, State.port_emit, State.port_setPort_same]
  exact ⟨_, rfl⟩

/-- The word is sent, and PANIC follows the level after it. -/
theorem State.out_sendInit (s : State) (p : Port) :
    (s.sendInit p).out = s.out ++ [s.initOut p] ∨ ∃ on, (s.sendInit p).out = s.out ++ [s.initOut p, .ring (.panic p on)] := by
  rw [State.sendInit_eq]
  refine (State.out_watch _ p).imp id fun ⟨on, h⟩ => ⟨on, h.trans ?_⟩
  exact List.append_assoc _ _ _

theorem flushEnds : Claims.FlushEnds := by
  intro s p hu hb hf c
  constructor
  · intro ho he
    have hx : exec (.flushComplete p) s = .next (s.sendInit p) := by
      show Host.Outcome.next _ = _
      simp [hu, hb, hf, ho, he]
    obtain ⟨w, hp⟩ := s.port_sendInit p
    exact ⟨_, hx, by rw [hp]; rfl, by rw [hp]; rfl, by rw [hp]; rfl, by rw [hp]; rfl, by rw [hp]; rfl, s.out_sendInit p, PortFrame.sendInit s p⟩
  · intro ho
    have hx : exec (.flushComplete p) s = .next (s.setPort p { s.port p with live := false }) := by
      show Host.Outcome.next _ = _
      simp [hu, hb, hf, ho]
    exact ⟨_, hx, by simp, by simp, by simp, rfl, PortFrame.setPort s p _⟩

/-! ### Words of PORT_CTRL -/

/-- The bits that name the pin of ZG_XOFF. -/
theorem fld_pin (w : Word) : fld w 7 4 = (w.extractLsb' 4 4).toNat := by simp [fld]

/-- A pin of ZG_XOFF or none (R103). -/
def goodPin (n : Nat) : Prop := n ≤ 7 ∨ n = 15

theorem portCtrlKept_iff {w : Word} : portCtrlKept w = true ↔ w &&& 0x5F0F = 0 ∧ goodPin (fld w 7 4) := by
  simp [portCtrlKept, goodPin]

/-- A word without reserved bits and FLUSH has ENABLE, PULL and XOFF_PIN alone. -/
theorem Word.eq_controls {w : Word} (h : w &&& 0x5F0F = 0) : w = w &&& 0xA0F0 := by
  calc w = w &&& (0x5F0F ||| 0xA0F0) := (BitVec.and_allOnes (x := w)).symm
    _ = (w &&& 0x5F0F) ||| (w &&& 0xA0F0) := by ext i hi; interval_cases i <;> simp
    _ = w &&& 0xA0F0 := by rw [h]; exact BitVec.zero_or

/-- The row of PORT_CTRL (R112). -/
def portCtrlRow : RegRow := { i0 := 0x3000, i1 := 0x301F, s0 := 1, s1 := 1, acc := .rw }

theorem regRow_portCtrl : ∀ p : Port, regRow (0x3000 + p) 1 = some portCtrlRow := by decide

theorem keptBits_portCtrl : ∀ p : Port, keptBits (0x3000 + p) 1 = 0xE0F0 := by decide

theorem State.badValue_portCtrl (s : State) {p : Port} (v : Nat) (h1 : p.val ≠ 28) (h2 : p.val ≠ 29) : s.badValue (0x3000 + p) 1 v = none := by
  have hlt := p.isLt
  unfold State.badValue
  simp only []
  repeat rw [if_neg (by omega)]
  rw [if_pos (by omega)]
  repeat rw [if_neg (by omega)]

theorem State.putValue_portCtrl (s : State) (h : Path) (p : Port) (v v' : Word) :
    s.putValue (some h) (onePart portCtrlRow (0x3000 + p) 1 v) v'.toNat = s.portCtrl p v' := by
  have hlt := p.isLt
  have ht : s.toStage (onePart portCtrlRow (0x3000 + p) 1 v) = false := by
    simp [State.toStage, onePart, portCtrlRow, (actsAtOnce_port p).1]
  have hp : (⟨0x3000 + p.val - 0x3000, by omega⟩ : Port) = p := Fin.ext (by simp)
  unfold State.putValue
  rw [if_neg (by simp [ht]), if_neg (by show ¬(0x3000 + p.val = 0x1201); omega),
    dif_pos ⟨by show 0x3000 ≤ 0x3000 + p.val; omega, by show 0x3000 + p.val ≤ 0x301F; omega, rfl⟩, w16_toNat]
  exact congrArg (fun k => s.portCtrl k v') hp

/-- A word of PORT_CTRL is taken as it is written, without its reserved bits (R112). -/
theorem State.write_portCtrl (h : Path) {p : Port} (v : Word) (hd : s.dictOn = true) (h1 : p.val ≠ 28) (h2 : p.val ≠ 29) :
    s.write h (0x3000 + p) 1 [v] = (s.noAsm h).portCtrl p (v &&& 0xE0F0) := by
  rw [State.write_put hd (regRow_portCtrl p) rfl rfl (isPkgWide_port p 1) (actsAtOnce_port p).1 (State.rwCmd_port _ _ _ _)
    (State.badValue_portCtrl _ _ h1 h2), keptBits_portCtrl, State.putValue_portCtrl]

/-! ### The port controls -/

/-- What follows a control word that is kept, `was` being ENABLE before it: a flush, and the end or the beginning of the port's service (R104 to R106). -/
def State.controlled (s : State) (p : Port) (was : Bool) (v : Word) : State :=
  let a := if bit v 14 then s.flushPort p 1 else s
  if was && !bit v 15 then a.flushPort p 4 else if !was && bit v 15 then a.enablePort p else a

/-- The reserved bits of a written word bear on none of the controls. -/
theorem Word.kept_controls (v : Word) : (v &&& 0xE0F0) &&& 0xA000 ||| (v &&& 0xE0F0) &&& 0x00F0 = v &&& 0xA0F0 ∧ bit (v &&& 0xE0F0) 14 = bit v 14 ∧
    bit (v &&& 0xE0F0) 15 = bit v 15 ∧ fld (v &&& 0xE0F0) 7 4 = fld v 7 4 := by
  refine ⟨?_, by simp [bit], by simp [bit], ?_⟩
  · ext i hi
    interval_cases i <;> simp
  · rw [fld_pin, fld_pin]
    congr 1
    ext i hi
    interval_cases i <;> simp

/-- The state with a control word in its place. -/
def State.ctrlKept (s : State) (h : Path) (p : Port) (w : Word) : State := (s.noAsm h).setReg (0x3000 + p) 1 w

theorem State.write_controls (h : Path) {v : Word} (hd : s.dictOn = true) (h1 : p.val ≠ 28) (h2 : p.val ≠ 29) (hg : goodPin (fld v 7 4)) :
    s.write h (0x3000 + p) 1 [v] = (s.ctrlKept h p (v &&& 0xA0F0)).controlled p (bit (s.reg (0x3000 + p) 1) 15) v := by
  obtain ⟨e1, e2, e3, e4⟩ := Word.kept_controls v
  have hb : (decide (8 ≤ fld v 7 4) && decide (fld v 7 4 ≤ 14)) = false := by
    rcases hg with hg | hg <;> simp <;> omega
  rw [State.write_portCtrl h v hd h1 h2]
  unfold State.portCtrl State.controlled State.ctrlKept
  simp only [e2, e3, e4, hb, e1, Bool.false_eq_true, if_false, State.reg_noAsm]

section
variable (s) (h : Path) (p : Port) (w : Word)

theorem PortFrame.ctrlKept : PortFrame [.dict, pathField h] p s (s.ctrlKept h p w) :=
  .off_ports (((s.noAsm_frame h).then (State.setReg_frame _ _ _ _)).mono (by simp)) (by cases h <;> decide)

theorem State.onlyWord_ctrlKept : OnlyWord s (s.ctrlKept h p w) (0x3000 + p) 1 := (OnlyWord.of_same (s.noAsm_dict h)).trans (State.onlyWord_setReg _ _ _ _)

@[simp] theorem State.reg_ctrlKept : (s.ctrlKept h p w).reg (0x3000 + p) 1 = w := State.reg_setReg_same _ _ _ _

/-- Every other word of the port stands. -/
theorem State.reg_ctrlKept_ne {x : Nat} (hx : x ≠ 1) : (s.ctrlKept h p w).reg (0x3000 + p) x = s.reg (0x3000 + p) x := by
  rw [State.ctrlKept, State.reg_setReg_ne, State.reg_noAsm]
  unfold wkey
  omega

@[simp] theorem State.port_ctrlKept (k : Nat) : (s.ctrlKept h p w).port k = s.port k :=
  State.port_of_ports ((PortFrame.ctrlKept s h p w).2 .ports (by cases h <;> decide)) k

theorem State.dom_ctrlKept (k : Nat) : (s.ctrlKept h p w).dom k = s.dom k := by
  have e : (s.ctrlKept h p w).pd = s.pd := (PortFrame.ctrlKept s h p w).2 .pd (by cases h <;> decide)
  rw [State.dom, State.dom, e]
end

theorem State.serves_ctrlKept (s : State) (h : Path) (p : Port) (w : Word) :
    (s.ctrlKept h p w).portsUp = s.portsUp ∧ (s.ctrlKept h p w).boot = s.boot ∧ (s.ctrlKept h p w).anvil = s.anvil ∧
      (s.ctrlKept h p w).nextBusy p = s.nextBusy p ∧ (s.ctrlKept h p w).out = s.out := by
  cases h <;> exact ⟨rfl, rfl, rfl, rfl, rfl⟩

/-- What a control word comes to that flushes the port. -/
theorem State.flush_ctrlKept (h : Path) (w : Word) (hd : s.dictOn = true) (hf : (s.port p).flush = none) (hw : 1 ≤ fld (s.reg (0x3000 + p) 4) 15 8) (cause : Nat) :
    let t := (s.ctrlKept h p w).flushPort p cause
    (t.port p).Flushed (w16 cause).toNat (cause == 4) (s.port p).epoch ∧ (t.port p).panic = false ∧
      LogsOne s t 0x0404 [w16 p, w16 cause, w16 ((s.port p).epoch + 1).toNat] ∧ PortFrame (.dict :: pathField h :: flushFields) p s t ∧
      t.reg (0x3000 + p) 1 = w ∧ OnlyWord s t (0x3000 + p) 1 := by
  intro t
  have hk := PortFrame.ctrlKept s h p w
  obtain ⟨h1, h2, h3, h4⟩ := State.flushPort_flushes (s := s.ctrlKept h p w) (p := p) (by rwa [State.dom_ctrlKept]) (by simpa using hf)
    (by rwa [State.reg_ctrlKept_ne _ _ _ _ (by decide)]) cause
  rw [State.port_ctrlKept] at h1 h3
  refine ⟨h1, h2, ?_, (hk.mono (by simp)).trans (h4.mono (by simp)), ?_, ?_⟩
  · exact LogsOne.of_frame hk.2 h3 (by cases h <;> decide) (by cases h <;> decide) (by cases h <;> decide) (by cases h <;> decide)
  · rw [State.reg_of_frame h4.2, State.reg_ctrlKept]
  · exact (State.onlyWord_ctrlKept s h p w).of_dict (h4.2 .dict (by simp))

/-! ### The control words that the commands write -/

/-- A control word with another pin of ZG_XOFF (R103). -/
def Word.withPin (w : Word) (pin : BitVec 4) : Word := (w &&& 0xFF0F) ||| (pin.setWidth 16 <<< 4)

section
variable {w : Word} (hk : w &&& 0x5F0F = 0)
include hk

theorem Word.kept_bit14 : bit w 14 = false := by
  rw [Word.eq_controls hk]
  simp [bit]

theorem Word.kept_enable : (w ||| 0x8000) &&& 0xA0F0 = w ||| 0x8000 := by
  rw [Word.eq_controls hk]
  ext i hi
  interval_cases i <;> simp

theorem Word.kept_disable : (w &&& 0x7FFF) &&& 0xA0F0 = w &&& 0x7FFF := by
  rw [Word.eq_controls hk]
  ext i hi
  interval_cases i <;> simp

theorem Word.kept_flush : (w ||| 0x4000) &&& 0xA0F0 = w := by
  conv_rhs => rw [Word.eq_controls hk]
  ext i hi
  interval_cases i <;> simp

theorem Word.kept_pull (on : Bool) : setBit w 13 on &&& 0xA0F0 = setBit w 13 on ∧ setBit w 13 on &&& 0x5F0F = 0 := by
  rw [Word.eq_controls hk]
  constructor <;> (unfold setBit; split <;> (ext i hi; interval_cases i <;> simp))

theorem Word.kept_pin (pin : BitVec 4) :
    Word.withPin w pin &&& 0xA0F0 = Word.withPin w pin ∧ Word.withPin w pin &&& 0x5F0F = 0 := by
  rw [Word.eq_controls hk]
  constructor <;> (ext i hi; interval_cases i <;> simp [Word.withPin])
end

section
variable (w : Word)

theorem Word.fld_enable : fld (w ||| 0x8000) 7 4 = fld w 7 4 := by
  rw [fld_pin, fld_pin]
  congr 1
  ext i hi
  interval_cases i <;> simp

theorem Word.fld_disable : fld (w &&& 0x7FFF) 7 4 = fld w 7 4 := by
  rw [fld_pin, fld_pin]
  congr 1
  ext i hi
  interval_cases i <;> simp

theorem Word.fld_flush : fld (w ||| 0x4000) 7 4 = fld w 7 4 := by
  rw [fld_pin, fld_pin]
  congr 1
  ext i hi
  interval_cases i <;> simp

theorem Word.fld_pull (on : Bool) : fld (setBit w 13 on) 7 4 = fld w 7 4 := by
  rw [fld_pin, fld_pin]
  congr 1
  ext i hi
  cases on <;> interval_cases i <;> simp [setBit]

theorem Word.fld_pinSet (pin : BitVec 4) : fld (Word.withPin w pin) 7 4 = pin.toNat := by
  rw [fld_pin]
  congr 1
  ext i hi
  interval_cases i <;> simp [Word.withPin]
end

/-- A port that is enabled in service, with the next epoch free, sends its initialisation word (R95, R105). -/
theorem State.enablePort_serving (hf : (s.port p).flush = none) (hu : s.portsUp = true) (hb : s.boot.st = 2) (ha : s.anvil.aligned = true)
    (hn : s.nextBusy p = false) : s.enablePort p = s.sendInit p := by
  simp [State.enablePort, State.initPort, hf, hu, hb, ha, hn]

/-- A control word that neither flushes, enables nor disables changes its word and no other thing. -/
theorem State.controlled_plain (s : State) (p : Port) {v : Word} {was : Bool} (h : bit v 14 = false) (hb : bit v 15 = was) : s.controlled p was v = s := by
  cases was <;> simp [State.controlled, h, hb]

theorem portControls : Claims.PortControls := by
  intro s h p hd h1 h2 hkept hf hw old flushed
  obtain ⟨hk, hg⟩ := portCtrlKept_iff.mp hkept
  -- what flushes answers for every clause on a flushed port
  have hflush (cause : Nat) (w : Word) (hc : (w16 cause).toNat = cause) : flushed cause ((s.ctrlKept h p w).flushPort p cause) := by
    obtain ⟨f, hp, hl, hfr, -, -⟩ := State.flush_ctrlKept (p := p) h w hd hf hw cause
    exact ⟨by rw [f.flush, hc], f.queue, f.early, f.fifo, f.xoff, hp, f.epoch, f.onward, hl, hfr.1, hfr.2.mono (by simp)⟩
  have hwrite {v : Word} (hv : goodPin (fld v 7 4)) := State.write_controls (s := s) (p := p) h hd h1 h2 hv
  refine ⟨fun hb hu hst hal hn => ?_, fun hb => ?_, ?_, fun on => ?_, fun pin hpin => ?_⟩
  · set a := s.ctrlKept h p (old ||| 0x8000)
    have hfr : PortFrame [.dict, pathField h] p s a := PortFrame.ctrlKept s h p _
    obtain ⟨eu, eb, ea, en, eo⟩ := s.serves_ctrlKept h p (old ||| 0x8000)
    have ec : a.reg (0x3000 + p) 3 = s.reg (0x3000 + p) 3 := s.reg_ctrlKept_ne h p _ (by decide)
    have ep : a.port p = s.port p := s.port_ctrlKept h p _ p
    have ei : a.initOut p = s.initOut p := by rw [State.initOut, State.initOut, ec, ep]
    have hx : exec (.portEnable h p) s = .next (a.sendInit p) := by
      refine congrArg Host.Outcome.next ((hwrite (by rwa [Word.fld_enable])).trans ?_)
      have h14 : bit (old ||| 0x8000) 14 = false := by simpa [bit] using Word.kept_bit14 hk
      have h15 : bit (old ||| 0x8000) 15 = true := by simp [bit]
      rw [Word.kept_enable hk, State.controlled, show bit (s.reg (0x3000 + p) 1) 15 = false from hb, h14, h15]
      exact State.enablePort_serving (s := a) (by rwa [ep]) (eu.trans hu) (by rwa [eb]) (by rwa [ea]) (en.trans hn)
    have hs := PortFrame.sendInit a p
    obtain ⟨w, hp⟩ := a.port_sendInit p
    rw [ep, ec] at hp
    have hout := a.out_sendInit p
    rw [eo, ei] at hout
    have ht : PortFrame [.dict, .ports, .out, pathField h] p s (a.sendInit p) := (hfr.mono (by simp)).trans (hs.mono (by simp))
    refine ⟨_, hx, ?_, by rw [hp]; rfl, by rw [hp]; rfl, by rw [hp]; rfl, by rw [hp]; rfl, hout, ?_, ht⟩
    · rw [State.reg_of_frame hs.2]
      exact s.reg_ctrlKept h p _
    · exact (s.onlyWord_ctrlKept h p _).of_dict (hs.2 .dict (by simp))
  · have hx : exec (.portDisable h p) s = .next ((s.ctrlKept h p (old &&& 0x7FFF)).flushPort p 4) := by
      refine congrArg Host.Outcome.next ((hwrite (by rwa [Word.fld_disable])).trans ?_)
      have h14 : bit (old &&& 0x7FFF) 14 = false := by simpa [bit] using Word.kept_bit14 hk
      have h15 : bit (old &&& 0x7FFF) 15 = false := by simp [bit]
      rw [Word.kept_disable hk, State.controlled, show bit (s.reg (0x3000 + p) 1) 15 = true from hb, h14, h15]
      rfl
    obtain ⟨f, -, -, -, hr, ho⟩ := State.flush_ctrlKept (p := p) h (old &&& 0x7FFF) hd hf hw 4
    exact ⟨_, hx, hr, f.flushOff, hflush 4 _ rfl, ho⟩
  · have hx : exec (.portFlush h p) s = .next ((s.ctrlKept h p old).flushPort p 1) := by
      refine congrArg Host.Outcome.next ((hwrite (by rwa [Word.fld_flush])).trans ?_)
      have h14 : bit (old ||| 0x4000) 14 = true := by simp [bit]
      have h15 : bit (old ||| 0x4000) 15 = bit old 15 := by simp [bit]
      rw [Word.kept_flush hk, State.controlled, show bit (s.reg (0x3000 + p) 1) 15 = bit old 15 from rfl, h14, h15]
      cases bit old 15 <;> rfl
    obtain ⟨f, -, -, -, hr, ho⟩ := State.flush_ctrlKept (p := p) h old hd hf hw 1
    exact ⟨_, hx, hr, f.flushOff, hflush 1 _ rfl, ho⟩
  · obtain ⟨hm, hk'⟩ := Word.kept_pull hk on
    have hx : exec (.portPullSet h p on) s = .next (s.ctrlKept h p (setBit old 13 on)) := by
      refine congrArg Host.Outcome.next ((hwrite (by rwa [Word.fld_pull])).trans ?_)
      rw [hm]
      exact State.controlled_plain _ p (Word.kept_bit14 hk') (bit_setBit _ _ _ _ (by decide))
    refine ⟨_, hx, s.reg_ctrlKept h p _, ?_, s.onlyWord_ctrlKept h p _, (PortFrame.ctrlKept s h p _).2⟩
    rw [s.reg_ctrlKept h p, portCtrlKept_iff, Word.fld_pull]
    exact ⟨hk', hg⟩
  · obtain ⟨hm, hk'⟩ := Word.kept_pin hk pin
    have hg' : goodPin (fld (Word.withPin old pin) 7 4) := by rwa [Word.fld_pinSet]
    have hx : exec (.portXoffPinSet h p pin) s = .next (s.ctrlKept h p (Word.withPin old pin)) := by
      refine congrArg Host.Outcome.next ((hwrite hg').trans ?_)
      rw [hm]
      exact State.controlled_plain _ p (Word.kept_bit14 hk') (by simp [bit, Word.withPin, old])
    refine ⟨_, hx, s.reg_ctrlKept h p _, ?_, s.onlyWord_ctrlKept h p _, (PortFrame.ctrlKept s h p _).2⟩
    rw [s.reg_ctrlKept h p, portCtrlKept_iff]
    exact ⟨hk', hg'⟩

/-- A control word that names no pin of ZG_XOFF and not none keeps the pin of before (R103). -/
theorem badXoffPin : Claims.BadXoffPin := by
  intro s h p pin hd h1 h2 hkept h8 h14
  obtain ⟨hk, hg⟩ := portCtrlKept_iff.mp hkept
  set old := s.reg (0x3000 + p) 1 with hold
  set v := Word.withPin old pin with hv
  obtain ⟨-, hk'⟩ := Word.kept_pin hk pin
  obtain ⟨e1, e2, e3, e4⟩ := Word.kept_controls v
  have hpin : fld v 7 4 = pin.toNat := Word.fld_pinSet old pin
  have hword : (v &&& 0xE0F0) &&& 0xA000 ||| old &&& 0x00F0 = old := by
    rw [hv, Word.eq_controls hk]
    ext i hi
    interval_cases i <;> simp [Word.withPin]
  set args := [w16 p, w16 (0x3000 + p), 1, v &&& 0xE0F0]
  set a := (s.noAsm h).log1 0x0405 args
  have hx : exec (.portXoffPinSet h p pin) s = .next (a.setReg (0x3000 + p) 1 old) := by
    refine congrArg Host.Outcome.next ((State.write_portCtrl h v hd h1 h2).trans ?_)
    unfold State.portCtrl
    simp only [e2, e3, e4, hpin, h8, h14, decide_true, Bool.and_self, if_true, State.reg_noAsm, ← hold, hword, show bit v 14 = false from Word.kept_bit14 hk']
    rw [show bit v 15 = bit old 15 by simp [bit, hv, Word.withPin]]
    cases bit old 15 <;> rfl
  have hf : OnlyChanges [.log, .maint, .out, pathField h] s a := ((s.noAsm_frame h).then (State.log1_frame _ _ _)).mono (by simp)
  have hr := State.setReg_frame a (0x3000 + p) 1 old
  refine ⟨_, hx, State.reg_setReg_same _ _ _ _, ⟨args, ?_⟩, ?_, (hf.then hr).mono (by simp)⟩
  · have hd' : (s.noAsm h).dom 1 = true := by cases h <;> exact hd
    exact (LogsOne.of_path (s.noAsm_frame h) (State.log1_logs hd')).then hr
  · exact (OnlyWord.of_same (hf .dict (by cases h <;> decide))).trans (State.onlyWord_setReg _ _ _ _)

/-- Settles O31: what each control word that a command writes comes to, the port that a flush leaves, and the word that ends it. That FLUSH reads 1 still after a
disable is the model's choice (log entry 24). -/
theorem portControl : Obligations.PortControl := ⟨portControls, badXoffPin, flushEnds⟩

end Sys2Proof.Machine

/-!
Requests that leave their queue (R96, R107, R118, R119, R130, R132, R138): the charge, the way onward, the refusal, and a MASTER_RESET that has nothing to
wait for.
-/
namespace Sys2Proof.Machine
open Sys2Proof

variable {s t u : State} {l : List Field} {p : Port}

/-! ### The one request of a queue -/

/-- The queue of a port without the one request that stood in it. -/
def State.unqueued (s : State) (p : Port) : State := s.setPort p { s.port p with queue := [] }

@[simp] theorem State.port_unqueued (s : State) (p : Port) : (s.unqueued p).port p = { s.port p with queue := [] } := State.port_setPort_same _ _ _

theorem PortFrame.unqueued (s : State) (p : Port) : PortFrame [.ports] p s (s.unqueued p) := .setPort s p _

/-- What leaves leaves its port with XOFF and PANIC at the level, and any MASTER_RESET that waited for it done. -/
theorem exec_leaves {r : QReq} (hu : s.portsUp = true) (hf : (s.port p).flush = none) (hq : (s.port p).queue = [r]) (h : s.tryLeave p r [] [] = .go t) :
    exec (.requestLeaveQueue p) s = .next ((t.watch p).finishResets p) := by
  show Host.Outcome.next _ = _
  rw [hu, hf, hq]
  simp [State.leaveFrom, h]

/-- Leaving with no MASTER_RESET under way changes the port by its level alone. -/
theorem State.left_none (h : (t.port p).resets = []) : (t.watch p).finishResets p = (t.watch p).setPort p ((t.watch p).port p) :=
  State.finishResets_none (by rw [State.port_watch]; exact h)

/-- A request that owns all its lines waits for none (R96). -/
theorem waitsForLine_eq {r : QReq} (hg : isWrite r.op = true → r.w.count ≤ r.got.length) : (isWrite r.op && decide (r.got.length < r.w.count)) = false := by
  cases hx : isWrite r.op
  · rfl
  · simp [hg hx]

section
variable {r : QReq} (hb : r.bad = none) (hm : r.op ≠ .masterReset) (hg : isWrite r.op = true → r.w.count ≤ r.got.length) (hh : s.checkHeld = false)
  (hc : s.underCap r.w.master = true)
include hb hm hg hh hc

theorem State.tryLeave_refused {st : Status} {code e : Nat} (hk : s.check p r.op r.w = .refuse st code e) (hr : s.room p 1 = true) :
    s.tryLeave p r [] [] = .go ((s.unqueued p).refuse p r st code e) := by
  have hw := waitsForLine_eq hg
  unfold State.tryLeave
  simp only [hb, hm, hw, hh, hc, hk, hr, if_false, if_true, Bool.false_eq_true, Bool.not_true, Bool.or_self]
  rfl

theorem State.tryLeave_passed {coh : Bool} (hk : s.check p r.op r.w = .pass false coh) (hi : s.store.initing = false) (hr : s.room p r.need = true)
    (hl : s.inLanes p r.w = false) (hn : s.here r.op coh r.w.byteAddr r.w.count = none) (hs : s.hasShare (s.serves r.w.byteAddr r.w.count) = true) :
    s.tryLeave p r [] [] = .go ((s.unqueued p).passOn p r coh none) := by
  have hw := waitsForLine_eq hg
  unfold State.tryLeave
  simp only [hb, hm, hw, hh, hc, hk, hi, hr, hl, hn, hs, if_false, Bool.false_eq_true, Bool.not_true, Bool.or_self, Bool.and_false]
  rfl
end

/-! ### The charge -/

theorem PortFrame.setBudget (s : State) (b : Budget) : PortFrame [.budget] p s { s with budget := b } :=
  .off_ports (Fr.only (M := 2 ^ 17) (Fr.upd (Fr.refl s) rfl) (by decide)) (by decide)

theorem PortFrame.count (s : State) (i x n : Nat) : PortFrame [.ctr] p s (s.count i x n) := .off_ports (s.count_frame i x n) (by decide)

theorem PortFrame.logLim (s : State) (code key n w : Nat) (args : Nat → List Word) : PortFrame [.log, .maint, .out] p s (s.logLim code key n w args) :=
  .off_ports (s.logLim_frame code key n w args) (by decide)

/-- A charge touches the budgets, the count and the event of a budget overdrawn, and no port (R130, R131). -/
theorem PortFrame.charge (s : State) (p q : Port) (m : BitVec 8) (op : Op) (n : Nat) :
    PortFrame [.budget, .ctr, .log, .maint, .out] q s (s.charge p m op n).1 := by
  have hset {m : List Field} (a : State) (b : Budget) (hm : .budget ∈ m) : PortFrame m q a { a with budget := b } :=
    (PortFrame.setBudget a b).mono (by simpa using hm)
  unfold State.charge
  dsimp only
  split
  · exact hset s _ (by simp)
  · split
    · exact (hset s _ (by simp)).next (.count _ _ _ _)
    · refine PortFrame.trans ?_ ((PortFrame.logLim _ _ _ _ _ _).mono (by simp))
      refine PortFrame.trans ?_ (hset _ _ (by simp))
      exact (hset s _ (by simp)).next (.count _ _ _ _)

/-- The amount of the request is charged, and the other counts of masters and homes stand (R130). -/
theorem State.budget_charge (s : State) (p : Port) (m : BitVec 8) (op : Op) (n : Nat) :
    (s.charge p m op n).1.budget.used = s.budget.used.put 0 m.toNat (s.budget.used.getD m.toNat 0 + chargeOf op n) ∧
      (s.charge p m op n).1.budget.outst = s.budget.outst ∧ (s.charge p m op n).1.budget.shareHeld = s.budget.shareHeld := by
  unfold State.charge
  dsimp only
  split
  · exact ⟨rfl, rfl, rfl⟩
  · split
    · exact ⟨rfl, rfl, rfl⟩
    · rw [State.logLim_budget]
      exact ⟨rfl, rfl, rfl⟩

/-! ### The way onward -/

/-- A count raised by 1. -/
theorem SMap.getD_put_succ (m : SMap Nat) (k : Nat) : (m.put 0 k (((m.getD k 0 : Nat) : Int) + 1).toNat).getD k 0 = m.getD k 0 + 1 := by
  rw [SMap.getD_put_same]
  omega

section
variable (s) (m : BitVec 8) (h : Nat) (d : Int)

theorem State.used_addOut : (s.addOut m d).budget.used = s.budget.used := rfl

theorem State.outst_addOut : (s.addOut m d).budget.outst = s.budget.outst.put 0 m.toNat (((s.budget.outst.getD m.toNat 0 : Nat) : Int) + d).toNat := rfl

theorem State.shareHeld_addOut : (s.addOut m d).budget.shareHeld = s.budget.shareHeld := rfl

theorem State.used_addShare : (s.addShare h d).budget.used = s.budget.used := rfl

theorem State.outst_addShare : (s.addShare h d).budget.outst = s.budget.outst := rfl

theorem State.shareHeld_addShare : (s.addShare h d).budget.shareHeld = s.budget.shareHeld.put 0 h (((s.budget.shareHeld.getD h 0 : Nat) : Int) + d).toNat := rfl
end

/-- The tile that a request goes to. -/
def State.homeOf (s : State) (r : QReq) : Nat := s.serves r.w.byteAddr r.w.count

/-- The onward entry of a request that no cipher stream carries (R99, R132, R138). -/
def State.newOnward (s : State) (p : Port) (r : QReq) (coh : Bool) : Onward :=
  { r.onward (s.sched.txid + 1) (s.homeOf r) (s.charge p r.w.master r.op r.w.count).2 coh none (s.map.inSeam r.w.byteAddr) with share := true }

/-- A request charged, with its number and its onward entry (R99, R130). -/
def State.entered (s : State) (p : Port) (r : QReq) (coh : Bool) : State :=
  let a := (s.charge p r.w.master r.op r.w.count).1
  ({ a with sched := { a.sched with txid := a.sched.txid + 1 } }).setPort p { a.port p with onward := (a.port p).onward ++ [s.newOnward p r coh] }

/-- A request counted for its master and its home's share, its credits returned (R95, R132, R138). -/
def State.accounted (s : State) (p : Port) (r : QReq) (coh : Bool) : State :=
  ((((s.entered p r coh).addOut r.w.master 1).retCredOf p r.w.epoch 1 r.got.length).addShare (s.homeOf r) 1).watch p

section
variable (s) (p : Port) (r : QReq) (coh : Bool)

theorem State.sched_charge (m : BitVec 8) (op : Op) (n : Nat) : (s.charge p m op n).1.sched = s.sched := (PortFrame.charge s p p m op n).2 .sched (by decide)

theorem State.passOn_plain : s.passOn p r coh none = (s.accounted p r coh).sendRequest (s.homeOf r) (r.toHome (s.newOnward p r coh) s.t p) := by
  unfold State.accounted State.entered State.newOnward
  rw [← s.sched_charge p r.w.master r.op r.w.count]
  rfl

theorem PortFrame.entered : PortFrame [.ports, .sched, .budget, .ctr, .log, .maint, .out] p s (s.entered p r coh) := by
  have hs (a : State) : PortFrame [.sched] p a { a with sched := { a.sched with txid := a.sched.txid + 1 } } :=
    .off_ports (Fr.only (M := 2 ^ 19) (Fr.upd (Fr.refl a) rfl) (by decide)) (by decide)
  exact (((PortFrame.refl s).next (.charge s p p _ _ _)).next (hs _)).next (.setPort _ p _)

theorem PortFrame.accounted : PortFrame [.ports, .sched, .budget, .ctr, .log, .maint, .out] p s (s.accounted p r coh) :=
  ((((PortFrame.entered s p r coh).next (.addOut _ _ _)).next (.retCredOf _ p _ _ _)).next (.addShare _ _ _)).next (.watch _ p)

theorem State.port_entered : (s.entered p r coh).port p = { s.port p with onward := (s.port p).onward ++ [s.newOnward p r coh] } := by
  have h : (s.charge p r.w.master r.op r.w.count).1.port p = s.port p :=
    State.port_of_ports ((PortFrame.charge s p p r.w.master r.op r.w.count).2 .ports (by decide)) p
  unfold State.entered
  simp only [State.port_setPort_same, h]

/-- Beside its credits and level the port gains the onward entry. -/
theorem State.port_accounted : ∃ a b w,
    (s.accounted p r coh).port p = PortSt.flowed { s.port p with reqCred := a, wrCred := b, onward := (s.port p).onward ++ [s.newOnward p r coh] } p w := by
  obtain ⟨a, b, h⟩ := ((s.entered p r coh).addOut r.w.master 1).port_retCredOf p r.w.epoch 1 r.got.length
  rw [State.port_addOut, State.port_entered] at h
  exact ⟨a, b, _, by rw [State.accounted, State.port_watch, State.port_addShare, h]⟩

theorem State.budget_entered : (s.entered p r coh).budget = (s.charge p r.w.master r.op r.w.count).1.budget := rfl

/-- The three counts that a request raises (R130, R132, R138). -/
theorem State.budget_accounted :
    (s.accounted p r coh).budget.used.getD r.w.master.toNat 0 = s.budget.used.getD r.w.master.toNat 0 + chargeOf r.op r.w.count ∧
      (s.accounted p r coh).budget.outst.getD r.w.master.toNat 0 = s.budget.outst.getD r.w.master.toNat 0 + 1 ∧
      (s.accounted p r coh).budget.shareHeld.getD (s.homeOf r) 0 = s.budget.shareHeld.getD (s.homeOf r) 0 + 1 := by
  obtain ⟨c1, c2, c3⟩ := s.budget_charge p r.w.master r.op r.w.count
  set e := ((s.entered p r coh).addOut r.w.master 1).retCredOf p r.w.epoch 1 r.got.length
  have hr : e.budget = ((s.entered p r coh).addOut r.w.master 1).budget := (PortFrame.retCredOf _ p _ _ _).2 .budget (by decide)
  have hw : (s.accounted p r coh).budget = (e.addShare (s.homeOf r) 1).budget := (PortFrame.watch _ p).2 .budget (by decide)
  rw [hw]
  refine ⟨?_, ?_, ?_⟩
  · rw [State.used_addShare, hr, State.used_addOut, State.budget_entered, c1, SMap.getD_put_same]
  · rw [State.outst_addShare, hr, State.outst_addOut, State.budget_entered, c2, SMap.getD_put_succ]
  · rw [State.shareHeld_addShare, hr, State.shareHeld_addOut, State.budget_entered, c3, SMap.getD_put_succ]
end

theorem Kept.accounted {r : QReq} {coh : Bool} (h : Kept s t) : Kept s (t.accounted p r coh) := by
  have h1 : Kept s (t.charge p r.w.master r.op r.w.count).1 := h.charge
  have h2 : Kept s (t.entered p r coh) := (h1.upd rfl rfl rfl rfl rfl rfl).setPort
  exact h2.addOut.retCredOf.addShare.watch

/-- The arc to a tile is the rings' own (R14). -/
theorem State.arcTo_of_frame (k : OnlyChanges l s t) (hi : .ident ∉ l := by simp) (hr : .repair ∉ l := by simp) (h : Nat) : t.arcTo h = s.arcTo h := by
  have ei : t.ident = s.ident := k .ident hi
  have er : t.repair = s.repair := k .repair hr
  have eu : t.linksUp h = s.linksUp h := by rw [State.linksUp, State.linksUp, State.t, State.t, State.n, State.n, ei]
  have ed : t.linksDown h = s.linksDown h := by rw [State.linksDown, State.linksDown, State.t, State.t, State.n, State.n, ei]
  rw [State.arcTo, State.arcTo, State.t, State.t, ei, er, eu, ed]

/-- What is sent stands among the outputs of the step that sends it. -/
theorem mem_sent {a b : State} {o : Out} (ha : s.out <+: a.out) (hb : (a.emit o).out <+: b.out) : ∃ l, b.out = s.out ++ l ∧ o ∈ l := by
  obtain ⟨x, hx⟩ := ha
  obtain ⟨y, hy⟩ := hb
  refine ⟨x ++ [o] ++ y, ?_, by simp⟩
  rw [← hy, State.emit, ← hx]
  simp

/-- What the onward entry of a request says of it. -/
theorem State.newOnward_says (s : State) (p : Port) (r : QReq) (coh : Bool) :
    let o := s.newOnward p r coh
    o.op = r.op ∧ o.addr = r.w.byteAddr ∧ o.lines = r.w.count ∧ o.tag = r.w.tag ∧ o.master = r.w.master ∧ o.home = s.homeOf r ∧ o.reserved = r.need ∧
      o.txid = s.sched.txid + 1 ∧ o.dropped = false := ⟨rfl, rfl, rfl, rfl, rfl, rfl, rfl, rfl, rfl⟩

/-- What goes to the home of a request says what its onward entry says, with its data (R15). -/
theorem QReq.toHome_says (r : QReq) (o : Onward) (k : Nat) (p : Port) :
    let q := r.toHome o k p
    q.tile = k ∧ q.port = p ∧ q.txid = o.txid ∧ q.op = o.op ∧ q.addr = o.addr ∧ q.lines = o.lines ∧ q.master = o.master ∧ q.data = r.data :=
  ⟨rfl, rfl, rfl, rfl, rfl, rfl, rfl, rfl⟩

/-- The fields that a request on its way touches. -/
@[simp] def leaveFields : List Field := [.ports, .out, .budget, .sched, .ctr, .log, .maint]

section
variable {r : QReq} {coh : Bool}

/-- The port that a plain request has left onward, once its level is followed. -/
theorem State.port_passed (hr : (s.port p).resets = []) :
    ∃ a b w w', (((s.passOn p r coh none).watch p).finishResets p).port p =
      PortSt.flowed (PortSt.flowed { s.port p with reqCred := a, wrCred := b, onward := (s.port p).onward ++ [s.newOnward p r coh] } p w) p w' := by
  obtain ⟨a, b, w, hp⟩ := s.port_accounted p r coh
  have hq : (s.passOn p r coh none).port p = (s.accounted p r coh).port p := by rw [State.passOn_plain]; exact State.port_ring _ _ _
  have hres : ((s.passOn p r coh none).port p).resets = [] := by rw [hq, hp]; exact hr
  exact ⟨a, b, w, _, by rw [State.left_none hres, State.port_setPort_same, State.port_watch, hq, hp]⟩

theorem PortFrame.passed (s : State) (p : Port) (r : QReq) (coh : Bool) :
    PortFrame leaveFields p s (((s.passOn p r coh none).watch p).finishResets p) := by
  rw [State.passOn_plain]
  exact ((((PortFrame.accounted s p r coh).mono (by simp)).next (.ring _ _)).next (.watch _ p)).next (.finishResets _ p)

theorem State.budget_passed (s : State) (p : Port) (r : QReq) (coh : Bool) :
    (((s.passOn p r coh none).watch p).finishResets p).budget = (s.accounted p r coh).budget := by
  rw [State.passOn_plain]
  exact (((PortFrame.ring _ _).mono (by simp)).trans ((PortFrame.watch _ p).trans (.finishResets _ p))).2 .budget (by decide)

/-- The request is sent to its home. -/
theorem State.out_passed (s : State) (p : Port) (r : QReq) (coh : Bool) :
    ∃ l, (((s.passOn p r coh none).watch p).finishResets p).out = s.out ++ l ∧
      Out.ring (.request (s.homeOf r) (s.arcTo (s.homeOf r)) (r.toHome (s.newOnward p r coh) s.t p)) ∈ l := by
  have ha := PortFrame.accounted s p r coh
  rw [State.passOn_plain, State.sendRequest, State.arcTo_of_frame ha.2]
  exact mem_sent (Kept.accounted (Kept.refl s)).out (Kept.finishResets (Kept.watch (Kept.refl _))).out
end

theorem requestLeaves : Claims.RequestLeaves := by
  intro s p r hu hq hb hm hf hr hh hl hg hc ⟨coh, hk⟩ hi hroom hhere home hs
  have hx := exec_leaves hu hf hq (State.tryLeave_passed hb hm hg hh hc hk hi hroom hl (hhere coh) hs)
  have hz : PortFrame [.ports] p s (s.unqueued p) := PortFrame.unqueued s p
  have hzp := s.port_unqueued p
  have hhome : (s.unqueued p).homeOf r = home := rfl
  have hsched : (s.unqueued p).sched = s.sched := hz.2 .sched (by decide)
  have hbud : (s.unqueued p).budget = s.budget := hz.2 .budget (by decide)
  have hout : (s.unqueued p).out = s.out := hz.2 .out (by decide)
  have harc : (s.unqueued p).arcTo home = s.arcTo home := State.arcTo_of_frame hz.2 (h := home)
  have ht : (s.unqueued p).t = s.t := rfl
  generalize s.unqueued p = z at hx hz hzp hhome hsched hbud hout harc ht
  obtain ⟨a, b, w, w', hp⟩ := State.port_passed (s := z) (p := p) (r := r) (coh := coh) (by rw [hzp]; exact hr)
  obtain ⟨b1, b2, b3⟩ := z.budget_accounted p r coh
  obtain ⟨l, l1, l2⟩ := z.out_passed p r coh
  obtain ⟨o1, o2, o3, o4, o5, o6, o7, o8, o9⟩ := z.newOnward_says p r coh
  obtain ⟨q1, q2, q3, q4, q5, q6, q7, q8⟩ := r.toHome_says (z.newOnward p r coh) z.t p
  have hfr := (hz.mono (by simp)).trans (PortFrame.passed z p r coh)
  have hbt := z.budget_passed p r coh
  rw [hhome, hbud] at b3
  rw [hbud] at b1 b2
  rw [hhome] at l2 o6
  rw [hsched] at o8
  rw [hout] at l1
  rw [harc] at l2
  generalize ((z.passOn p r coh none).watch p).finishResets p = t at hx hp l1 hfr hbt
  refine ⟨t, hx, ?_, ?_, ⟨_, ?_, o1, o2, o3, o4, o5, o6, o7, o8, o9⟩, by rw [hbt]; exact b1, by rw [hbt]; exact b2, by rw [hbt]; exact b3,
    ⟨l, _, l1, l2, q1.trans ht, q2, q3.trans o8, q4.trans o1, q5.trans o2, q6.trans o3, q7.trans o5, q8⟩, hfr⟩
  · rw [hp, hzp]; rfl
  · rw [hp, hzp]; rfl
  · rw [hp, hzp]; rfl

/-! ### Refusals -/

/-- No request is sent to a home between two states. -/
def NoRequest (s t : State) : Prop := ∀ u arc q, Out.ring (.request u arc q) ∈ t.out → Out.ring (.request u arc q) ∈ s.out

theorem NoRequest.trans (h : NoRequest s t) (k : NoRequest t u) : NoRequest s u := fun a arc q m => h a arc q (k a arc q m)

theorem NoRequest.of_out (h : t.out = s.out) : NoRequest s t := fun _ _ _ m => h ▸ m

/-- One more output, which is no request. -/
theorem NoRequest.of_append {o : Out} (h : t.out = s.out ++ [o]) (ho : ∀ u arc q, o ≠ .ring (.request u arc q)) : NoRequest s t := by
  intro a arc q m
  rw [h, List.mem_append, List.mem_singleton] at m
  exact m.resolve_right fun e => ho a arc q e.symm

theorem NoRequest.logLim (s : State) (code key n w : Nat) (args : Nat → List Word) : NoRequest s (s.logLim code key n w args) := by
  by_cases h : s.limDue (limKey code key) n
  · rcases State.out_log1 s code (args (s.log.held.getD (limKey code key) 0)) with e | ⟨b, e⟩
    · exact .of_out ((State.logLim_due w args h).2.trans e)
    · exact .of_append ((State.logLim_due w args h).2.trans e) (by simp)
  · exact .of_out (State.logLim_held w args h).2

theorem NoRequest.retCredOf (s : State) (p : Port) (e : BitVec 2) (nr nw : Nat) : NoRequest s (s.retCredOf p e nr nw) := by
  unfold State.retCredOf
  split
  · intro a arc q m
    rw [State.retCred, State.each_return] at m
    simpa [State.setPort] using m
  · exact .of_out rfl

theorem NoRequest.watch (s : State) (p : Port) : NoRequest s (s.watch p) := by
  rcases State.out_watch s p with e | ⟨on, e⟩
  · exact .of_out e
  · exact .of_append e (by simp)

theorem NoRequest.pushBeat (s : State) (p : Port) (b : Beat) (a : Nat) : NoRequest s (s.pushBeat p b a) :=
  (NoRequest.of_out (s := s) (t := s.setPort p _) rfl).trans (.watch _ p)

/-- A refusal outside the cipher streams is counted and logged, its credits return, and one beat answers it (R119, R121, R122). -/
theorem State.refuse_plain {r : QReq} (hs : r.w.spec = false) (hd : r.w.desc = none) (st : Status) (code entry : Nat) :
    s.refuse p r st code entry =
      ((s.logAccess p r.op r.w code entry).retCredOf p r.w.epoch 1 r.got.length).pushBeat p (statusBeat st r.w.tag .none 0) := by
  simp only [State.refuse, hs, hd, Bool.false_and, Bool.false_eq_true, if_false]

theorem PortFrame.logAccess (s : State) (p : Port) (op : Op) (w : ReqWord) (code entry : Nat) :
    PortFrame [.ctr, .log, .maint, .out] p s (s.logAccess p op w code entry) :=
  ((PortFrame.refl s).next (.count s _ _ _)).next (.logLim _ _ _ _ _ _)

@[simp] theorem State.port_logAccess (s : State) (p : Port) (op : Op) (w : ReqWord) (code entry k : Nat) : (s.logAccess p op w code entry).port k = s.port k :=
  State.port_of_ports ((PortFrame.logAccess s p op w code entry).2 .ports (by decide)) k

theorem refusedRequestAnswered : Claims.RefusedRequestAnswered := by
  intro s p r st code entry hu hq hb hop hg hs hd hf hr hh hc hk hroom
  have hm : r.op ≠ .masterReset := by rcases hop with h | h <;> simp [h]
  have hx := exec_leaves hu hf hq (State.tryLeave_refused hb hm hg hh hc hk hroom)
  rw [State.refuse_plain hs hd] at hx
  have hz := PortFrame.unqueued s p
  have ha := PortFrame.logAccess (s.unqueued p) p r.op r.w code entry
  have hctr : s.counted ((s.unqueued p).logAccess p r.op r.w code entry) 0x3403 5 1 := by
    have h := (s.unqueued p).counted_count 0x3403 5 1
    unfold State.counted State.ctrOf at h ⊢
    rw [State.logAccess, State.logLim_ctr]
    exact h
  have hn : NoRequest s ((s.unqueued p).logAccess p r.op r.w code entry) :=
    (NoRequest.of_out (t := (s.unqueued p).count 0x3403 5) rfl).trans (.logLim _ _ _ _ _ _)
  have hap : ((s.unqueued p).logAccess p r.op r.w code entry).port p = { s.port p with queue := [] } := by simp
  generalize (s.unqueued p).logAccess p r.op r.w code entry = a at hx ha hctr hn hap
  obtain ⟨rc, wc, hb'⟩ := a.port_retCredOf p r.w.epoch 1 r.got.length
  have hbf := PortFrame.retCredOf a p r.w.epoch 1 r.got.length
  have hbn := NoRequest.retCredOf a p r.w.epoch 1 r.got.length
  generalize a.retCredOf p r.w.epoch 1 r.got.length = b at hx hb' hbf hbn
  have hcp := b.port_pushBeat p (statusBeat st r.w.tag .none 0) 0
  have hcf := PortFrame.pushBeat b p (statusBeat st r.w.tag .none 0) 0
  have hcn := NoRequest.pushBeat b p (statusBeat st r.w.tag .none 0) 0
  generalize b.pushBeat p (statusBeat st r.w.tag .none 0) = c at hx hcp hcf hcn
  rw [hb', hap] at hcp
  have hres : (c.port p).resets = [] := by rw [hcp]; exact hr
  rw [State.left_none hres] at hx
  have htp : ((c.watch p).setPort p ((c.watch p).port p)).port p = (c.port p).flowed p (c.reg (0x3000 + p) 4) := by
    rw [State.port_setPort_same, State.port_watch]
  have hfr : PortFrame [.ports, .out, .ctr, .log, .maint] p s ((c.watch p).setPort p ((c.watch p).port p)) :=
    (((((hz.mono (by simp)).trans (ha.mono (by simp))).next hbf).next hcf).next (.watch c p)).next (.setPort _ p _)
  refine ⟨_, hx, by rw [htp, hcp]; rfl, by rw [htp, hcp]; rfl, ?_, by rw [htp, hcp]; rfl, hfr.2 .budget (by decide), hfr.2 .store (by decide), ?_, hfr⟩
  · have e : ((c.watch p).setPort p ((c.watch p).port p)).ctr = a.ctr :=
      (((hbf.next hcf).next (.watch c p)).next (.setPort _ p _)).2 .ctr (by decide)
    unfold State.counted State.ctrOf at hctr ⊢
    rwa [e]
  · exact ((hn.trans hbn).trans hcn).trans ((NoRequest.watch c p).trans (.of_out rfl))

/-! ### A MASTER_RESET with nothing to wait for -/

theorem State.dropCipherWork_none (h : (s.port p).onward = []) (m : Option (BitVec 8)) : s.dropCipherWork p m = s := by
  simp [State.dropCipherWork, h, State.each]

theorem State.closeStreams_none (h : s.cipher.ents = []) (k : Nat) (m : Option (BitVec 8)) : s.closeStreams k m = s := by
  have e : { s.cipher with ents := [] } = s.cipher := by rw [← h]
  simp [State.closeStreams, h, e]

theorem State.endReturned_none (h : (s.port p).onward = []) : s.endReturned p = s := by
  simp [State.endReturned, h, State.each]

/-- The port with the one MASTER_RESET that it carries out. -/
def PortSt.resetting (q : PortSt) (w : ReqWord) : PortSt := { q with queue := [], onward := [], resetNo := q.resetNo + 1, resets := [(q.resetNo + 1, w)] }

/-- The state with the one MASTER_RESET done: its event, its beat and its credit. -/
def State.resetDone (s : State) (p : Port) (w : ReqWord) : State :=
  ((((s.setPort p ((s.port p).resetting w)).log1 0x0406 [w16 p, w16 w.master.toNat, w16 w.tag.toNat]).finishResets p).watch p).retCredOf p w.epoch 1 0

/-- What a MASTER_RESET comes to that finds nothing of its master's (R107). -/
theorem State.masterReset_idle (w : ReqWord) (hq : (s.port p).onward = []) (hr : (s.port p).resets = []) (he : s.cipher.ents = []) :
    s.masterReset p w [] [] =
      if bit ((s.resetDone p w).masterWord w.master) 13 then (s.resetDone p w).killAgent p .reset else s.resetDone p w := by
  unfold State.masterReset
  rw [State.dropCipherWork_none hq, State.closeStreams_none he]
  simp only [hq, hr, List.filter_nil, List.map_nil, List.nil_append, List.foldl_nil]
  rw [State.endReturned_none (by simp)]
  rfl

/-- Nothing stands before the reset, so its RESET_DONE enters the FIFO at once. -/
theorem State.finishResets_one {q : PortSt} {w : ReqWord} (h : s.port p = q.resetting w) :
    s.finishResets p = (s.setPort p { s.port p with resets := [] }).pushBeat p (resetBeat w) := by
  simp [State.finishResets, h, PortSt.resetting, PortSt.resetBusy]

/-- Credits of the epoch in force return (R95). -/
theorem State.retCredOf_now {e : BitVec 2} (h : e = (s.port p).epoch) (nr nw : Nat) : s.retCredOf p e nr nw = s.retCred p nr nw := if_pos h

theorem State.resetDone_answers (w : ReqWord) (hd : s.dom 1 = true) (hep : w.epoch = (s.port p).epoch) :
    ((s.resetDone p w).port p).fifo = (s.port p).fifo ++ [(resetBeat w, 0)] ∧ ((s.resetDone p w).port p).reqCred = (s.port p).reqCred + 1 ∧
      LogsOne s (s.resetDone p w) 0x0406 [w16 p, w16 w.master.toNat, w16 w.tag.toNat] ∧ PortFrame [.ports, .out, .log, .maint] p s (s.resetDone p w) := by
  unfold State.resetDone
  set args := [w16 p, w16 w.master.toNat, w16 w.tag.toNat]
  -- the event
  have ha : PortFrame [.ports, .log, .maint, .out] p s ((s.setPort p ((s.port p).resetting w)).log1 0x0406 args) :=
    ((PortFrame.refl s).next (.setPort s p _)).next (.log1 _ _ _)
  have hl : LogsOne s ((s.setPort p ((s.port p).resetting w)).log1 0x0406 args) 0x0406 args :=
    LogsOne.of_frame (s.setPort_frame p _) (State.log1_logs hd)
  have hap : ((s.setPort p ((s.port p).resetting w)).log1 0x0406 args).port p = (s.port p).resetting w := by simp
  generalize (s.setPort p ((s.port p).resetting w)).log1 0x0406 args = a at ha hl hap
  -- the beat
  have hb : PortFrame [.ports, .out] p a ((a.finishResets p).watch p) := (PortFrame.finishResets a p).next (.watch _ p)
  have hbp : ∃ v v', ((a.finishResets p).watch p).port p =
      PortSt.flowed (PortSt.flowed { (s.port p).resetting w with resets := [], fifo := (s.port p).fifo ++ [(resetBeat w, 0)] } p v) p v' := by
    rw [State.finishResets_one hap]
    simp only [State.port_watch, State.port_pushBeat, State.port_setPort_same, hap]
    exact ⟨_, _, rfl⟩
  generalize (a.finishResets p).watch p = b at hb hbp
  obtain ⟨v, v', hbp⟩ := hbp
  -- the credit
  have hcp := b.port_retCred p 1 0
  have hc := PortFrame.retCred b p 1 0
  rw [State.retCredOf_now (by rw [hbp]; exact hep)]
  exact ⟨by rw [hcp, hbp]; rfl, by rw [hcp, hbp]; rfl, hl.then (hb.trans hc).2, ((ha.mono (by simp)).next hb).next hc⟩

/-- The agent of a coherent port whose master may touch any line dies with the reset (R232). -/
theorem State.masterReset_answers (w : ReqWord) (hd : s.dom 1 = true) (hq : (s.port p).onward = []) (hr : (s.port p).resets = []) (he : s.cipher.ents = [])
    (hep : w.epoch = (s.port p).epoch) :
    ((s.masterReset p w [] []).port p).fifo = (s.port p).fifo ++ [(resetBeat w, 0)] ∧ ((s.masterReset p w [] []).port p).reqCred = (s.port p).reqCred + 1 ∧
      LogsOne s (s.masterReset p w [] []) 0x0406 [w16 p, w16 w.master.toNat, w16 w.tag.toNat] ∧
      PortFrame [.ports, .out, .log, .maint, .snoops, .agents] p s (s.masterReset p w [] []) ∧
      (bit (s.masterWord w.master) 13 = true → coherentPort p = true → Out.ring (.deadAgent (agentOf s.t p) .reset) ∈ (s.masterReset p w [] []).out) := by
  obtain ⟨h1, h2, h3, h4⟩ := State.resetDone_answers w hd hep
  rw [State.masterReset_idle w hq hr he]
  generalize s.resetDone p w = c at h1 h2 h3 h4
  have hm : c.masterWord w.master = s.masterWord w.master := by
    unfold State.masterWord
    split <;> exact State.reg_of_frame h4.2 (by simp) (by simp) _ _
  have ht : c.t = s.t := by
    have e : c.ident = s.ident := h4.2 .ident (by decide)
    rw [State.t, State.t, e]
  rw [hm]
  split
  next h13 =>
    have hk := PortFrame.killAgent c p .reset
    refine ⟨by rw [State.port_killAgent, h1], by rw [State.port_killAgent, h2], h3.then hk.2, (h4.mono (by simp)).next hk, fun _ hcoh => ?_⟩
    rw [State.killAgent, if_pos hcoh, ht]
    simp [State.ring, State.emit]
  next h13 => exact ⟨h1, h2, h3, h4.mono (by simp), fun h => absurd h h13⟩

/-- A request of the epoch in force has spent its credit (R94, R98). -/
def State.reqSpent (s : State) (p : Port) : State := s.setPort p { s.port p with reqCred := (s.port p).reqCred - 1 }

theorem State.port_reqSpent (s : State) (p : Port) : (s.reqSpent p).port p = { s.port p with reqCred := (s.port p).reqCred - 1 } := State.port_setPort_same _ _ _

theorem State.spendReq_takes {w : ReqWord} (hu : s.portsUp = true) (hi : internalPort p = false) (he : s.epochOk p w.epoch = true)
    (hc : (s.port p).reqCred ≠ 0) (f : State → State) : s.spendReq p w f = f (s.reqSpent p) := by
  simp only [State.spendReq, hu, hi, he, hc, Bool.not_true, Bool.false_eq_true, or_self, if_false]
  rfl

theorem masterResetDone : Claims.MasterResetDone := by
  intro s p w hd hu hi hep hcr hfc hen hrk hh hroom hq ho hr hf he
  have hepoch : w.epoch = (s.port p).epoch := by
    simp only [State.epochOk, Bool.and_eq_true, beq_iff_eq] at hep
    exact hep.2
  have hap := s.port_reqSpent p
  have hnow : (s.reqSpent p).resetNow p = true := by
    have hlevel : ((s.reqSpent p).port p).respLevel = (s.port p).respLevel := by rw [hap]; rfl
    have hheld : (s.reqSpent p).checkHeld = false := hh
    simp only [State.resetNow, State.room, hlevel, hheld]
    simp [hap, hf, hq]
    omega
  have hcheck : (s.reqSpent p).check p .masterReset w = .pass false false := by
    have h1 : (s.reqSpent p).masterWord w.master = s.masterWord w.master := rfl
    have h2 : (s.reqSpent p).restoringKey (masterKey w.master.toNat) = false := hrk
    simp [State.check, h1, h2, hen]
  have hx : exec (.masterReset p w) s = .next (((s.reqSpent p).masterReset p w [] []).watch p) := by
    refine congrArg Host.Outcome.next ((State.spendReq_takes hu hi hep hcr _).trans ?_)
    simp only [hfc, hnow, hcheck, hap, hq, ne_eq, not_true_eq_false, if_false, if_true]
  obtain ⟨h1, h2, h3, h4, h5⟩ := State.masterReset_answers (s := s.reqSpent p) (p := p) w hd (by rw [hap]; exact ho)
    (by rw [hap]; exact hr) he (by rw [hap]; exact hepoch)
  have haf : PortFrame [.ports] p s (s.reqSpent p) := PortFrame.setPort s p _
  generalize (s.reqSpent p).masterReset p w [] [] = b at hx h1 h2 h3 h4 h5
  refine ⟨_, hx, ?_, ?_, (LogsOne.of_frame haf.2 h3).then (PortFrame.watch b p).2, (((haf.mono (by simp)).trans h4).next (.watch b p)).1, ?_,
    (((haf.mono (by simp)).trans h4).next (.watch b p)).2⟩
  · rw [State.port_watch, PortSt.flowed_fifo, h1, hap]
    rfl
  · rw [State.port_watch, PortSt.flowed_reqCred, h2, hap]
    exact Nat.sub_add_cancel (Nat.pos_of_ne_zero hcr)
  · intro h13 hcoh
    have hmem := h5 h13 hcoh
    exact (Kept.watch (p := p) (Kept.refl b)).out.subset hmem

/-- Settles O34: the one request of a queue leaves by the outcome of its check, and a MASTER_RESET that finds nothing of its master's is done at once. That the
share of a home is held from the passing onward is R138's; that a MASTER_RESET waits for a free response entry is deduced (log entry 24). -/
theorem queueDepartures : Obligations.QueueDepartures := ⟨requestLeaves, refusedRequestAnswered, masterResetDone⟩

end Sys2Proof.Machine

/-!
What arrives at a port, refuted in a state whose map of cipher entries lists one key twice: the stream is found by port and number, and closed by key.
-/
namespace Sys2Proof.Machine
open Sys2Proof

/-- An entry of a port's stream 0, which failed with a tag that did not match (R256). -/
def failedEnt (p : Nat) : CEnt :=
  { port := p, stream := 0, mode := .gcm, dir := true, slot := 0, du := 0, len := 0, addr := 0, iv := 0, tag := 0, next := 0, master := 0, tenant := 0,
    failed := some 4, poisoned := false, lns := [], segs := [], lastFrame := 0, hold := 0, lastTx := none }

/-- The LAST request of stream 0, whose lines run over a page line's end (R89). -/
def lastWord : ReqWord :=
  { epoch := 0, priv := false, spec := false, lines := 1, tag := 0, tenant := 0, master := 0, addr := 3, dirty := false, rage := 0,
    desc := some { cv := true, first := false, last := true, stream := 0, mode := 0, dir := true, slot := 0, du := 0, len := 0, iv := 0, tag := 0, resv := 0 } }

/-- A read of port 1 that belongs to the cipher entry of key 0. -/
def cipherRead : Onward :=
  { txid := 1, op := .read, lines := 1, tag := 0, tenant := 0, master := 0, addr := 0, epoch := 0, home := 0, reserved := 1, cent := some 0 }

/-- A tile in service whose key 0 stands for an entry of port 1 and then for one of port 0. -/
def keyTwice : State :=
  { pd := { status := 0xA }, cipher := { ents := [(0, failedEnt 1), (0, failedEnt 0)] },
    ports := [(0, { live := true, reqCred := 1 }), (1, { onward := [cipherRead] })] }

/-- What the malformed request changes of another port: its read belongs to no entry any more. -/
theorem keyTwice_changes_port1 :
    ((keyTwice.accept 0 .read lastWord).port 1).onward.map (fun o => o.cent) = [some 256] ∧ (keyTwice.port 1).onward.map (fun o => o.cent) = [some 0] := by
  decide +kernel

/-- Refutes O32: the statement ranges over every state, and in one whose map of cipher entries lists a key twice (`SMap.set` never builds such a map) a
malformed LAST request on port 0 finds its failed stream in the key's second entry, while the close takes the first, which is port 1's: the clause of R257 that
no other port changes fails there. The cause of a wrong LINES and when a form is judged are deduced (log entries 13 and 24); the refutation turns on neither. -/
theorem not_portArrivals : ¬ Obligations.PortArrivals := by
  unfold Obligations.PortArrivals
  intro h
  obtain ⟨-, hm, -, -⟩ := h
  obtain ⟨-, hclose, -, -, -⟩ := hm keyTwice 0 lastWord (by decide +kernel) (by decide +kernel) (by decide +kernel) (by decide +kernel) (by decide +kernel)
    (by decide +kernel) (by decide +kernel) (by decide +kernel)
  obtain ⟨t, ht, -, -, -, hport, -⟩ := hclose .read 0 (by decide) (by decide) ⟨_, failedEnt 0, rfl, rfl, rfl, rfl, by decide +kernel, rfl⟩
  have e : keyTwice.accept 0 .read lastWord = t := Host.Outcome.next.inj ht
  have hk := congrArg (fun q : PortSt => q.onward.map (fun o => o.cent)) (hport 1 (by decide))
  rw [← e] at hk
  obtain ⟨h1, h0⟩ := keyTwice_changes_port1
  simp only [h1, h0] at hk
  exact absurd hk (by decide)

end Sys2Proof.Machine

namespace Sys2Proof.SMap
open Sys2Proof

/-- What is not among the keys is not listed. -/
theorem look_eq_none {α : Type} {m : SMap α} {k : Nat} (h : k ∉ m.map Prod.fst) : look m k = none := by
  induction m with
  | nil => rfl
  | cons e r ih =>
    rw [List.map_cons, List.mem_cons, not_or] at h
    rw [look_cons, if_neg (Ne.symm h.1), ih h.2]

end Sys2Proof.SMap

/-!
Shaper queues, pseudo-channels and what waits in them: what each of their operations changes and what it leaves as it was (R139, R142, R145, R147, R165, R167).
-/
namespace Sys2Proof.Machine
open Sys2Proof

variable {s t : State} {l : List Field}

/-! ### One shaper queue -/

@[simp] theorem State.freshQ_setQ (s : State) (k : Nat) (v : QSt) : (s.setQ k v).freshQ = s.freshQ := rfl

@[simp] theorem State.q_setQ_same (s : State) (k : Nat) (v : QSt) : (s.setQ k v).q k = v := SMap.getD_put_same _ _ _ _

theorem State.q_setQ_ne (s : State) {j k : Nat} (v : QSt) (h : j ≠ k) : (s.setQ k v).q j = s.q j := SMap.getD_put_ne _ _ _ h

theorem State.setQ_frame (s : State) (k : Nat) (v : QSt) : OnlyChanges [.queues] s (s.setQ k v) :=
  Fr.only (M := 2 ^ 18) (Fr.upd (Fr.refl s) rfl) (by decide)

/-- A queue stands while the queues and the clocks of the last tick do. -/
theorem State.q_of_frame (h : OnlyChanges l s t) (hq : .queues ∉ l := by simp) (hs : .sched ∉ l := by simp) (k : Nat) : t.q k = s.q k := by
  have eq : t.queues = s.queues := h .queues hq
  have es : t.sched = s.sched := h .sched hs
  rw [State.q, State.q, State.freshQ, State.freshQ, eq, es]

@[simp] theorem QSt.last_setLast (q : QSt) (k : Nat) (v : BitVec 32) : (q.setLast k v).last k = v := by
  unfold QSt.setLast QSt.last
  by_cases h0 : k = 0
  · simp [h0]
  · by_cases h1 : k = 1 <;> simp [h0, h1]

theorem State.sched_frame (s : State) (v : Sched) : OnlyChanges [.sched] s { s with sched := v } :=
  Fr.only (M := 2 ^ 19) (Fr.upd (Fr.refl s) rfl) (by decide)

@[simp] theorem State.q_fixV (s : State) (k : Nat) : s.fixV.q k = s.q k := rfl

/-- Marking a queue changes its high-water marks or nothing (R147). -/
theorem State.mark_cases (s : State) (k : Nat) : s.mark k = s ∨ ∃ d e, s.mark k = s.setQ k { s.q k with latDepth := d, latDelay := e } := by
  unfold State.mark
  simp only []
  split
  · exact .inr ⟨_, _, rfl⟩
  · exact .inl rfl

theorem State.q_mark_same (s : State) (k : Nat) : ∃ d e, (s.mark k).q k = { s.q k with latDepth := d, latDelay := e } := by
  obtain h | ⟨d, e, h⟩ := s.mark_cases k
  · exact ⟨_, _, congrArg (State.q · k) h⟩
  · exact ⟨d, e, by rw [h, State.q_setQ_same]⟩

theorem State.q_mark_ne (s : State) {j k : Nat} (h : j ≠ k) : (s.mark k).q j = s.q j := by
  obtain e | ⟨_, _, e⟩ := s.mark_cases k <;> rw [e]
  exact s.q_setQ_ne _ h

theorem State.mark_frame (s : State) (k : Nat) : OnlyChanges [.queues] s (s.mark k) := by
  obtain e | ⟨_, _, e⟩ := s.mark_cases k <;> rw [e]
  · exact fun f _ => s.same_refl f
  · exact s.setQ_frame k _

/-! ### One pseudo-channel -/

@[simp] theorem State.pc_setPc_same (s : State) (c : Nat) (v : PcSt) : (s.setPc c v).pc c = v := SMap.getD_put_same _ _ _ _

/-- Only one pseudo-channel differs, and no part of the state but those listed. -/
def PcFrame (l : List Field) (c : Nat) (s t : State) : Prop := OnlyPc s t c ∧ OnlyChanges l s t

section
variable {c : Nat}

theorem PcFrame.refl (s : State) : PcFrame l c s s := ⟨fun _ _ => rfl, fun f _ => s.same_refl f⟩

theorem PcFrame.next {u : State} {m : List Field} (h : PcFrame l c s t) (k : PcFrame m c t u) (hm : m ⊆ l := by simp) : PcFrame l c s u :=
  ⟨fun j hj => (k.1 j hj).trans (h.1 j hj), fun f hf => State.same_trans (h.2 f hf) (k.2.mono hm f hf)⟩

/-- A step that touches no pseudo-channel. -/
theorem PcFrame.off_pcs (h : OnlyChanges l s t) (hl : .pcs ∉ l := by simp) : PcFrame l c s t := by
  have e : t.pcs = s.pcs := h .pcs hl
  exact ⟨fun k _ => by rw [State.pc, State.pc, e], h⟩

theorem PcFrame.setPc (s : State) (c : Nat) (v : PcSt) : PcFrame [.pcs] c s (s.setPc c v) :=
  ⟨fun _ hk => SMap.getD_put_ne _ _ _ hk, Fr.only (M := 2 ^ 20) (Fr.upd (Fr.refl s) rfl) (by decide)⟩

theorem PcFrame.wakePc (s : State) (c : Nat) : PcFrame [.pcs, .out, .ctr] c s (s.wakePc c) := by
  unfold State.wakePc
  simp only []
  split
  · exact .refl s
  · exact (((PcFrame.refl s).next (.setPc s c _)).next (.off_pcs (State.count_frame _ _ _ _))).next
      (.off_pcs (Fr.only (l := [.out]) (M := 2 ^ 2) (Fr.upd (Fr.refl _) rfl) (by decide)))

/-- A pseudo-channel that was woken is out of power-down (R167). -/
theorem State.down_wakePc (s : State) (c : Nat) : ((s.wakePc c).pc c).down = none := by
  unfold State.wakePc
  simp only []
  split
  · next h => exact h
  · exact congrArg PcSt.down (s.pc_setPc_same c _)

/-- A write drain starts or ends, or nothing changes (R165). -/
theorem State.drainCheck_cases (s : State) (c : Nat) : s.drainCheck c = s ∨ ∃ b, s.drainCheck c = s.setPc c { s.pc c with drain := b } := by
  unfold State.drainCheck
  simp only []
  split
  · split
    · exact .inr ⟨_, rfl⟩
    · exact .inl rfl
  · split
    · exact .inr ⟨_, rfl⟩
    · split
      · exact .inr ⟨_, rfl⟩
      · exact .inl rfl

theorem PcFrame.drainCheck (s : State) (c : Nat) : PcFrame [.pcs] c s (s.drainCheck c) := by
  obtain e | ⟨_, e⟩ := s.drainCheck_cases c <;> rw [e]
  · exact .refl s
  · exact .setPc s c _

theorem State.down_drainCheck (s : State) (c : Nat) : ((s.drainCheck c).pc c).down = (s.pc c).down := by
  obtain e | ⟨_, e⟩ := s.drainCheck_cases c <;> rw [e]
  rw [State.pc_setPc_same]
end

end Sys2Proof.Machine

/-!
The windows of the budgets (R129).
-/
namespace Sys2Proof.Machine
open Sys2Proof

theorem windowBegins : Claims.WindowBegins := by
  intro s m hframe hrewind hcyc hbegan
  have hdue : s.cyc = 0 ∧ s.frame % s.bud 0x3412 m = 0 ∧ (!s.budget.rewind.contains m.toNat) = true ∧ SMap.look s.budget.began m.toNat ≠ some s.frame :=
    ⟨hcyc, hframe, by simpa using hrewind, hbegan⟩
  refine ⟨_, congrArg Host.Outcome.next (if_pos hdue), ?_, ?_, rfl, Fr.only (M := 2 ^ 17) (Fr.upd (Fr.refl s) rfl) (by decide)⟩
  · exact SMap.getD_del_same _ _ _
  · exact fun k hk => SMap.getD_del_ne _ _ hk

end Sys2Proof.Machine

/-!
Requests that join a queue of the home (R136, R139, R144, R151): the lines of one pseudo-channel, bank and row as one part, under tags that are new.
-/
namespace Sys2Proof.Machine
open Sys2Proof

variable {s : State} {r : HReq}

/-! ### The queue and the tags -/

/-- The queue of a mapped tenant, with the role group where the map word says so (R136). -/
def mappedQueue (w : Word) (p : Nat) : Nat := if bit w 14 then fld w 9 0 + roleGroup p else fld w 9 0

theorem State.chooseQueue_mapped (h : bit (s.tenantWord r.tenant) 15 = true) :
    s.chooseQueue r = (s, mappedQueue (s.tenantWord r.tenant) r.port) := by
  cases hb : bit (s.tenantWord r.tenant) 14 <;> simp [State.chooseQueue, mappedQueue, h, hb]

/-- The tags of a whole request that joins queue `q` first (R144). -/
def State.newTag (s : State) (r : HReq) (q : Nat) : Tag :=
  let k := clockOf (s.joinCls r)
  let start := serMax (s.vclock k) ((s.q q).last k)
  { queue := q, k := k, start := start, finish := start + BitVec.ofNat 32 (r.lines * 4096 / max (s.q q).weight.toNat 1) }

/-- The state once a request has its tags: its queue's last finish tag is its own (R144). -/
def State.tagged (s : State) (r : HReq) (g : Tag) : State :=
  { s.setQ g.queue ((s.q g.queue).setLast g.k g.finish) with sched := { s.sched with tags := SMap.set s.sched.tags (reqKey r) g } }

theorem State.stamp_new (hi : internalPort r.port = false) (ht : SMap.look s.sched.tags (reqKey r) = none) (htot : r.total = 0) (hst : r.stamped = none)
    (hm : bit (s.tenantWord r.tenant) 15 = true) :
    s.stamp r = (s.tagged r (s.newTag r (mappedQueue (s.tenantWord r.tenant) r.port)), s.newTag r (mappedQueue (s.tenantWord r.tenant) r.port)) := by
  simp [State.stamp, State.tagged, State.newTag, hi, ht, htot, hst, State.chooseQueue_mapped hm]

theorem State.tagged_frame (s : State) (r : HReq) (g : Tag) : OnlyChanges [.sched, .queues] s (s.tagged r g) :=
  (s.setQ_frame g.queue _).then (State.sched_frame _ _)

theorem State.q_tagged_same (s : State) (r : HReq) (g : Tag) : (s.tagged r g).q g.queue = (s.q g.queue).setLast g.k g.finish := s.q_setQ_same _ _

theorem State.q_tagged_ne (s : State) (r : HReq) (g : Tag) {k : Nat} (h : k ≠ g.queue) : (s.tagged r g).q k = s.q k := s.q_setQ_ne _ h

/-! ### The part -/

/-- The part that lines of a request form at a place (R151). -/
def State.newPart (s : State) (r : HReq) (o : Origin) (write : Bool) (g : Tag) (pl : Place) (ls : List PLn) : Part :=
  { seq := s.sched.seq + 1, origin := o, req := r, queue := g.queue, pc := pl.pc, bank := pl.bank, row := pl.row, lns := ls, write := write,
    cls := s.joinCls r, calm := r.cls, promoted := r.promoted, age := r.age, k := g.k, start := g.start, finish := g.finish, joined := s.clk.now,
    rel := none, pSince := none }

/-- Lines of one pseudo-channel, bank and row form one part (R151). -/
theorem gather_newPart {o : Origin} {write : Bool} {g : Tag} {pl : Place} {xs : List (Place × PLn)} (hne : xs ≠ [])
    (hpl : ∀ x ∈ xs, x.1.pc = pl.pc ∧ x.1.bank = pl.bank ∧ x.1.row = pl.row) (hno : ∀ x ∈ xs, x.2.no = o.txn) :
    gather (fun p l => s.newPart r o write g p [{ l with no := o.txn }]) xs = [s.newPart r o write g pl (xs.map Prod.snd)] := by
  induction xs with
  | nil => exact absurd rfl hne
  | cons x rest ih =>
    obtain ⟨p, l⟩ := x
    obtain ⟨hpc, hbank, hrow⟩ : p.pc = pl.pc ∧ p.bank = pl.bank ∧ p.row = pl.row := hpl (p, l) (.head _)
    have hl : { l with no := o.txn } = l := by rw [← hno (p, l) (.head _)]
    by_cases hr : rest = []
    · simp [hr, gather, State.newPart, hl, hpc, hbank, hrow]
    · rw [gather, ih hr (fun y hy => hpl y (.tail _ hy)) (fun y hy => hno y (.tail _ hy))]
      simp [State.newPart, hpc, hbank, hrow]

/-- A part whose request has no other here joins as it is (R151). -/
theorem State.addPart_alone {p : Part} (h : ∀ x ∈ s.sched.parts, sameReq x.req p.req = false) :
    s.addPart p = { s with sched := { s.sched with parts := s.sched.parts ++ [p] } } := by
  have hn : s.partOf p = none := List.find?_eq_none.mpr fun x hx => by simp [h x hx]
  rw [State.addPart, hn]

/-- The state once a part has joined, the clocks and the marks of its queue having followed (R139, R145, R147). -/
def State.joined (s : State) (p : Part) : State :=
  ({ s with sched := { s.sched with seq := p.seq, parts := s.sched.parts ++ [p] } } : State).fixV.mark p.queue

theorem State.joinAs_onePlace {o : Origin} {write : Bool} {g : Tag} {pl : Place} {ls : List PLn} (hne : ls ≠ [])
    (hpl : ∀ l ∈ ls, (s.map.place l.addr).pc = pl.pc ∧ (s.map.place l.addr).bank = pl.bank ∧ (s.map.place l.addr).row = pl.row)
    (hno : ∀ l ∈ ls, l.no = o.txn) (hreq : ∀ x ∈ s.sched.parts, sameReq x.req r = false) :
    s.joinAs r o write g ls = s.joined (s.newPart r o write g pl ls) := by
  have hg := gather_newPart (s := s) (r := r) (write := write) (g := g) (xs := ls.map fun l => (s.map.place l.addr, l))
    (by simpa using hne) (by simpa using hpl) (by simpa using hno)
  rw [show (ls.map fun l => (s.map.place l.addr, l)).map Prod.snd = ls by simp [Function.comp_def]] at hg
  have ha := State.addPart_alone (s := { s with sched := { s.sched with seq := s.sched.seq + 1 } }) (p := s.newPart r o write g pl ls) hreq
  show ((List.foldl State.addPart _ (gather (fun p l => s.newPart r o write g p [{ l with no := o.txn }]) _)).fixV).mark g.queue = _
  rw [hg, List.foldl_cons, List.foldl_nil]
  exact congrArg (fun z : State => z.fixV.mark g.queue) ha

theorem State.joined_frame (s : State) (p : Part) : OnlyChanges [.sched, .queues] s (s.joined p) :=
  (((State.sched_frame s _).then (State.sched_frame _ _)).then (State.mark_frame _ _)).mono (by simp)

theorem State.parts_joined (s : State) (p : Part) : (s.joined p).sched.parts = s.sched.parts ++ [p] :=
  congrArg Sched.parts (State.mark_frame _ p.queue .sched (by simp))

theorem State.q_joined_ne (s : State) (p : Part) {k : Nat} (h : k ≠ p.queue) : (s.joined p).q k = s.q k := State.q_mark_ne _ h

/-- What has joined a queue leaves its finish tags alone. -/
theorem State.last_joined (s : State) (p : Part) (k : Nat) : ((s.joined p).q p.queue).last k = (s.q p.queue).last k := by
  obtain ⟨d, e, h⟩ := State.q_mark_same ({ s with sched := { s.sched with seq := p.seq, parts := s.sched.parts ++ [p] } } : State).fixV p.queue
  rw [State.joined, h]
  rfl

/-! ### The request at its home -/

/-- A request that nothing holds back and that is not coherent is taken by its home's queues (R16, R136). -/
theorem State.homeArrive_queued (hf : s.repair.fenced = none) (hw : s.mustWait r = false) (hi : internalPort r.port = false) (hc : r.coherent = false) :
    s.homeArrive r = s.queueHome r .req := by
  have h28 : r.port.val ≠ 28 := fun e => by simp [internalPort, e] at hi
  simp [State.homeArrive, State.takeRequest, hf, hw, hc, h28]

/-- Lines of the ordinary part at their own home, none of a retired unit, join a queue together (R136). -/
theorem State.queueHome_ordinary {o : Origin} (hp : (s.map.home r.addr).parity = none) (ht : (s.map.home r.addr).tile = s.t) (hne : s.reqLines r ≠ [])
    (hr : ∀ l ∈ s.reqLines r, s.ownRetired (s.map.place l.addr) = false) :
    s.queueHome r o = s.joinQueue r o (isWrite r.op) (s.reqLines r) := by
  have hbad : (s.reqLines r).filter (fun l => s.ownRetired (s.map.place l.addr)) = [] := by simpa [List.filter_eq_nil_iff] using hr
  have hgood : (s.reqLines r).filter (fun l => !s.ownRetired (s.map.place l.addr)) = s.reqLines r := by simpa [List.filter_eq_self] using hr
  have ho : s.queueHome r o = s.queueOrdinary r o (s.reqLines r) := by simp [State.queueHome, hp, ht]
  rw [ho]
  unfold State.queueOrdinary
  simp [hbad, hgood, hne]

theorem State.reqLines_ne_nil (h : 1 ≤ r.lines) : s.reqLines r ≠ [] := by
  simpa [State.reqLines] using Nat.one_le_iff_ne_zero.mp h

/-- The lines of a port's request wait for no transaction of the home. -/
theorem State.reqLines_no {l : PLn} (h : l ∈ s.reqLines r) : l.no = 0 := by
  obtain ⟨i, -, rfl⟩ := List.mem_map.mp h
  rfl

theorem homeRequestQueued : Claims.HomeRequestQueued := by
  intro s r hfence hwait hint hcoh hlines _ _ htag htotal hstamped halone h pl m q hparity htile hmapped _ hls
  set g := s.newTag r q with hg
  set p := (s.tagged r g).newPart r .req (isWrite r.op) g pl (s.reqLines r) with hp
  have hne : s.reqLines r ≠ [] := State.reqLines_ne_nil hlines
  have hx : exec (.homeRequestArrive r) s = .next ((s.tagged r g).joined p) := by
    show Host.Outcome.next (s.homeArrive r) = _
    rw [State.homeArrive_queued hfence hwait hint hcoh, State.queueHome_ordinary hparity htile hne fun l hl => (hls l hl).1, State.joinQueue,
      State.stamp_new hint htag htotal hstamped hmapped]
    exact congrArg Host.Outcome.next (State.joinAs_onePlace hne (fun l hl => (hls l hl).2) (fun l hl => State.reqLines_no hl) halone)
  have hcls : p.cls = if (r.tile, r.port.val) ∈ s.sched.panics ∧ r.demoted = false then Cls.p else r.cls := by
    show (if s.inPanic r = true then Cls.p else r.cls) = _
    simp [State.inPanic]
  refine ⟨_, hx, ⟨p, State.parts_joined _ p, rfl, rfl, rfl, rfl, rfl, rfl, rfl, rfl, rfl, rfl, rfl, rfl, rfl, hcls, rfl, rfl, rfl, ?_⟩, ?_, ?_⟩
  · rw [show q = p.queue from rfl, State.last_joined, show p.queue = g.queue from rfl, State.q_tagged_same]
    exact QSt.last_setLast _ _ _
  · intro k hk
    rw [State.q_joined_ne _ p hk, State.q_tagged_ne s r g hk]
  · exact ((s.tagged_frame r g).then (State.joined_frame _ p)).mono (by simp)

end Sys2Proof.Machine

/-!
Release (R140, R142, R146): a part that waits alone for a pseudo-channel goes where its bucket lets it, and there is nothing for the Seam engine to do.
-/
namespace Sys2Proof.Machine
open Sys2Proof

variable {s : State} {p : Part} {c : Nat}

/-! ### What is taken -/

/-- The state once the bucket of a part's queue has fallen by its lines, where the queue is shaped (R142). -/
def State.charged (s : State) (p : Part) : State :=
  let q := s.q p.queue
  if p.queue < 1024 ∧ q.rate ≠ 0xFFFF then
    s.setQ p.queue { q with level := max (q.level - 16 * (p.lns.length : Int)) (-16 * (q.burst.toNat : Int)) } else s

/-- A part as it stands in its pseudo-channel's queue, released at `now` as number `seq` (R146). -/
def Part.released (p : Part) (seq now : Nat) : Part := { p with rel := some seq, pSince := if p.cls == Cls.p then some now else none }

/-- The state once a part is in its pseudo-channel's queue, before that follows it. -/
def State.takenIn (s : State) (p : Part) : State :=
  { s.charged p with sched := { (s.charged p).sched with
      seq := s.sched.seq + 1
      parts := (s.charged p).sched.parts.map fun x => if samePart x p then x.released (s.sched.seq + 1) s.clk.now else x } }

theorem State.releasePart_eq (s : State) (p : Part) :
    s.releasePart p =
      ((if p.write ∧ p.origin ≠ .pickleBack then (s.takenIn p).overtake p else s.takenIn p).wakePc p.pc).drainCheck p.pc := rfl

theorem State.charged_frame (s : State) (p : Part) : OnlyChanges [.queues] s (s.charged p) := by
  unfold State.charged
  simp only []
  split
  · exact s.setQ_frame _ _
  · exact fun f _ => s.same_refl f

theorem State.q_charged_ne (s : State) (p : Part) {k : Nat} (h : k ≠ p.queue) : (s.charged p).q k = s.q k := by
  unfold State.charged
  simp only []
  split
  · exact s.q_setQ_ne _ h
  · rfl

theorem State.level_charged (h : p.queue < 1024) :
    ((s.charged p).q p.queue).level = if (s.q p.queue).rate = 0xFFFF then (s.q p.queue).level
      else max ((s.q p.queue).level - 16 * (p.lns.length : Int)) (-16 * ((s.q p.queue).burst.toNat : Int)) := by
  by_cases hr : (s.q p.queue).rate = 0xFFFF
  · rw [State.charged, if_neg fun k => k.2 hr, if_pos hr]
  · rw [State.charged, if_pos ⟨h, hr⟩, if_neg hr, State.q_setQ_same]

theorem State.takenIn_frame (s : State) (p : Part) : OnlyChanges [.sched, .queues] s (s.takenIn p) :=
  (s.charged_frame p).then (State.sched_frame _ _)

theorem State.q_takenIn (s : State) (p : Part) (k : Nat) : (s.takenIn p).q k = (s.charged p).q k := rfl

theorem State.parts_takenIn (h : s.sched.parts = [p]) : (s.takenIn p).sched.parts = [p.released (s.sched.seq + 1) s.clk.now] := by
  have hs : (s.charged p).sched = s.sched := s.charged_frame p .sched (by simp)
  simp [State.takenIn, hs, h, samePart]

/-! ### What a write overtakes -/

/-- With no part to drop, the clocks alone follow (R145). -/
theorem State.dropParts_none {f : Part → Bool} (h : ∀ x ∈ s.sched.parts, f x = false) : s.dropParts f = s.fixV := by
  have hg : s.sched.parts.filter f = [] := List.filter_eq_nil_iff.mpr fun x hx => by simp [h x hx]
  have hk : s.sched.parts.filter (fun x => !f x) = s.sched.parts := List.filter_eq_self.mpr fun x hx => by simp [h x hx]
  simp only [State.dropParts, hg, List.map_nil, List.eraseDups_nil, List.foldl_nil, hk]

/-- A write that meets neither a write-back of Pickle's nor a line that is being made again changes no more than what reads in flight are good for (R191). -/
theorem State.overtake_fresh (hr : s.seam.recons = []) (h : ∀ x ∈ s.sched.parts, x.origin ≠ .pickleBack) :
    OnlyChanges [.sched] s (s.overtake p) ∧ (s.overtake p).sched.parts = s.sched.parts ∧ ∀ k, (s.overtake p).q k = s.q k := by
  have hd : s.dropParts (fun x => x.origin == .pickleBack && shareLine x p) = s.fixV := State.dropParts_none fun x hx => by simp [h x hx]
  have hs : s.fixV.seam = { s.seam with recons := [] } := by rw [← hr]; rfl
  unfold State.overtake
  simp only [hd, hs, List.map_nil]
  refine ⟨?_, rfl, fun _ => rfl⟩
  rw [← hr]
  exact Fr.only (M := 2 ^ 19) (Fr.upd (Fr.refl s) rfl) (by decide)

/-! ### The part alone -/

/-- Nothing waits that must go before a part that waits alone (R146). -/
theorem State.goesFirst_alone (h : s.sched.parts = [p]) (n : Nat) : s.goesFirst n p = p := by
  cases n with
  | zero => rfl
  | succ n => simp [State.goesFirst, h, firstMin]

/-- A pseudo-channel of which no part waits in its queues has room (R150). -/
theorem State.hasRoom_alone (h : s.sched.parts = [p]) (hrel : p.rel = none) (x : Part) (k : Cls) : s.hasRoom x k = true := by
  unfold State.hasRoom State.inQueue
  simp [h, hrel]

/-- A part that waits alone is released where its bucket lets it go (R142, R146). -/
theorem State.release_alone (h : s.sched.parts = [p]) (hrel : p.rel = none) :
    s.release p.pc = if s.bucketOk p then s.releasePart p else s := by
  have hf : s.sched.parts.filter (fun x => x.pc == p.pc && x.rel.isNone && s.bucketOk x && s.hasRoom (s.goesFirst s.sched.parts.length x) x.cls) =
      if s.bucketOk p then [p] else [] := by
    rw [h]
    simp [List.filter_cons, hrel, State.hasRoom_alone h hrel]
  unfold State.release
  simp only [hf]
  by_cases hb : s.bucketOk p = true
  · simp only [if_pos hb, firstMin, State.goesFirst_alone h]
  · simp only [if_neg hb, firstMin]

/-- A queue lets a part go that is in class P, or that its level covers, or where it is not shaped (R140, R142). -/
theorem State.bucketOk_iff (h : p.queue < 1024) :
    s.bucketOk p = true ↔ p.cls = .p ∨ (s.q p.queue).rate = 0xFFFF ∨ 16 * (p.lns.length : Int) ≤ (s.q p.queue).level := by
  simp [State.bucketOk, Nat.not_le.mpr h, or_assoc]

/-- With no Seam write under way the Seam engine finds nothing to start (R195). -/
theorem State.seamPump_idle (c : Nat) (hw : s.seam.writes = []) : s.seamPump c = s := by
  have hstart : ∀ (x : Part) (no : Nat), s.seamStart x no = s := fun x no => by simp [State.seamStart, State.seamBy, hw]
  unfold State.seamPump
  simp only [hw, List.filter_nil, List.foldl_nil]
  refine List.foldl_fixed' (fun x => ?_) _
  cases x.origin with
  | seamNew no => exact (congrArg (fun z => if s.seamCan x no then z else s) (hstart x no)).trans (ite_self s)
  | _ => rfl

/-- A released part but for its number and the time it came into class P. -/
theorem Part.released_undone (h : p.rel = none) (n now : Nat) : { p.released n now with rel := none, pSince := p.pSince } = p := by rw [← h]; rfl

/-- What the release of a part that waits alone leaves. -/
theorem State.releasePart_alone (h : s.sched.parts = [p]) (hr : s.seam.recons = []) :
    let t := s.releasePart p
    t.sched.parts = [p.released (s.sched.seq + 1) s.clk.now] ∧ (∀ k, t.q k = (s.charged p).q k) ∧ (t.pc p.pc).down = none ∧
      OnlyPc s t p.pc ∧ OnlyChanges [.sched, .queues, .pcs, .out, .ctr] s t ∧ t.seam = s.seam := by
  intro t
  set u := if p.write ∧ p.origin ≠ .pickleBack then (s.takenIn p).overtake p else s.takenIn p with hu
  have hfr : OnlyChanges [.sched, .queues] s (s.takenIn p) := s.takenIn_frame p
  have hparts := State.parts_takenIn h
  have key : OnlyChanges [.sched, .queues] s u ∧ u.sched.parts = (s.takenIn p).sched.parts ∧ ∀ k, u.q k = (s.charged p).q k := by
    by_cases hw : p.write ∧ p.origin ≠ .pickleBack
    · have hrec : (s.takenIn p).seam.recons = [] := (congrArg Seam.recons (hfr .seam (by simp))).trans hr
      have hback : ∀ x ∈ (s.takenIn p).sched.parts, x.origin ≠ .pickleBack := by
        rw [hparts]
        simpa [Part.released] using hw.2
      obtain ⟨hf, hp, hq⟩ := State.overtake_fresh (p := p) hrec hback
      rw [hu, if_pos hw]
      exact ⟨(hfr.then hf).mono (by simp), hp, hq⟩
    · rw [hu, if_neg hw]
      exact ⟨hfr, rfl, fun _ => rfl⟩
  obtain ⟨huf, hup, huq⟩ := key
  have ht : t = (u.wakePc p.pc).drainCheck p.pc := s.releasePart_eq p
  have hpc : PcFrame [.pcs, .out, .ctr] p.pc u t := ht ▸ (PcFrame.wakePc u p.pc).next (.drainCheck _ _)
  have hall : PcFrame [.sched, .queues, .pcs, .out, .ctr] p.pc s t := ((PcFrame.refl s).next (.off_pcs huf)).next hpc
  refine ⟨?_, ?_, ?_, hall.1, hall.2, hall.2 .seam (by simp)⟩
  · rw [show t.sched = u.sched from hpc.2 .sched (by simp), hup, hparts]
  · exact fun k => (State.q_of_frame hpc.2 (k := k)).trans (huq k)
  · rw [ht, State.down_drainCheck, State.down_wakePc]

theorem requestReleased : Claims.RequestReleased := by
  intro s c p hdom hpow hret hwrites hrecons hparts hpc hrel hq1024 q
  have hx : exec (.requestRelease c) s = .next ((s.release c).seamPump c) := by
    refine congrArg Host.Outcome.next (if_pos ?_)
    simp [hdom, hpow, hret]
  have hrls : s.release c = if s.bucketOk p then s.releasePart p else s := by rw [← hpc]; exact State.release_alone hparts hrel
  constructor
  · intro hgo
    obtain ⟨hp, hq, hdown, honly, hframe, hseam⟩ := State.releasePart_alone hparts hrecons
    rw [hrls, if_pos ((State.bucketOk_iff hq1024).mpr hgo), State.seamPump_idle _ (by rw [hseam]; exact hwrites)] at hx
    refine ⟨_, hx, ⟨_, hp, rfl, Part.released_undone hrel _ _, ?_⟩, ?_, ?_, ?_, ?_, hframe⟩
    · simp [Part.released]
    · rw [hq, State.level_charged hq1024]
    · exact fun k hk => (hq k).trans (s.q_charged_ne p hk)
    · rwa [hpc] at hdown
    · rwa [hpc] at honly
  · intro hcls hrate hlevel
    have hno : ¬ s.bucketOk p = true := fun h => by
      rcases (State.bucketOk_iff hq1024).mp h with h | h | h
      · exact hcls h
      · exact hrate h
      · exact absurd h (not_le.mpr hlevel)
    rw [hrls, if_neg hno, State.seamPump_idle _ hwrites] at hx
    exact ⟨_, hx, rfl⟩

end Sys2Proof.Machine

/-!
Latency samples (R147): every queue in sampling mode takes its marks, each from what the state held before the sample.
-/
namespace Sys2Proof.Machine
open Sys2Proof

variable {s a : State}

/-- A queue in sampling mode takes the marks of a sample, one in the other mode keeps its own (R147). -/
def QSt.sampled (q : QSt) (m : Nat × Nat) : QSt := if q.latMode = 0 then { q with latDepth := m.1, latDelay := m.2 } else q

theorem QSt.sampled_sampling {q : QSt} (m : Nat × Nat) (h : q.latMode = 0) : q.sampled m = { q with latDepth := m.1, latDelay := m.2 } := if_pos h

theorem QSt.sampled_marking {q : QSt} (m : Nat × Nat) (h : q.latMode ≠ 0) : q.sampled m = q := if_neg h

theorem QSt.sampled_sampled (q : QSt) (m : Nat × Nat) : (q.sampled m).sampled m = q.sampled m := by
  by_cases h : q.latMode = 0
  · rw [QSt.sampled_sampling m h]
    exact QSt.sampled_sampling m h
  · rw [QSt.sampled_marking m h, QSt.sampled_marking m h]

/-- The sample of one queue, its marks taken from the state `s`. -/
def State.sampleQ (s a : State) (q : Nat) : State :=
  if (a.q q).latMode = 0 then a.setQ q { a.q q with latDepth := (s.sampleOf q).1, latDelay := (s.sampleOf q).2 } else a

theorem State.q_sampleQ_same (s a : State) (q : Nat) : (s.sampleQ a q).q q = (a.q q).sampled (s.sampleOf q) := by
  unfold State.sampleQ QSt.sampled
  split
  · exact a.q_setQ_same q _
  · rfl

theorem State.q_sampleQ_ne (s a : State) {k q : Nat} (h : k ≠ q) : (s.sampleQ a q).q k = a.q k := by
  unfold State.sampleQ
  split
  · exact a.q_setQ_ne _ h
  · rfl

theorem State.sampleQ_frame (s a : State) (q : Nat) : OnlyChanges [.queues] a (s.sampleQ a q) := by
  unfold State.sampleQ
  split
  · exact a.setQ_frame q _
  · exact fun f _ => a.same_refl f

theorem State.sampleQs_frame (s a : State) (qs : List Nat) : OnlyChanges [.queues] a (a.each qs s.sampleQ) := by
  unfold State.each
  induction qs generalizing a with
  | nil => exact fun f _ => a.same_refl f
  | cons q rest ih => exact ((s.sampleQ_frame a q).then (ih _)).mono (by simp)

theorem State.q_sampleQs_out {qs : List Nat} {k : Nat} (h : k ∉ qs) : (a.each qs s.sampleQ).q k = a.q k := by
  unfold State.each
  induction qs generalizing a with
  | nil => rfl
  | cons q rest ih =>
    rw [List.mem_cons, not_or] at h
    rw [List.foldl_cons, ih h.2, s.q_sampleQ_ne a h.1]

/-- However often a queue is listed, the marks that it takes are those of the one sample. -/
theorem State.q_sampleQs_in {qs : List Nat} {k : Nat} (h : k ∈ qs) : (a.each qs s.sampleQ).q k = (a.q k).sampled (s.sampleOf k) := by
  induction qs generalizing a with
  | nil => cases h
  | cons q rest ih =>
    have hq : (s.sampleQ a q).q k = if k = q then (a.q k).sampled (s.sampleOf k) else a.q k := by
      split
      · next e => rw [e, State.q_sampleQ_same]
      · next e => exact s.q_sampleQ_ne a e
    show ((s.sampleQ a q).each rest s.sampleQ).q k = _
    by_cases hk : k ∈ rest
    · rw [ih hk, hq]
      split
      · exact QSt.sampled_sampled _ _
      · rfl
    · rw [State.q_sampleQs_out hk, hq, if_pos ((List.mem_cons.mp h).resolve_right hk)]

/-- The queues that a sample visits: those that something has used or waits in (R147). -/
def State.usedQs (s : State) : List Nat :=
  ((s.queues.map fun x => x.1) ++ s.sched.parts.map fun p => p.queue).eraseDups.filter fun q => decide (q < 1024)

theorem State.mem_usedQs {k : Nat} : k ∈ s.usedQs ↔ (k ∈ s.queues.map Prod.fst ∨ ∃ p ∈ s.sched.parts, p.queue = k) ∧ k < 1024 := by
  simp [State.usedQs]

/-- A queue that nothing has used and nothing waits in would be sampled as it stands: nothing waits there, for no time (R147). -/
theorem State.sampled_unused {k : Nat} (hk : k < 1024) (h : k ∉ s.usedQs) : (s.q k).sampled (s.sampleOf k) = s.q k := by
  rw [State.mem_usedQs, and_iff_left hk, not_or] at h
  obtain ⟨hkey, hpart⟩ := h
  have hq : s.q k = s.freshQ := by rw [State.q, SMap.getD, SMap.look_eq_none hkey]; rfl
  have hl : s.sched.parts.filter (fun p => p.queue == k && decide (p.joined < s.clk.now - s.cyc)) = [] :=
    List.filter_eq_nil_iff.mpr fun p hp => by simp [show p.queue ≠ k from fun e => hpart ⟨p, hp, e⟩]
  have hm : s.sampleOf k = (0, 0) := by simp only [State.sampleOf, hl, List.map_nil]
  rw [hm, hq]
  rfl

/-- A sample takes the marks of every queue. -/
theorem State.q_sampleUsed {k : Nat} (hk : k < 1024) : (s.each s.usedQs s.sampleQ).q k = (s.q k).sampled (s.sampleOf k) := by
  by_cases h : k ∈ s.usedQs
  · exact State.q_sampleQs_in h
  · rw [State.q_sampleQs_out h, State.sampled_unused hk h]

/-- The state once a sample is taken (R147). -/
def State.sampledAll (s : State) : State :=
  { s.each s.usedQs s.sampleQ with sched := { (s.each s.usedQs s.sampleQ).sched with
      sampleSeq := (s.each s.usedQs s.sampleQ).sched.sampleSeq + 1, sampledAt := some s.frame } }

theorem latencySampled : Claims.LatencySampled := by
  intro s hperiod hfirst
  have hx : exec .latencySample s = .next s.sampledAll := congrArg Host.Outcome.next (if_neg (not_or.mpr ⟨not_not.mpr hperiod, hfirst⟩))
  have hf := s.sampleQs_frame s s.usedQs
  have hs : (s.each s.usedQs s.sampleQ).sched = s.sched := hf .sched (by simp)
  refine ⟨_, hx, ?_, rfl, ?_, ?_, (hf.then (State.sched_frame _ _)).mono (by simp)⟩
  · exact congrArg (fun z => z.sampleSeq + 1) hs
  · exact congrArg (fun z => z.parts) hs
  · intro k hk
    have hq : s.sampledAll.q k = (s.q k).sampled (s.sampleOf k) := State.q_sampleUsed hk
    rw [hq]
    split
    · next hmode => simp [QSt.sampled_sampling _ hmode]
    · next hmode => exact QSt.sampled_marking _ hmode

/-- Settles O37: a window begins with nothing charged, a request joins its tenant's queue as one part under new tags, a part alone is released as its bucket
lets it, and a sample marks every queue in sampling mode, one that nothing has used reading 0 and 0 already. -/
theorem budgetsAndShaping : Obligations.BudgetsAndShaping := ⟨windowBegins, homeRequestQueued, requestReleased, latencySampled⟩

end Sys2Proof.Machine

namespace Sys2Proof.SMap
open Sys2Proof

/-- A map whose values are changed key by key is read by changing what is read. -/
theorem look_mapVals {α : Type} (f : Nat → α → α) (m : SMap α) (k : Nat) : look (mapVals f m) k = (look m k).map (f k) := by
  induction m with
  | nil => rfl
  | cons e r ih =>
    rw [show mapVals f (e :: r) = (e.1, f e.1 e.2) :: mapVals f r from rfl, look_cons, look_cons, ih]
    by_cases h : e.1 = k <;> simp [h]

/-- A change that leaves the default as it is changes the value read, listed or not. -/
theorem getD_mapVals {α : Type} {f : Nat → α → α} {d : α} {k : Nat} (h : f k d = d) (m : SMap α) : getD (mapVals f m) k d = f k (getD m k d) := by
  rw [getD, getD, look_mapVals]
  cases look m k with
  | none => exact h.symm
  | some v => rfl

end Sys2Proof.SMap

/-!
Ageing and panic (R153 to R155): what becomes of one part, of a request passed onward, and of a port's parts on a notice.
-/
namespace Sys2Proof.Machine
open Sys2Proof
-- One proof at a time: the check's memory limit counts a stack for each proof that waits for another.
set_option Elab.async false

variable {s : State}

/-! ### Ageing -/

/-- What has not passed its class's limit, or may rise no further, does not rise. -/
theorem staysPut {ceiling : Bool} {age limit : Nat} (h : age ≤ limit ∨ ceiling = true) : (ceiling || decide (age < limit + 1)) = true := by
  simpa [Nat.lt_succ_iff, or_comm] using h

theorem rises {ceiling : Bool} {age limit : Nat} (h : limit < age) (hc : ceiling = false) : ¬ (ceiling || decide (age < limit + 1)) = true := by
  simpa [hc] using h

theorem State.promote_stays {p : Part} (k : Nat) (h : p.age ≤ s.ageLimit p.calm ∨ atCeiling p.calm p.req.demoted p.internal = true) :
    s.promote k p = p := if_pos (staysPut h)

/-- A part that rises takes its next class, but for one in panic, and begins its age anew. -/
theorem State.promote_rises {p : Part} (k : Nat) (h : s.ageLimit p.calm < p.age) (hc : atCeiling p.calm p.req.demoted p.internal = false) :
    ∃ since, s.promote k p = { p with calm := clsUp p.calm, cls := if p.cls = .p then .p else clsUp p.calm, age := 0, promoted := some k, pSince := since } :=
  ⟨_, if_neg (rises h hc)⟩

theorem State.promoteOnward_stays {o : Onward} (k : Nat) (h : o.age ≤ s.ageLimit o.cls ∨ atCeiling o.cls o.demoted false = true) :
    s.promoteOnward k o = o := if_pos (staysPut h)

theorem State.promoteOnward_rises {o : Onward} (k : Nat) (h : s.ageLimit o.cls < o.age) (hc : atCeiling o.cls o.demoted false = false) :
    s.promoteOnward k o = { o with cls := clsUp o.cls, age := 0, promoted := some k } := if_neg (rises h hc)

theorem State.mapReqs_frame (s : State) (f : HReq → HReq) (g : Onward → Onward) (h : SeamWr → Bool) :
    OnlyChanges [.ports, .ha, .seam] s (s.mapReqs f g h) :=
  Fr.only (M := 2 ^ 16 + 2 ^ 22 + 2 ^ 23) (Fr.upd (Fr.refl s) rfl) (by decide)

/-- Of a port only the requests passed onward change. -/
theorem State.port_mapReqs (s : State) (f : HReq → HReq) (g : Onward → Onward) (h : SeamWr → Bool) (k : Nat) :
    (s.mapReqs f g h).port k = { s.port k with onward := (s.port k).onward.map g } :=
  SMap.getD_mapVals (f := fun _ (q : PortSt) => { q with onward := q.onward.map g }) (d := {}) rfl s.ports

theorem agePromotes : Claims.AgePromotes := by
  intro s
  set k := s.sched.promos + 1
  set a : State := { s with sched := { s.sched with promos := k, parts := s.sched.parts.map (s.promote k) } } with ha
  have hport : ∀ j, (a.mapReqs (s.promoteReq k) (s.promoteOnward k)).port j =
      { s.port j with onward := (s.port j).onward.map (s.promoteOnward k) } := a.port_mapReqs _ _ _
  refine ⟨_, rfl, List.length_map _, rfl, ?_, ?_, (State.sched_frame s _).then (a.mapReqs_frame _ _ _) |>.mono (by simp)⟩
  · intro i p hp
    refine ⟨s.promote k p, ?_, State.promote_stays k, fun h hc => ?_⟩
    · show (s.sched.parts.map (s.promote k))[i]? = _
      rw [List.getElem?_map, hp, Option.map_some]
    · obtain ⟨since, e⟩ := State.promote_rises k h hc
      rw [e]
      exact ⟨rfl, rfl, rfl, rfl, rfl, rfl, rfl, rfl, rfl⟩
  · intro j
    rw [hport]
    refine ⟨rfl, List.length_map _, fun i o ho => ⟨s.promoteOnward k o, ?_, State.promoteOnward_stays k, State.promoteOnward_rises k⟩⟩
    rw [List.getElem?_map, ho, Option.map_some]

/-! ### Panic -/

/-- A part as a panic notice leaves it (R155): one of the port's, not demoted, in class P or back in the class it would hold. -/
def Part.noticed (u : TileNo) (p : Port) (on : Bool) (now : Nat) (x : Part) : Part :=
  if x.req.tile = u.val ∧ x.req.port = p ∧ !x.req.demoted then
    (if on then { x with cls := .p, pSince := if x.rel.isSome ∧ x.pSince.isNone then some now else x.pSince }
     else { x with cls := x.calm, pSince := if x.calm = .p then x.pSince else none })
  else x

section
variable {u : TileNo} {p : Port} {on : Bool} {now : Nat} {x : Part}

theorem Part.noticed_own (h : x.req.tile = u.val ∧ x.req.port = p ∧ x.req.demoted = false) :
    ∃ since, x.noticed u p on now = { x with cls := if on then .p else x.calm, pSince := since } := by
  rw [Part.noticed, if_pos (by simpa using h)]
  cases on <;> exact ⟨_, rfl⟩

theorem Part.noticed_other (h : ¬(x.req.tile = u.val ∧ x.req.port = p ∧ x.req.demoted = false)) : x.noticed u p on now = x :=
  if_neg (by simpa using h)
end

/-- A port stands among those in panic exactly after the notice that it is. -/
theorem mem_panics (l : List (Nat × Nat)) (key : Nat × Nat) (on : Bool) :
    key ∈ (if on then l.filter (fun x => x ≠ key) ++ [key] else l.filter fun x => x ≠ key) ↔ on = true := by
  cases on <;> simp

theorem panicNotices : Claims.PanicNotices := by
  intro s u p on
  have hx : ∃ l, exec (.panicNotice u p on) s =
      .next { s with sched := { s.sched with panics := l, parts := s.sched.parts.map (Part.noticed u p on s.clk.now) } } ∧
      ((u.val, p.val) ∈ l ↔ on = true) := ⟨_, rfl, mem_panics _ _ _⟩
  obtain ⟨l, hx, hl⟩ := hx
  refine ⟨_, hx, hl, List.length_map _, fun i x hi => ⟨x.noticed u p on s.clk.now, ?_, fun h => ?_, Part.noticed_other⟩, State.sched_frame s _⟩
  · rw [List.getElem?_map, hi, Option.map_some]
  · obtain ⟨since, e⟩ := Part.noticed_own (on := on) (now := s.clk.now) h
    rw [e]
    exact ⟨rfl, rfl, rfl, rfl, rfl⟩

/-- Settles O38: ageing takes each part and each request passed onward by itself, and a notice each part of its port. -/
theorem ageingAndPanic : Obligations.AgeingAndPanic := ⟨agePromotes, panicNotices⟩

end Sys2Proof.Machine

/-!
Lines of the stack (R6, R10, R17, R187): a line written reads back with its poison, and every other line stands.
-/
namespace Sys2Proof.Machine
open Sys2Proof
-- One proof at a time: the check's memory limit counts a stack for each proof that waits for another.
set_option Elab.async false

/-! ### A line and its bytes -/

/-- The bytes of a number make it again, as far as they reach (R6). -/
theorem ofBytes_digits (n v : Nat) : ofBytes ((List.range n).map fun i => BitVec.ofNat 8 (v / 256 ^ i)) = v % 256 ^ n := by
  induction n generalizing v with
  | zero => simp [ofBytes, Nat.mod_one]
  | succ n ih =>
    have hnext : ∀ i, v / 256 ^ (i + 1) = v / 256 / 256 ^ i := fun i => by rw [Nat.pow_succ', Nat.div_div_eq_div_mul]
    rw [List.range_succ_eq_map, List.map_cons, List.map_map, ofBytes, Nat.pow_succ', Nat.mod_mul, ← ih]
    simp only [Function.comp_def, Nat.succ_eq_add_one, hnext, pow_zero, Nat.div_one, BitVec.toNat_ofNat, Nat.reducePow]

theorem lineByte_eq_digit (d : Line) (i : Nat) : lineByte d i = BitVec.ofNat 8 (d.toNat / 256 ^ i) := by
  rw [lineByte, BitVec.extractLsb', Nat.shiftRight_eq_div_pow, Nat.pow_mul]

theorem toNat_lt_bytes {n : Nat} (d : BitVec (8 * n)) : d.toNat < 256 ^ n := by
  rw [show (256 : Nat) = 2 ^ 8 from rfl, ← Nat.pow_mul]
  exact d.isLt

theorem lineOfBytes_lineBytes (d : Line) : lineOfBytes (lineBytes d) = d := by
  have h : ofBytes (lineBytes d) = d.toNat % 256 ^ 64 :=
    (congrArg ofBytes (List.map_congr_left fun i _ => lineByte_eq_digit d i)).trans (ofBytes_digits 64 d.toNat)
  rw [lineOfBytes, h, Nat.mod_eq_of_lt (toNat_lt_bytes (n := 64) d), BitVec.ofNat_toNat, BitVec.setWidth_eq]

/-! ### The bytes of the stack -/

/-- Bytes written from an address on read back there, and nothing else changes. -/
theorem getD_putBytes (m : List Host.Cell) (a : Nat) (bs : List Byte) (x : Nat) :
    SMap.getD (putBytes m a bs) x 0 = if x < a then SMap.getD m x 0 else (bs[x - a]?).getD (SMap.getD m x 0) := by
  induction bs generalizing m a with
  | nil => simp [putBytes]
  | cons b r ih =>
    rw [putBytes, ih]
    rcases Nat.lt_trichotomy x a with h | rfl | h
    · rw [if_pos h, if_pos (Nat.lt_succ_of_lt h), SMap.getD_put_ne _ _ _ (Nat.ne_of_lt h)]
    · simp
    · rw [if_neg (by omega), if_neg (by omega), SMap.getD_put_ne _ _ _ (Nat.ne_of_gt h), show x - a = x - (a + 1) + 1 by omega,
        List.getElem?_cons_succ]

section
variable (m : Store) (l : Nat) (d : Line) (poison : Bool)

theorem Store.byte_write (a : Nat) : (m.write l d poison).byte a =
    if a < l / 64 * 64 then m.byte a else ((lineBytes d)[a - l / 64 * 64]?).getD (m.byte a) := getD_putBytes _ _ _ _

/-- A line written whole reads as it was written. -/
theorem Store.line_write : (m.write l d poison).line l = d := by
  refine (congrArg lineOfBytes (List.map_congr_left fun i hi => ?_)).trans (lineOfBytes_lineBytes d)
  rw [Store.byte_write, if_neg (by omega), Nat.add_sub_cancel_left, lineBytes, List.getElem?_map, List.getElem?_range (List.mem_range.mp hi)]
  rfl

theorem Store.byte_write_ne {a : Nat} (h : a / 64 ≠ l / 64) : (m.write l d poison).byte a = m.byte a := by
  rw [Store.byte_write]
  split
  · rfl
  · rw [List.getElem?_eq_none (by simp [lineBytes]; omega), Option.getD_none]

theorem mem_insNat {xs : List Nat} {x y : Nat} : y ∈ insNat xs x ↔ y = x ∨ y ∈ xs := by
  induction xs with
  | nil => simp [insNat]
  | cons z r ih =>
    unfold insNat
    split
    · simp
    · split
      · next e => simp [e]
      · simp [ih, or_left_comm]

/-- The line's poison is the one it was written with (R187). -/
theorem Store.isPoison_write : (m.write l d poison).isPoison l = poison := by
  unfold Store.isPoison Store.write
  generalize decide (l / 64 * 64 < m.poisonTo) = below
  cases poison <;> cases below <;> simp [mem_insNat]

theorem Store.isPoison_write_ne {a : Nat} (h : a / 64 ≠ l / 64) : (m.write l d poison).isPoison a = m.isPoison a := by
  have hne : a / 64 * 64 ≠ l / 64 * 64 := by omega
  have hc : (m.write l d poison).poison.contains (a / 64 * 64) = m.poison.contains (a / 64 * 64) := by
    unfold Store.write
    split <;> simp [mem_insNat, hne]
  rw [Store.isPoison, Store.isPoison, hc]
  rfl
end

end Sys2Proof.Machine

/-!
Lines that come back (R17, R109, R183, R188, R192, R408): the next line on a pseudo-channel's bus, what its decode counts, and the answer to its reader.
-/
namespace Sys2Proof.Machine
open Sys2Proof
-- One proof at a time: the check's memory limit counts a stack for each proof that waits for another.
set_option Elab.async false

variable {s z t : State} {l : List Field} {c : Nat} {f : Flight} {rest : List Flight}

/-! ### Frames and answers -/

theorem State.emit_frame (s : State) (o : Out) : OnlyChanges [.out] s (s.emit o) :=
  Fr.only (M := 2 ^ 2) (Fr.upd (Fr.refl s) rfl) (by decide)

theorem State.writeLine_frame (s : State) (a : Nat) (d : Line) (poison : Bool) : OnlyChanges [.store] s (s.writeLine a d poison) :=
  Fr.only (M := 2 ^ 21) (Fr.upd (Fr.refl s) rfl) (by decide)

/-- The map stands while its words and what the start found of the stack do (R52). -/
theorem State.map_of_frame (k : OnlyChanges l s t) (hd : .dict ∉ l := by simp) (hi : .ident ∉ l := by simp) (hp : .phy ∉ l := by simp) :
    t.map = s.map := by
  have ei : t.ident = s.ident := k .ident hi
  have ep : t.phy = s.phy := k .phy hp
  simp only [State.map, State.n, State.reg_of_frame k hd hi, ei, ep]

theorem State.lineKind_of_frame (k : OnlyChanges l s t) (hd : .dict ∉ l := by simp) (hi : .ident ∉ l := by simp) (hp : .phy ∉ l := by simp)
    (a : Nat) : t.lineKind a = s.lineKind a := by
  have ei : t.ident = s.ident := k .ident hi
  rw [State.lineKind, State.lineKind, State.map_of_frame k hd hi hp, State.t, State.t, ei]

theorem State.avail_of_frame (k : OnlyChanges l s t) (hp : .pd ∉ l := by simp) {i : Nat} : t.avail i = s.avail i := by
  have ep : t.pd = s.pd := k .pd hp
  simp only [State.avail, State.dom, ep]

/-- A counter that rises after a step that counts nothing has risen by the same over both. -/
theorem State.counted_of_frame {i x n : Nat} (k : OnlyChanges l s z) (h : z.counted t i x n) (hc : .ctr ∉ l := by simp) (hp : .pd ∉ l := by simp) :
    s.counted t i x n := by
  have ec : z.ctr = s.ctr := k .ctr hc
  unfold State.counted State.ctrOf at h ⊢
  rwa [ec, State.avail_of_frame k hp] at h

/-- A counter that has risen stands so after a step that counts nothing. -/
theorem State.counted_then {i x n : Nat} (h : s.counted z i x n) (k : OnlyChanges l z t) (hc : .ctr ∉ l := by simp) : s.counted t i x n := by
  have ec : t.ctr = z.ctr := k .ctr hc
  unfold State.counted State.ctrOf at h ⊢
  rwa [ec]

theorem answerOf_of_frame (k : OnlyChanges l s t) (r : HReq) (ls : List LineAns) (hi : .ident ∉ l := by simp) (hr : .repair ∉ l := by simp) :
    answerOf t r .none ls = answerOf s r .none ls := by
  rw [answerOf, answerOf, State.arcTo_of_frame k hi hr]

/-- The answer of a home is a message on its ring. -/
theorem State.answer_eq (z : State) (r : HReq) (ls : List LineAns) : z.answer r ls .none = z.emit (answerOf z r .none ls) := rfl

/-! ### The next line on the bus -/

/-- The state once the first line in flight has left the bus. -/
def State.landed (s : State) (f : Flight) (rest : List Flight) : State :=
  ({ s with sched := { s.sched with flight := rest } } : State).toCycle f.dataEnd

theorem State.landed_frame (s : State) (f : Flight) (rest : List Flight) : OnlyChanges [.sched, .clk] s (s.landed f rest) :=
  Fr.only (M := 2 ^ 19 + 2 ^ 5) (Fr.upd (Fr.refl s) rfl) (by decide)

theorem State.nextFlight_first (h : s.sched.flight = f :: rest) (hc : f.pc = c) : s.nextFlight c = some (f, s.landed f rest) := by
  simp only [State.nextFlight, h, takeFirst, hc, beq_self_eq_true, if_true]
  rfl

/-- The state once a read line is due: its pseudo-channel remembers since when its data has not come (R408). -/
def State.readDue (s : State) (c : Nat) (f : Flight) (rest : List Flight) (since : Option Nat) : State :=
  (s.landed f rest).setPc c { s.pc c with noData := since }

theorem PcFrame.readDue (s : State) (c : Nat) (f : Flight) (rest : List Flight) (since : Option Nat) :
    PcFrame [.sched, .clk, .pcs] c s (s.readDue c f rest since) :=
  ((PcFrame.refl s).next (.off_pcs (s.landed_frame f rest))).next (.setPc _ c _)

theorem State.pc_readDue (s : State) (c : Nat) (f : Flight) (rest : List Flight) (since : Option Nat) :
    (s.readDue c f rest since).pc c = { s.pc c with noData := since } := State.pc_setPc_same _ _ _

theorem State.laneCnt_readDue (s : State) (c : Nat) (f : Flight) (rest : List Flight) (since : Option Nat) :
    ((s.readDue c f rest since).pc c).laneCnt = (s.pc c).laneCnt := by rw [State.pc_readDue]

theorem State.rowBad_readDue (s : State) (c : Nat) (f : Flight) (rest : List Flight) (since : Option Nat) :
    ((s.readDue c f rest since).pc c).rowBad = (s.pc c).rowBad := by rw [State.pc_readDue]

/-! ### What a decode counts -/

theorem State.countDecode_good (z : State) (c a : Nat) : z.countDecode c a .good = z := rfl

theorem State.countDecode_corrected (z : State) (c a : Nat) : z.countDecode c a .corrected = z.count 0x4801 1 := rfl

theorem State.countDecode_poisoned (z : State) (c a : Nat) : z.countDecode c a .poisoned = z.count 0x4801 9 := rfl

/-- A line that does not decode is counted before its event is logged. -/
theorem State.countDecode_uncorrectable (z : State) (c a : Nat) :
    OnlyChanges [.log, .maint, .out] (z.count 0x4801 5) (z.countDecode c a .uncorrectable) := State.logLim_frame _ _ _ _ _ _

theorem State.countLane_good {d : Decode1} (h : d.res = .good) : z.countLane c d = z := by simp only [State.countLane, h]

theorem State.countLane_uncorrectable {d : Decode1} (h : d.res = .uncorrectable) : z.countLane c d = z := by simp only [State.countLane, h]

/-- A decode that corrected no symbol counts on no lane (R193). -/
theorem State.countLane_none {d : Decode1} (h : d.err = none) : z.countLane c d = z := by
  unfold State.countLane
  rw [h]
  cases d.res <;> rfl

/-- One more corrected symbol on the lane of a position (R193). -/
def State.raiseLane (z : State) (c k : Nat) : State :=
  z.setPc c { z.pc c with laneCnt := (z.pc c).laneCnt.set (posLane k) ((z.pc c).laneCnt.getD (posLane k) 0 + 1) }

theorem State.laneCnt_raiseLane (z : State) (c k : Nat) :
    ((z.raiseLane c k).pc c).laneCnt.getD (posLane k) 0 = (z.pc c).laneCnt.getD (posLane k) 0 + 1 := by
  rw [State.raiseLane, State.pc_setPc_same, SMap.getD_set_same]

/-- A corrected symbol below the limit counts on its lane and does nothing else (R193). -/
theorem State.countLane_corrected {d : Decode1} {k : Nat} (h : d.res = .corrected) (he : d.err = some k) (hk : k < 36)
    (hn : (z.pc c).laneCnt.getD (posLane k) 0 + 1 ≠ (z.reg 0x4800 5).toNat) : z.countLane c d = z.raiseLane c k := by
  simp only [State.countLane, h, he, if_neg (Nat.not_le.mpr hk), if_neg hn]
  rfl

/-- Only a line that does not decode counts for its row (R304). -/
theorem State.countRow_decoded {pl : Place} {r : Decoded} (hu : r ≠ .uncorrectable) (hm : r ≠ .misplaced) : z.countRow pl r = z :=
  if_neg (by simp [hu, hm])

/-- Below the row's limit its count is all that changes (R304). -/
theorem PcFrame.countRow {pl : Place} (r : Decoded)
    (h : popCount (BitVec.ofNat 16 ((z.pc pl.pc).rowBad.getD (65536 * pl.bank + pl.row) 0 + 2 ^ pl.col)) ≠ (z.reg 0x7800 5).toNat) :
    PcFrame [.pcs] pl.pc z (z.countRow pl r) := by
  unfold State.countRow
  simp only [if_neg h]
  split
  · split
    · exact .refl z
    · exact .setPc z _ _
  · exact .refl z

/-! ### The correction queue -/

theorem State.mark_unshaped {k : Nat} (h : 1024 ≤ k) : z.mark k = z := if_neg fun e => absurd e.2 (Nat.not_lt.mpr h)

theorem State.addPart_frame (z : State) (p : Part) : OnlyChanges [.sched] z (z.addPart p) ∧ (z.addPart p).sched.flight = z.sched.flight := by
  unfold State.addPart
  split
  · exact ⟨z.sched_frame _, rfl⟩
  · exact ⟨z.sched_frame _, rfl⟩

theorem State.addParts_frame (ps : List Part) (z : State) :
    OnlyChanges [.sched] z (ps.foldl State.addPart z) ∧ (ps.foldl State.addPart z).sched.flight = z.sched.flight := by
  induction ps generalizing z with
  | nil => exact ⟨fun f _ => z.same_refl f, rfl⟩
  | cons p r ih =>
    obtain ⟨hf, he⟩ := z.addPart_frame p
    obtain ⟨hf', he'⟩ := ih (z.addPart p)
    exact ⟨(hf.then hf').mono (by simp), he'.trans he⟩

/-- Work of an internal port joins no shaper queue (R152): only the parts at hand change. -/
theorem State.joinAs_unshaped {r : HReq} {o : Origin} {write : Bool} {g : Tag} (ls : List PLn) (h : 1024 ≤ g.queue) :
    OnlyChanges [.sched] z (z.joinAs r o write g ls) ∧ (z.joinAs r o write g ls).sched.flight = z.sched.flight := by
  unfold State.joinAs
  simp only [State.mark_unshaped h]
  obtain ⟨hf, he⟩ := State.addParts_frame _ { z with sched := { z.sched with seq := z.sched.seq + 1 } }
  exact ⟨(((z.sched_frame _).then hf).then (State.sched_frame _ _)).mono (by simp), he⟩

/-- A line new to a correction queue with room is put at its end, and its group is to be read (R192). -/
theorem State.queueFix_new {a : Nat} (hn : a ∉ z.seam.fixQueue) (hr : z.seam.fixQueue.length < 64) :
    OnlyChanges [.sched, .seam] z (z.queueFix c a) ∧ (z.queueFix c a).seam.fixQueue = z.seam.fixQueue ++ [a] ∧
      (z.queueFix c a).sched.flight = z.sched.flight := by
  set y : State := { z with seam := { z.seam with fixQueue := z.seam.fixQueue ++ [a] } } with hy
  have hz : OnlyChanges [.seam] z y := Fr.only (M := 2 ^ 22) (Fr.upd (Fr.refl z) rfl) (by decide)
  unfold State.queueFix
  simp only [List.contains_eq_mem, hn, decide_false, Bool.false_eq_true, if_false, if_pos hr, ← hy]
  split
  · exact ⟨hz.mono (by simp), rfl, rfl⟩
  · obtain ⟨hf, he⟩ := State.joinAs_unshaped (z := y) _ (g := y.noTag) (Nat.le_refl 1024)
    exact ⟨(hz.then hf).mono (by simp), congrArg Seam.fixQueue (hf .seam (by simp)), he⟩

/-! ### The reader's answer -/

/-- A line's answer by its decode (R92, R183). -/
def Decode1.answer (d : Decode1) (idx : Nat) : LineAns :=
  match d.res with
  | .good => ⟨idx, .ok, false, d.data⟩
  | .corrected => ⟨idx, .ok, true, d.data⟩
  | .poisoned | .misplaced | .uncorrectable => ⟨idx, .poison, false, 0⟩

/-- A port's line is answered as it decoded, but for a Seam line that its row may make again (R188, R198). -/
theorem State.readerDecode_answers {r : HReq} {d : Decode1} {a : Nat} (k : OnlyChanges l s z) (idx : Nat) (h28 : r.port.val ≠ 28)
    (h : d.res ≠ .misplaced ∧ d.res ≠ .uncorrectable ∨ s.lineKind a = .ordinary) (hd : .dict ∉ l := by simp) (hi : .ident ∉ l := by simp)
    (hp : .phy ∉ l := by simp) (hr : .repair ∉ l := by simp) :
    z.readerDecode .req r idx a d = z.emit (answerOf s r .none [d.answer idx]) := by
  have hno : ¬ ((d.res == .misplaced || d.res == .uncorrectable) && z.lineKind a == .data && z.membersThere a) = true := by
    rw [State.lineKind_of_frame k hd hi hp]
    rcases h with ⟨hm, hu⟩ | h
    · simp [hm, hu]
    · simp [h]
  rw [← answerOf_of_frame k r _ hi hr, ← State.answer_eq]
  unfold State.readerDecode
  rw [if_neg (fun e => h28 e.2), if_neg hno, Decode1.answer]
  cases d.res <;> rfl

section
variable {errs : List (Nat × Word)} {d : Decode1} (hfl : s.sched.flight = f :: rest) (hpc : f.pc = c) (hw : f.write = false) (ho : f.origin = .req)
  (h28 : f.req.port.val ≠ 28)
include hfl hpc hw ho

/-- A port's line arrives (R183, R192, R193): what its decode counts, then the correction queue, then the answer. -/
theorem State.readArrives_port {r : Decoded} (hd : s.decodeAt c f.ln.addr errs = d) (hr : d.res = r) :
    s.readArrives c errs =
      (let y := (((s.readDue c f rest none).countDecode c f.ln.addr r).countLane c d).countRow ⟨c, f.bank, f.row, f.ln.col⟩ r
       if r = .corrected then y.queueFix c f.ln.addr else y).readerDecode .req f.req f.ln.idx f.ln.addr d := by
  unfold State.readArrives
  rw [State.nextFlight_first hfl hpc]
  simp only [hw, hd, hr, Bool.false_eq_true, if_false, State.useDecode, ho, Origin.port, Bool.true_and, beq_iff_eq]
  rfl

include h28

theorem State.readArrives_good (hd : s.decodeAt c f.ln.addr errs = d) (hr : d.res = .good) :
    s.readArrives c errs = (s.readDue c f rest none).emit (answerOf s f.req .none [⟨f.ln.idx, .ok, false, d.data⟩]) := by
  rw [State.readArrives_port hfl hpc hw ho hd hr, State.countDecode_good, State.countLane_good hr, State.countRow_decoded (by decide) (by decide),
    if_neg (by decide), State.readerDecode_answers (PcFrame.readDue s c f rest none).2 _ h28 (.inl (by simp [hr])), Decode1.answer, hr]

theorem State.readArrives_poisoned (hd : s.decodeAt c f.ln.addr errs = d) (hr : d.res = .poisoned) (he : d.err = none) :
    s.readArrives c errs =
      ((s.readDue c f rest none).count 0x4801 9).emit (answerOf s f.req .none [⟨f.ln.idx, .poison, false, 0⟩]) := by
  have hframe := (PcFrame.readDue s c f rest none).2.then (State.count_frame _ 0x4801 9 1)
  rw [State.readArrives_port hfl hpc hw ho hd hr, State.countDecode_poisoned, State.countLane_none he, State.countRow_decoded (by decide) (by decide),
    if_neg (by decide), State.readerDecode_answers hframe _ h28 (.inl (by simp [hr])), Decode1.answer, hr]

/-- A corrected line counts for the tile and on its lane, and joins the correction queue before its answer goes out. -/
theorem State.readArrives_corrected {k : Nat} (hd : s.decodeAt c f.ln.addr errs = d) (hr : d.res = .corrected) (he : d.err = some k) (hk : k < 36)
    (hn : (s.pc c).laneCnt.getD (posLane k) 0 + 1 ≠ (s.reg 0x4800 5).toNat) (hroom : s.seam.fixQueue.length < 64)
    (hnew : f.ln.addr ∉ s.seam.fixQueue) :
    s.readArrives c errs = ((((s.readDue c f rest none).count 0x4801 1).raiseLane c k).queueFix c f.ln.addr).emit
      (answerOf s f.req .none [⟨f.ln.idx, .ok, true, d.data⟩]) := by
  have hread := (PcFrame.readDue s c f rest none).2.then (State.count_frame _ 0x4801 1 1)
  have hlane : (((s.readDue c f rest none).count 0x4801 1).pc c).laneCnt = (s.pc c).laneCnt := s.laneCnt_readDue c f rest none
  set y := (s.readDue c f rest none).count 0x4801 1
  have hset : OnlyChanges [.pcs] y (y.raiseLane c k) := (PcFrame.setPc y c _).2
  have hframe := (hread.then hset).then (State.queueFix_new (c := c) (z := y.raiseLane c k) hnew hroom).1
  rw [State.readArrives_port hfl hpc hw ho hd hr, State.countDecode_corrected,
    State.countLane_corrected hr he hk (by rwa [hlane, State.reg_of_frame hread]), State.countRow_decoded (by decide) (by decide), if_pos rfl,
    State.readerDecode_answers hframe _ h28 (.inl (by simp [hr])), Decode1.answer, hr]

/-- An ordinary line that does not decode counts for the tile, is logged, and counts for its row, below the row's limit. -/
theorem State.readArrives_uncorrectable (hd : s.decodeAt c f.ln.addr errs = d) (hr : d.res = .uncorrectable)
    (hk : s.lineKind f.ln.addr = .ordinary)
    (hn : popCount (BitVec.ofNat 16 ((s.pc c).rowBad.getD (65536 * f.bank + f.row) 0 + 2 ^ f.ln.col)) ≠ (s.reg 0x7800 5).toNat) :
    ∃ z, OnlyChanges [.log, .maint, .out, .pcs] ((s.readDue c f rest none).count 0x4801 5) z ∧
      s.readArrives c errs = z.emit (answerOf s f.req .none [⟨f.ln.idx, .poison, false, 0⟩]) := by
  have hread := (PcFrame.readDue s c f rest none).2.then (State.count_frame _ 0x4801 5 1)
  have hlog := (s.readDue c f rest none).countDecode_uncorrectable c f.ln.addr
  have hbad : (((s.readDue c f rest none).countDecode c f.ln.addr .uncorrectable).pc c).rowBad = (s.pc c).rowBad := by
    have hpcs : _ = ((s.readDue c f rest none).count 0x4801 5).pcs := hlog .pcs (by simp)
    rw [State.pc, hpcs]
    exact s.rowBad_readDue c f rest none
  set y := (s.readDue c f rest none).countDecode c f.ln.addr .uncorrectable
  have hrow : PcFrame [.pcs] c y (y.countRow ⟨c, f.bank, f.row, f.ln.col⟩ .uncorrectable) :=
    .countRow _ (by rwa [hbad, State.reg_of_frame (hread.then hlog)])
  refine ⟨y.countRow ⟨c, f.bank, f.row, f.ln.col⟩ .uncorrectable, (hlog.then hrow.2).mono (by simp), ?_⟩
  rw [State.readArrives_port hfl hpc hw ho hd hr, State.countLane_uncorrectable hr, if_neg (by decide),
    State.readerDecode_answers ((hread.then hlog).then hrow.2) _ h28 (.inr hk), Decode1.answer, hr]

/-- A line of the ordinary part whose data does not come, where the pseudo-channel's data has come so far (R408). -/
theorem State.readAbsent_port (hk : s.lineKind f.ln.addr = .ordinary) (hn : (s.pc c).noData = none) :
    s.readAbsent c = (s.readDue c f rest (some s.frame)).emit (answerOf s f.req .none [⟨f.ln.idx, .poison, false, 0⟩]) := by
  have hp : (s.landed f rest).pc c = s.pc c := rfl
  have ha := State.readerDecode_answers (d := ⟨.uncorrectable, 0, none⟩) (PcFrame.readDue s c f rest (some s.frame)).2 f.ln.idx h28 (.inr hk)
  unfold State.readAbsent
  rw [State.nextFlight_first hfl hpc]
  simp only [hw, hp, hn, ho, Bool.false_eq_true, if_false, Option.getD_none, reduceCtorEq, or_self, State.useDecode]
  rw [if_neg (by omega)]
  exact ha
end

/-! ### The reads of a port -/

/-- What a corrected line leaves before its answer goes out: its counts, and its place in the correction queue. -/
theorem State.corrected_leaves {a : Nat} (k : Nat) (hroom : s.seam.fixQueue.length < 64) (hnew : a ∉ s.seam.fixQueue) :
    let z := (((s.readDue c f rest none).count 0x4801 1).raiseLane c k).queueFix c a
    z.sched.flight = rest ∧ s.counted z 0x4801 1 1 ∧ (z.pc c).laneCnt.getD (posLane k) 0 = (s.pc c).laneCnt.getD (posLane k) 0 + 1 ∧
      z.seam.fixQueue = s.seam.fixQueue ++ [a] ∧ PcFrame [.sched, .clk, .pcs, .ctr, .seam] c s z := by
  intro z
  have hread : PcFrame [.sched, .clk, .pcs] c s (s.readDue c f rest none) := .readDue s c f rest none
  have hlanes := s.laneCnt_readDue c f rest none
  have hrest : (s.readDue c f rest none).sched.flight = rest := rfl
  set b := s.readDue c f rest none
  set y := (b.count 0x4801 1).raiseLane c k
  have hlane : PcFrame [.pcs] c (b.count 0x4801 1) y := .setPc _ _ _
  obtain ⟨hq, hqueue, hflight⟩ := State.queueFix_new (c := c) (z := y) hnew hroom
  have hpcs : z.pcs = y.pcs := hq .pcs (by simp)
  refine ⟨hflight.trans hrest, ?_, ?_, hqueue, ?_⟩
  · exact State.counted_then (State.counted_of_frame hread.2 (b.counted_count _ _ _)) (hlane.2.then hq)
  · rw [State.pc, hpcs, ← hlanes]
    exact State.laneCnt_raiseLane _ c k
  · exact ((((PcFrame.refl s).next hread).next (.off_pcs (b.count_frame 0x4801 1 1))).next hlane).next (.off_pcs hq)

theorem readDataReturns : Claims.ReadDataReturns := by
  intro s c errs f rest hfl hpc hw ho h28 d answer
  have hread := (PcFrame.readDue s c f rest none).2
  have hcount := fun x => hread.then (State.count_frame (s.readDue c f rest none) 0x4801 x 1)
  have hcounted := fun x => State.counted_of_frame hread ((s.readDue c f rest none).counted_count 0x4801 x 1)
  refine ⟨fun hr => ?_, fun hr he => ?_, fun k hr he hk hlane hroom hnew => ?_, fun hr hk hrow => ?_⟩
  · refine ⟨_, congrArg Host.Outcome.next (State.readArrives_good hfl hpc hw ho h28 rfl hr), rfl, rfl, rfl, ?_, rfl,
      (hread.then (State.emit_frame _ _)).mono (by simp)⟩
    exact congrArg PcSt.noData (s.pc_readDue c f rest none)
  · exact ⟨_, congrArg Host.Outcome.next (State.readArrives_poisoned hfl hpc hw ho h28 rfl hr he), rfl, rfl, hcounted 9,
      ((hcount 9).then (State.emit_frame _ _)).mono (by simp)⟩
  · obtain ⟨hflight, hcnt, hlanes, hqueue, honly, hframe⟩ := State.corrected_leaves (c := c) (f := f) (rest := rest) k hroom hnew
    refine ⟨_, congrArg Host.Outcome.next (State.readArrives_corrected hfl hpc hw ho h28 rfl hr he hk hlane hroom hnew), ?_, hflight, hcnt, hlanes,
      honly, hqueue, (hframe.then (State.emit_frame _ _)).mono (by simp)⟩
    exact congrArg (· ++ _) (hframe .out (by simp))
  · obtain ⟨z, hz, hx⟩ := State.readArrives_uncorrectable hfl hpc hw ho h28 rfl hr hk hrow
    refine ⟨_, congrArg Host.Outcome.next hx, ?_, ?_, ?_, ?_⟩
    · exact List.mem_append_right _ (.head _)
    · exact congrArg Sched.flight (hz .sched (by simp))
    · exact State.counted_then (hcounted 5) (hz.then (State.emit_frame _ _))
    · exact ((hcount 5).then (hz.then (State.emit_frame _ _))).mono (by simp)

theorem readDataAbsent : Claims.ReadDataAbsent := by
  intro s c f rest hfl hpc hw ho h28 hk hn
  obtain ⟨honly, hframe⟩ := PcFrame.readDue s c f rest (some s.frame)
  refine ⟨_, congrArg Host.Outcome.next (State.readAbsent_port hfl hpc hw ho h28 hk hn), rfl, rfl, ?_, honly,
    (hframe.then (State.emit_frame _ _)).mono (by simp)⟩
  exact congrArg PcSt.noData (s.pc_readDue c f rest _)

/-! ### The writes of a port -/

/-- A state with the acknowledged writes of which a line failed or was refused (R109, R229). -/
def State.withFailed (z : State) (fails parts : List (Nat × Nat × Nat)) : State := { z with sched := { z.sched with wfail := fails, wpart := parts } }

theorem State.withFailed_self {fails parts : List (Nat × Nat × Nat)} (hf : fails = z.sched.wfail) (hp : parts = z.sched.wpart) :
    z.withFailed fails parts = z := by
  subst hf hp
  rfl

/-- The last line of an acknowledged write of which no other line failed (R17, R109). -/
theorem State.lineWritten_last {r : HReq} (hop : r.op = .writeAck) (hb : z.busyReq r = false) (hf : z.sched.wfail = []) (hp : z.sched.wpart = [])
    (idx : Nat) (ok : Bool) :
    z.lineWritten r idx (if ok then 0 else 1) false = z.emit (answerOf z r .none [⟨0, if ok then .ok else .poison, false, 0⟩]) := by
  have hz : z.withFailed [] [] = z := State.withFailed_self hf.symm hp.symm
  rw [← State.answer_eq]
  unfold State.lineWritten
  cases ok
  · simp only [Bool.false_eq_true, if_false, hop, reduceCtorEq, if_true, OfNat.one_ne_ofNat, one_ne_zero]
    refine (if_neg fun e => ?_).trans ?_
    · exact absurd (hb.symm.trans e) Bool.false_ne_true
    simp only [hf, hp, List.contains_nil, Bool.false_eq_true, if_false, List.nil_append, List.contains_cons, beq_self_eq_true, Bool.true_or,
      if_true, List.filter_cons, ne_eq, not_true_eq_false, decide_false, List.filter_nil]
    exact congrArg (State.answer · r _ _) hz
  · simp only [if_true, hb, Bool.false_eq_true, if_false, hop, hf, hp, List.filter_nil, List.contains_nil]
    exact congrArg (State.answer · r _ _) hz

theorem writeDataDone : Claims.WriteDataDone := by
  intro s c ok f rest hfl hpc hw ho hop hbusy hfail hpart haligned
  set z := (s.landed f rest).writeLine f.ln.addr f.ln.d.data (f.ln.d.poison || !ok)
  have hframe : OnlyChanges [.sched, .clk, .store] s z := ((s.landed_frame f rest).then (State.writeLine_frame _ _ _ _)).mono (by simp)
  have hx : s.writeArrives c ok = z.emit (answerOf s f.req .none [⟨0, if ok then .ok else .poison, false, 0⟩]) := by
    rw [← answerOf_of_frame hframe, ← State.lineWritten_last (z := z) hop hbusy hfail hpart f.ln.idx ok]
    unfold State.writeArrives
    rw [State.nextFlight_first hfl hpc]
    simp only [hw, ho, Bool.not_true, Bool.false_eq_true, if_false]
    rfl
  refine ⟨_, congrArg Host.Outcome.next hx, ?_, ?_, fun a ha => ⟨?_, ?_⟩, rfl, rfl, rfl, (hframe.then (State.emit_frame _ _)).mono (by simp)⟩
  · exact s.store.line_write _ _ _
  · exact s.store.isPoison_write _ _ _
  · exact s.store.byte_write_ne _ _ _ ha
  · exact s.store.isPoison_write_ne _ _ _ ha

end Sys2Proof.Machine

/-!
The issue of an access (R157, R158, R160): a part that stands alone on its pseudo-channel heads the access and takes no riders.
-/
namespace Sys2Proof.Machine
open Sys2Proof
-- One proof at a time: the check's memory limit counts a stack for each proof that waits for another.
set_option Elab.async false

variable {s z : State} {c : Nat} {p : Part} {l : PLn}

/-! ### The choice -/

theorem State.pcParts_alone (h : s.sched.parts = [p]) (hc : p.pc = c) (hr : p.rel.isSome = true) : s.pcParts c = [p] := by
  simp [State.pcParts, h, hc, hr]

/-- A part alone on its bank is held back by none and goes in its own class (R163, R164). -/
theorem selClass_alone (p : Part) : selClass [p] p = some p.cls := by
  simp [selClass, inOrder, heldBack]

theorem State.cands_alone (hp : s.pcParts c = [p]) (hg : s.granted p.cls = true) (hm : s.mayGo p = true)
    (hs : s.mayStart c p.bank p.lns.length p.write (p.cls == .p) = true) : s.cands c = [⟨p, p.cls⟩] := by
  simp [State.cands, hp, selClass_alone, hg, hm, hs]

/-- The one candidate comes first, on the fall-back path as well (R160, R165). -/
theorem State.head_alone {x : Cand} (h : s.cands c = [x]) : s.head c = some x := by
  have hf : s.fallCands c [x] = [x] := by
    unfold State.fallCands
    simp only [List.filter_cons, List.filter_nil]
    generalize (x.cls == .p) = inP
    generalize (x.p.write == (s.pc c).drain || x.p.write && inOrder ((s.pcParts c).filter fun q => q.bank == x.p.bank)) = preferred
    cases inP <;> cases preferred <;> rfl
  rw [State.head, h, hf, ite_self]
  rfl

theorem State.access_alone (hp : s.pcParts c = [p]) (k : Cls) : s.access c ⟨p, k⟩ = [p] := by
  have hr : s.riders c ⟨p, k⟩ [p] = [] := by simp [State.riders, hp, samePart]
  rw [State.access, State.accessMore, hr]
  rfl

/-- In a slot that lets no internal port go ahead there is no part of one (R61). -/
theorem State.slotPart_none (h : (s.pc c).opp = 0) : s.slotPart c = none := by
  simp [State.slotPart, h]

/-- An access of one part that stands alone goes now (R160). -/
theorem State.accessNow_alone (hserves : s.pcServes c = true) (href : s.refreshFirst c = false) (hstop : s.pcStopped c = false)
    (hq : s.quench.on = false) (hopp : (s.pc c).opp = 0) (hp : s.pcParts c = [p]) (hh : s.head c = some ⟨p, p.cls⟩) :
    s.accessNow c = s.runAccess c [p] := by
  have hrec : (s.pc c).recov = false := (Bool.or_eq_false_iff.mp hstop).2
  unfold State.accessNow
  simp [hserves, href, hq, hrec, hstop, hh, State.slotPart_none hopp, State.access_alone hp]

/-- Nothing waits on the issue of work that is neither the walk's, the correction queue's nor a rebuild's (R190, R192, R200). -/
theorem State.enginesIssued_other (h : p.origin ∉ [Origin.pickleWalk, .pickleFix, .rebuild, .rebuildW]) : z.enginesIssued c [p] = z := by
  unfold State.enginesIssued
  rw [List.foldl_cons, List.foldl_nil]
  split <;> simp_all

/-! ### Counters -/

theorem State.ctrOf_count_ne {i x j y n : Nat} (h : wkey i x ≠ wkey j y) : (z.count j y n).ctrOf i x = z.ctrOf i x := by
  unfold State.count State.ctrOf
  split
  · exact SMap.getD_put_ne _ _ _ h
  · rfl

theorem State.ctrOf_count_same {i x n : Nat} (h : z.avail i = true) : (z.count i x n).ctrOf i x = (z.ctrOf i x + n) % 2 ^ 48 :=
  (z.counted_count i x n).trans (if_pos h)

theorem State.pcPowered_of_serves (h : s.pcServes c = true) : s.pcPowered c = true := by
  simp only [State.pcServes, Bool.and_eq_true] at h
  obtain ⟨⟨⟨⟨⟨hpow, -⟩, -⟩, -⟩, -⟩, -⟩ := h
  exact hpow

/-- The counters of a pseudo-channel stand in its scheduler's half (R29, R391). -/
theorem domainsOf_pc : ∀ c < 64, domainsOf (0x4100 + c) = [if c < 32 then 6 else 7] := by decide

theorem State.avail_of_pcPowered (hc : c < 64) (h : s.pcPowered c = true) : s.avail (0x4100 + c) = true := by
  simp only [State.pcPowered, Bool.and_eq_true] at h
  obtain ⟨⟨⟨hhalf, -⟩, -⟩, -⟩ := h
  rw [State.avail, domainsOf_pc c hc, List.any_cons, hhalf, Bool.true_or]

/-! ### What an issue counts and tells -/

/-- The counts of a part's issue, its wait among them (R135, R148, R175): the first of the two things that `State.partIssued` does. -/
def State.partCounted (s : State) (c : Nat) (p : Part) (first : Nat) : State :=
  let z := (s.count (0x3500 + byteClass p) (if p.write then 5 else 1) (64 * p.lns.length)).late c p first
  if p.queue < 1024 then z.count (0x3600 + p.queue) 10 p.lns.length else z

/-- The notice and the share of a request of which no part is left (R132, R138): the second of them, at tile `t`. -/
def State.partTold (s : State) (t : Nat) (p : Part) : State :=
  if p.internal || s.sched.parts.any (fun x => sameReq x.req p.req) || s.homeOwes p.req then s
  else
    (if p.req.op ≠ .writePosted ∧ p.req.tile ≠ t ∧ p.req.txid ≠ 0 ∨ p.origin = .req ∧ p.req.op = .writePosted ∧ !s.homeHolds p.req then
      s.ring (.notice p.req.tile p.req.port p.req.txid) else s).freeShare p.req

theorem State.partIssued_eq (s : State) (c : Nat) (p : Part) (first : Nat) : s.partIssued c p first = (s.partCounted c p first).partTold s.t p := rfl

/-- What the issue of a part counts and tells beside its commands (R132, R135, R138, R148, R175): no counter of a pseudo-channel. -/
def IssueTold (z t : State) : Prop :=
  OnlyChanges [.ctr, .log, .maint, .out, .ports, .budget] z t ∧ ∀ i x, 0x4100 ≤ i → t.ctrOf i x = z.ctrOf i x

section
variable {t u : State}

theorem IssueTold.refl (z : State) : IssueTold z z := ⟨fun f _ => z.same_refl f, fun _ _ _ => rfl⟩

theorem IssueTold.trans (h : IssueTold z t) (k : IssueTold t u) : IssueTold z u :=
  ⟨fun f hf => State.same_trans (h.1 f hf) (k.1 f hf), fun i x hi => (k.2 i x hi).trans (h.2 i x hi)⟩

theorem IssueTold.count (z : State) {j y : Nat} (n : Nat) (hj : j < 0x4100) (hy : y < 256) : IssueTold z (z.count j y n) :=
  ⟨(z.count_frame j y n).mono (by simp), fun i x hi => State.ctrOf_count_ne (by unfold wkey; omega)⟩

/-- A step that counts nothing. -/
theorem IssueTold.off_ctr {l : List Field} (h : OnlyChanges l z t) (hl : l ⊆ [.log, .maint, .out, .ports, .budget] := by simp) : IssueTold z t := by
  have hc : t.ctr = z.ctr := h .ctr fun e => by simpa using hl e
  exact ⟨h.mono fun f hf => .tail _ (hl hf), fun i x _ => by rw [State.ctrOf, State.ctrOf, hc]⟩

theorem IssueTold.late (z : State) (c : Nat) (p : Part) (first : Nat) : IssueTold z (z.late c p first) := by
  unfold State.late
  split
  · exact .refl z
  · split
    · exact (IssueTold.count z 1 (by decide) (by decide)).trans (.off_ctr (State.logLim_frame _ _ _ _ _ _))
    · exact .refl z

theorem IssueTold.freeShare (z : State) (r : HReq) : IssueTold z (z.freeShare r) := by
  unfold State.freeShare
  split
  · split
    · next o _ =>
      split
      · exact .off_ctr ((PortFrame.setOnward z r.port { o with share := false }).2.then (PortFrame.addShare (p := r.port) _ o.home (-1)).2)
      · exact .refl z
    · exact .refl z
  · exact .refl z

theorem byteClass_le (p : Part) : byteClass p ≤ 6 := by
  unfold byteClass
  split
  · omega
  · split
    · omega
    · cases p.cls <;> decide

theorem IssueTold.partCounted (z : State) (c : Nat) (p : Part) (first : Nat) : IssueTold z (z.partCounted c p first) := by
  have hb := byteClass_le p
  have h : IssueTold z ((z.count (0x3500 + byteClass p) (if p.write then 5 else 1) (64 * p.lns.length)).late c p first) :=
    (IssueTold.count z _ (by omega) (by split <;> omega)).trans (.late _ c p first)
  unfold State.partCounted
  generalize (z.count (0x3500 + byteClass p) (if p.write then 5 else 1) (64 * p.lns.length)).late c p first = y at h ⊢
  dsimp only
  split
  · exact h.trans (.count y _ (by omega) (by omega))
  · exact h

theorem IssueTold.partTold (z : State) (u : Nat) (p : Part) : IssueTold z (z.partTold u p) := by
  unfold State.partTold
  split
  · exact .refl z
  · refine IssueTold.trans ?_ (.freeShare _ _)
    split
    · exact .off_ctr (State.emit_frame _ _)
    · exact .refl _

theorem IssueTold.partIssued (z : State) (c : Nat) (p : Part) (first : Nat) : IssueTold z (z.partIssued c p first) :=
  z.partIssued_eq c p first ▸ (IssueTold.partCounted z c p first).trans (.partTold _ z.t p)
end

/-! ### An access of one line -/

/-- The latency of a part's data behind its column command (R158). -/
def State.dataLat (s : State) (p : Part) : Nat := if p.write then s.tim 15 else s.tim 14

/-- The commands of an access of one line (R157): the ACT now, the column command after tRCD with precharge. -/
def State.commanded (s : State) (c : Nat) (p : Part) (l : PLn) : State :=
  (s.emit (.stack c s.clk.now (.act p.bank p.row))).emit
    (.stack c (s.clk.now + s.tim 1) (if p.write then .wr p.bank l.col true else .rd p.bank l.col true))

/-- The pseudo-channel once an access of one line runs (R158, R159). -/
def State.booked (s : State) (c : Nat) (p : Part) : PcSt :=
  let t := s.clk.now
  let first := t + s.tim 1 + s.dataLat p
  let ready := t + if p.write then writeEnvelope s.tim 1 else readEnvelope s.tim 1
  { s.pc c with
    rowFree := t + s.tim 5, acts := (t :: (s.pc c).acts).take 4, bankReady := (s.pc c).bankReady.set p.bank ready,
    bankRc := (s.pc c).bankRc.set p.bank (t + s.tim 4), idleFrom := max (s.pc c).idleFrom ready,
    cal := ((s.pc c).cal.filter fun b => decide (t ≤ b.2.1 + 4096)) ++ [(first, first + 2, p.write)] }

/-- The one line of an access in flight. -/
def State.lineInFlight (s : State) (c : Nat) (p : Part) (l : PLn) : Flight :=
  ⟨c, p.bank, p.row, p.write, p.origin.ofLine l, p.req, l, true, s.clk.now + s.tim 1 + s.dataLat p + 2, false⟩

/-- The state once the commands of a part that stood alone are out and its line is in flight. -/
def State.launched (s : State) (c : Nat) (p : Part) (l : PLn) : State :=
  let z := ((s.commanded c p l).setPc c (s.booked c p)).mark p.queue
  { z with sched := { z.sched with flight := z.sched.flight ++ [s.lineInFlight c p l], parts := z.sched.parts.filter fun x => !([p].any (samePart x)) } }

theorem Part.sorted_one (hl : p.lns = [l]) (hc : l.col < 16) : p.sorted = [l] := by
  have hcol : ∀ k, p.lns.filter (fun x => x.col == k) = if l.col = k then [l] else [] := fun k => by simp [hl, List.filter_cons]
  simp only [Part.sorted, hcol]
  interval_cases l.col <;> rfl

/-- The counts and notices of an issue (R132, R135, R138, R148, R171, R175). -/
def State.issueTold (s : State) (c : Nat) (p : Part) (first : Nat) : State :=
  ((s.count (0x4100 + c) 7).count (0x4100 + c) 11).partIssued c p first

/-- The issue of a part of one line: the commands, the counts, and the clocks and the drain that follow (R145, R165). -/
theorem State.issue_one (hl : p.lns = [l]) (hc : l.col < 16) :
    ∃ first, s.issue c [p] = (((s.launched c p l).issueTold c p first).fixV).drainCheck c := by
  have hlns : [p].flatMap (fun x => x.sorted.map fun y => (x, y)) = [(p, l)] := by simp [Part.sorted_one hl hc]
  unfold State.issue
  rw [hlns]
  exact ⟨_, rfl⟩

theorem PcFrame.launched (s : State) (c : Nat) (p : Part) (l : PLn) : PcFrame [.out, .pcs, .queues, .sched] c s (s.launched c p l) := by
  have hcmd : OnlyChanges [.out] s (s.commanded c p l) := ((s.emit_frame _).then (State.emit_frame _ _)).mono (by simp)
  exact ((((PcFrame.refl s).next (.off_pcs hcmd)).next (.setPc _ c _)).next (.off_pcs (State.mark_frame _ p.queue))).next (.off_pcs (State.sched_frame _ _))

theorem State.pc_launched (s : State) (c : Nat) (p : Part) (l : PLn) : (s.launched c p l).pc c = s.booked c p := by
  set z := (s.commanded c p l).setPc c (s.booked c p)
  have hm : (z.mark p.queue).pcs = z.pcs := State.mark_frame _ _ .pcs (by simp)
  rw [show (s.launched c p l).pc c = (z.mark p.queue).pc c from rfl, State.pc, hm]
  exact State.pc_setPc_same _ _ _

theorem State.sched_launched (s : State) (c : Nat) (p : Part) (l : PLn) :
    (s.launched c p l).sched = { s.sched with flight := s.sched.flight ++ [s.lineInFlight c p l],
                                              parts := s.sched.parts.filter fun x => !([p].any (samePart x)) } := by
  have hm : (((s.commanded c p l).setPc c (s.booked c p)).mark p.queue).sched = s.sched := State.mark_frame _ _ .sched (by simp)
  unfold State.launched
  simp only [hm]

theorem Kept.launched (s : State) (c : Nat) (p : Part) (l : PLn) : Kept (s.commanded c p l) (s.launched c p l) :=
  (Kept.refl _).setPc.mark.upd rfl rfl rfl rfl rfl rfl

theorem State.issueTold_frame (s : State) (c : Nat) (p : Part) (first : Nat) :
    OnlyChanges [.ctr, .log, .maint, .out, .ports, .budget] s (s.issueTold c p first) :=
  (((s.count_frame _ _ _).then (State.count_frame _ _ _ _)).then (IssueTold.partIssued _ c p first).1).mono (by simp)

/-- An issue counts one ACT and one column command of its pseudo-channel. -/
theorem State.ctrOf_issueTold (h : s.avail (0x4100 + c) = true) (p : Part) (first : Nat) {x : Nat} (hx : x = 7 ∨ x = 11) :
    (s.issueTold c p first).ctrOf (0x4100 + c) x = (s.ctrOf (0x4100 + c) x + 1) % 2 ^ 48 := by
  have h' : (s.count (0x4100 + c) 7).avail (0x4100 + c) = true := h
  rw [State.issueTold, (IssueTold.partIssued _ c p first).2 _ x (by omega)]
  rcases hx with rfl | rfl
  · rw [State.ctrOf_count_ne (by simp [wkey]), State.ctrOf_count_same h]
  · rw [State.ctrOf_count_same h', State.ctrOf_count_ne (by simp [wkey])]

/-- After an issue the clocks and a write drain follow, and nothing else of what is in flight, waits or counts. -/
theorem State.issue_follows (s : State) (c : Nat) :
    let t := s.fixV.drainCheck c
    t.sched.flight = s.sched.flight ∧ t.sched.parts = s.sched.parts ∧ (∃ b, t.pc c = { s.pc c with drain := b }) ∧ PcFrame [.sched, .pcs] c s t := by
  intro t
  have hdrain : PcFrame [.pcs] c s.fixV t := .drainCheck s.fixV c
  have hsched : t.sched = s.fixV.sched := hdrain.2 .sched (by simp)
  refine ⟨(congrArg Sched.flight hsched :), (congrArg Sched.parts hsched :), ?_, ((PcFrame.refl s).next (.off_pcs (State.sched_frame _ _))).next hdrain⟩
  obtain h | ⟨b, h⟩ := s.fixV.drainCheck_cases c
  · exact ⟨(s.pc c).drain, (congrArg (State.pc · c) h :)⟩
  · exact ⟨b, (congrArg (State.pc · c) h).trans (State.pc_setPc_same _ _ _)⟩

/-- What the issue of a one-line part that stands alone leaves. -/
theorem State.issue_alone (hparts : s.sched.parts = [p]) (hl : p.lns = [l]) (hcol : l.col < 16) (ha : s.avail (0x4100 + c) = true) :
    let t := s.issue c [p]
    (s.commanded c p l).out <+: t.out ∧ t.sched.flight = s.sched.flight ++ [s.lineInFlight c p l] ∧ t.sched.parts = [] ∧
      (∃ b, t.pc c = { s.booked c p with drain := b }) ∧
      (∀ x, x = 7 ∨ x = 11 → t.ctrOf (0x4100 + c) x = (s.ctrOf (0x4100 + c) x + 1) % 2 ^ 48) ∧
      PcFrame [.pcs, .sched, .out, .ctr, .queues, .ports, .budget, .log, .maint] c s t := by
  obtain ⟨first, ht⟩ := State.issue_one (s := s) (c := c) hl hcol
  have hlaunch := PcFrame.launched s c p l
  have htold := (s.launched c p l).issueTold_frame c p first
  obtain ⟨hflight, hleft, ⟨b, hb⟩, hend⟩ := ((s.launched c p l).issueTold c p first).issue_follows c
  have hsched : ((s.launched c p l).issueTold c p first).sched = (s.launched c p l).sched := htold .sched (by simp)
  have hpcs : ((s.launched c p l).issueTold c p first).pcs = (s.launched c p l).pcs := htold .pcs (by simp)
  have havail : (s.launched c p l).avail (0x4100 + c) = true := (State.avail_of_frame hlaunch.2).trans ha
  rw [hsched, State.sched_launched] at hflight hleft
  rw [ht]
  refine ⟨(Kept.launched s c p l).count.count.partIssued.fixV.drainCheck.out, hflight, ?_, ⟨b, ?_⟩, fun x hx => ?_, ?_⟩
  · rw [hleft, hparts]
    simp [samePart]
  · rw [hb, State.pc, hpcs, ← State.pc_launched s c p l]
    rfl
  · calc _ = ((s.launched c p l).issueTold c p first).ctrOf (0x4100 + c) x := congrArg (SMap.getD · _ 0) (hend.2 .ctr (by simp))
      _ = ((s.launched c p l).ctrOf (0x4100 + c) x + 1) % 2 ^ 48 := State.ctrOf_issueTold havail p first hx
      _ = (s.ctrOf (0x4100 + c) x + 1) % 2 ^ 48 := by rw [State.ctrOf, hlaunch.2 .ctr (by simp), State.ctrOf]
  · exact (((PcFrame.refl s).next hlaunch).next (.off_pcs htold)).next hend

theorem accessIssues : Claims.AccessIssues := by
  intro s c p l hserves href hstop hquench hopp hwrites hparts hpc hrel hlns hlcol hgrant hgo hstart horigin col lat
  have halone : s.pcParts c = [p] := State.pcParts_alone hparts hpc hrel
  have hhead : s.head c = some ⟨p, p.cls⟩ := State.head_alone (State.cands_alone halone hgrant hgo (by rwa [hlns]))
  obtain ⟨hout, hflight, hleft, ⟨b, hb⟩, hctr, honly, hframe⟩ :=
    State.issue_alone hparts hlns hlcol (State.avail_of_pcPowered c.isLt (State.pcPowered_of_serves hserves))
  have hx : s.accessNow c = s.issue c [p] := by
    rw [State.accessNow_alone hserves href hstop hquench hopp halone hhead, State.runAccess, State.enginesIssued_other horigin,
      State.seamPump_idle _ ((congrArg Seam.writes (hframe .seam (by simp))).trans hwrites)]
  refine ⟨_, congrArg Host.Outcome.next hx, ?_, hflight, hleft, ?_, ?_, ?_, ?_, hctr 7 (.inl rfl), hctr 11 (.inr rfl), honly, hframe⟩
  · simpa [State.commanded, State.emit] using hout
  · rw [hb]; rfl
  · rw [hb]; exact SMap.getD_set_same _ _ _ _
  · rw [hb]; exact SMap.getD_set_same _ _ _ _
  · rw [hb]; exact List.mem_append_right _ (.head _)

/-- Settles O39: a part alone heads its access and takes no riders, a line that comes back is answered once its decode has counted, one without data as
poison uncounted, and a line written stands alone in the store before its write is answered. -/
theorem stackAccesses : Obligations.StackAccesses := ⟨accessIssues, readDataReturns, readDataAbsent, writeDataDone⟩

end Sys2Proof.Machine

/-!
The memories of a step (R187, R350): canonical form is among what every step keeps, and a line of the stack is written in it.
-/
namespace Sys2Proof.Machine
open Sys2Proof
-- One proof at a time: the check's memory limit counts a stack for each proof that waits for another.
set_option Elab.async false

theorem State.memWf_iff (s : State) : s.memWf = true ↔ SMap.wf 0 s.store.data = true ∧ SMap.wf 0xFF s.nor = true := by
  rw [State.memWf, Bool.and_eq_true, Store.wf, norWf]

theorem Kept.memWf {s t : State} (k : Kept s t) (h : s.memWf = true) : t.memWf = true := by
  rw [State.memWf_iff] at h ⊢
  exact ⟨k.store h.1, k.nor h.2⟩

/-- Settles O4: a step is an idle cycle or one command run with the queue's rest, and each keeps the canonical form of both memories (`Kept`). -/
theorem stepKeepsMemory : Obligations.StepKeepsMemory := fun _ _ hwf h => (Kept.of_step h).memWf hwf

section
variable (m : Store) (l : Nat) (d : Line) (poison : Bool)

theorem Store.line_write_ne {a : Nat} (h : a / 64 ≠ l / 64) : (m.write l d poison).line a = m.line a := by
  refine congrArg lineOfBytes (List.map_congr_left fun i hi => ?_)
  have hi : i < 64 := List.mem_range.mp hi
  exact m.byte_write_ne l d poison (by omega)

theorem Store.wf_write (h : m.wf = true) : (m.write l d poison).wf = true := putBytes_wf _ _ _ h
end

/-- Settles O40: what a write puts in the place of the line's bytes and of its poison, and that it reaches no other line. -/
theorem stackReadsBack : Obligations.StackReadsBack := fun m l d poison =>
  ⟨m.line_write l d poison, m.isPoison_write l d poison,
    fun _ ha => ⟨m.byte_write_ne l d poison ha, m.line_write_ne l d poison ha, m.isPoison_write_ne l d poison ha⟩, m.wf_write l d poison⟩

end Sys2Proof.Machine

/-!
Lines that join from the internal ports P28 and P29 (R128, R152): as parts of their own, behind what waits, in no shaper queue.
-/
namespace Sys2Proof.Machine
open Sys2Proof
-- One proof at a time: the check's memory limit counts a stack for each proof that waits for another.
set_option Elab.async false

variable {s : State} {r : HReq} {o : Origin} {write : Bool} {g : Tag}

/-- What holds of a part whatever its lines holds of every part that lines are gathered into. -/
theorem gather_all {P : Part → Prop} {mk : Place → PLn → Part} (hmk : ∀ pl l, P (mk pl l)) (hl : ∀ p ls, P p → P { p with lns := ls })
    (xs : List (Place × PLn)) : ∀ p ∈ gather mk xs, P p := by
  induction xs with
  | nil => simp [gather]
  | cons x rest ih =>
    obtain ⟨pl, l⟩ := x
    rw [gather]
    split
    · simpa using hmk pl l
    · next p ps hg =>
      rw [hg, List.forall_mem_cons] at ih
      split
      · exact List.forall_mem_cons.mpr ⟨hl p _ ih.1, ih.2⟩
      · exact List.forall_mem_cons.mpr ⟨hmk pl l, List.forall_mem_cons.mpr ih⟩

/-- Gathering lines loses none. -/
theorem length_gather_lns {mk : Place → PLn → Part} (hmk : ∀ pl l, (mk pl l).lns.length = 1) (xs : List (Place × PLn)) :
    ((gather mk xs).flatMap Part.lns).length = xs.length := by
  induction xs with
  | nil => rfl
  | cons x rest ih =>
    obtain ⟨pl, l⟩ := x
    rw [gather]
    split
    · next hg =>
      rw [hg] at ih
      simp [hmk, ← ih]
    · next p ps hg =>
      rw [hg, List.flatMap_cons, List.length_append] at ih
      split
      · simp only [List.flatMap_cons, List.length_append, List.length_cons, ← ih]
        omega
      · simp only [List.flatMap_cons, List.length_append, hmk, List.length_cons, ← ih]
        omega

/-- An internal part joins as it is (R151, R152). -/
theorem State.addPart_internal {p : Part} (h : p.internal = true) : s.addPart p = { s with sched := { s.sched with parts := s.sched.parts ++ [p] } } := by
  have hn : s.partOf p = none := List.find?_eq_none.mpr fun x _ => by simp [h]
  rw [State.addPart, hn]

theorem State.addParts_internal {ps : List Part} (h : ∀ p ∈ ps, p.internal = true) :
    ps.foldl State.addPart s = { s with sched := { s.sched with parts := s.sched.parts ++ ps } } := by
  induction ps generalizing s with
  | nil => rw [List.foldl_nil, List.append_nil]
  | cons p rest ih =>
    rw [List.forall_mem_cons] at h
    rw [List.foldl_cons, State.addPart_internal h.1, ih h.2]
    simp only [List.append_assoc, List.cons_append, List.nil_append]

/-- The part that one line forms at its place (R151). -/
def State.linePart (s : State) (r : HReq) (o : Origin) (write : Bool) (g : Tag) (pl : Place) (l : PLn) : Part :=
  s.newPart r o write g pl [{ l with no := o.txn }]

/-- The parts that lines of an internal port form (R151). -/
def State.lineParts (s : State) (r : HReq) (o : Origin) (write : Bool) (g : Tag) (ls : List PLn) : List Part :=
  gather (s.linePart r o write g) (ls.map fun l => (s.map.place l.addr, l))

theorem State.length_lineParts (ls : List PLn) : ((s.lineParts r o write g ls).flatMap Part.lns).length = ls.length := by
  rw [State.lineParts, length_gather_lns (fun _ _ => rfl), List.length_map]

/-- The parts of lines carry what the lines' request and their work say. -/
theorem State.lineParts_carry (ls : List PLn) : ∀ p ∈ s.lineParts r o write g ls,
    p.origin = o ∧ p.req = r ∧ p.write = write ∧ p.calm = r.cls ∧ p.rel = none :=
  gather_all (P := fun p => p.origin = o ∧ p.req = r ∧ p.write = write ∧ p.calm = r.cls ∧ p.rel = none) (fun _ _ => ⟨rfl, rfl, rfl, rfl, rfl⟩)
    (fun _ _ h => h) _

/-- Lines of an internal port join behind what waits, and the clocks follow (R145, R152). -/
theorem State.joinAs_internal (hi : internalPort r.port = true) (hq : 1024 ≤ g.queue) (ls : List PLn) :
    s.joinAs r o write g ls =
      ({ s with sched := { s.sched with seq := s.sched.seq + 1, parts := s.sched.parts ++ s.lineParts r o write g ls } } : State).fixV := by
  have hint : ∀ p ∈ s.lineParts r o write g ls, p.internal = true := fun p hp => by
    obtain ⟨-, hr, -⟩ := State.lineParts_carry ls p hp
    rw [Part.internal, hr, hi]
  unfold State.joinAs
  simp only [State.mark_unshaped hq]
  exact congrArg State.fixV (State.addParts_internal hint)

theorem State.parts_joinAs_internal (hi : internalPort r.port = true) (hq : 1024 ≤ g.queue) (ls : List PLn) :
    (s.joinAs r o write g ls).sched.parts = s.sched.parts ++ s.lineParts r o write g ls := by
  rw [State.joinAs_internal hi hq]
  rfl

theorem State.joinAs_internal_frame (hi : internalPort r.port = true) (hq : 1024 ≤ g.queue) (ls : List PLn) :
    OnlyChanges [.sched] s (s.joinAs r o write g ls) := by
  rw [State.joinAs_internal hi hq]
  exact State.sched_frame s _

end Sys2Proof.Machine

/-!
Pickle (R189, R190, R193): a step of a pseudo-channel's debt with the group it brings, and the end of a pass.
-/
namespace Sys2Proof.Machine
open Sys2Proof
-- One proof at a time: the check's memory limit counts a stack for each proof that waits for another.
set_option Elab.async false

variable {s : State} {c : Nat}

/-- A group of four lines of Pickle's joins as reads (R152, R189). -/
theorem State.groupJoin_joins (s : State) (pl : Place) (o : Origin) :
    (∃ ps : List Part, (s.groupJoin pl o).sched.parts = s.sched.parts ++ ps ∧ (ps.flatMap Part.lns).length = 4 ∧
      ∀ p ∈ ps, p.origin = o ∧ p.write = false ∧ p.calm = .bh ∧ p.rel = none) ∧ OnlyChanges [.sched] s (s.groupJoin pl o) := by
  refine ⟨⟨_, State.parts_joinAs_internal rfl (Nat.le_refl _) _, ?_, fun p hp => ?_⟩, State.joinAs_internal_frame rfl (Nat.le_refl _) _⟩
  · exact (State.length_lineParts _).trans (by simp)
  · obtain ⟨ho, -, hw, hc, hr⟩ := State.lineParts_carry _ p hp
    exact ⟨ho, hw, hc, hr⟩

/-- With no bank retired the walk passes over nothing (R189). -/
theorem State.walkSkip_none (h : (s.pc c).rbanks = []) (fuel k : Nat) : s.walkSkip c fuel k = k := by
  have hall : (List.range 16).all (fun _ => false) = false := rfl
  cases fuel with
  | zero => rfl
  | succ fuel => simp only [State.walkSkip, h, List.contains_nil, hall, Bool.false_eq_true, if_false, ite_self]

/-- While a group of the walk waits for its read no other joins (R152). -/
theorem State.walkFeed_waits (h : ∃ p ∈ s.sched.parts, p.pc = c ∧ p.origin = .pickleWalk) : s.walkFeed c = s := by
  obtain ⟨p, hp, hc, ho⟩ := h
  have hany : s.sched.parts.any (fun p => p.pc == c && p.origin == .pickleWalk) = true := List.any_eq_true.mpr ⟨p, hp, by simp [hc, ho]⟩
  rw [State.walkFeed, hany, Bool.or_true, if_pos rfl]

/-- The next group joins at the walk's position (R189, R190). -/
theorem State.walkFeed_joins (hdue : s.walkDue c = true) (h : ∀ p ∈ s.sched.parts, p.pc ≠ c ∨ p.origin ≠ .pickleWalk) (hb : (s.pc c).rbanks = [])
    (hk : (s.pc c).pkPos < s.walkEnd) :
    s.walkFeed c = (s.setPc c (s.pc c)).groupJoin (s.walkPlace c (s.pc c).pkPos) .pickleWalk := by
  have hany : s.sched.parts.any (fun p => p.pc == c && p.origin == .pickleWalk) = false := List.any_eq_false.mpr fun p hp => by
    simpa [imp_iff_not_or] using h p hp
  unfold State.walkFeed
  simp only [hdue, hany, Bool.not_true, Bool.or_self, Bool.false_eq_true, if_false, State.walkSkip_none hb]
  rw [if_neg (Nat.not_le.mpr hk)]

/-- The pseudo-channel after the next step of its debt (R190). -/
def PcSt.stepped (q : PcSt) : PcSt := { q with pkStep := q.pkStep + 1, pkDebt := min (q.pkDebt + 1) 255 }

/-- A step that has come, of a walk that runs. -/
theorem exec_pickleDebtStep {c : Pc} (hi : s.seam.interval ≠ 0) (hs : (s.pc c).pkStep < (s.frame - s.seam.stepBase.toNat) / s.seam.interval)
    (hp : s.seam.passOn = true) (he : bit (s.reg 0x4800 2) 15 = true) (hd : (s.pc c).pkDone = false) (hr : (s.pc c).retired = false) :
    exec (.pickleDebtStep c) s = .next ((s.setPc c (s.pc c).stepped).walkFeed c) := by
  have hheld : ¬ ((s.pc c).pkDone || (s.pc c).retired || !s.seam.passOn || !bit (s.reg 0x4800 2) 15) = true := by simp [hd, hr, hp, he]
  refine congrArg Host.Outcome.next ((if_neg (not_or.mpr ⟨hi, Nat.not_le.mpr hs⟩)).trans ?_)
  exact congrArg (fun n => (s.setPc c { s.pc c with pkStep := (s.pc c).pkStep + 1, pkDebt := n }).walkFeed c) (if_neg hheld)

theorem pickleDebtSteps : Claims.PickleDebtSteps := by
  intro s c hi hstep hpass henabled hdone hretired stepped
  have hx := exec_pickleDebtStep hi hstep hpass henabled hdone hretired
  have hset : PcFrame [.pcs] c.val s (s.setPc c (s.pc c).stepped) := .setPc s c _
  have hpc : (s.setPc c (s.pc c).stepped).pc c = (s.pc c).stepped := State.pc_setPc_same _ _ _
  set z := s.setPc c (s.pc c).stepped
  refine ⟨fun hwait => ?_, fun hnone hbanks hpos => ?_⟩
  · rw [State.walkFeed_waits (s := z) hwait] at hx
    exact ⟨z, hx, ⟨by rw [hpc]; rfl, by rw [hpc]; rfl, by rw [hpc]; rfl, hset.1⟩, hset.2⟩
  · have hdue : z.walkDue c = true := by
      have hreg : z.reg 0x4800 2 = s.reg 0x4800 2 := State.reg_of_frame hset.2 (by simp) (by simp) _ _
      have hon : z.seam.passOn = true := hpass
      simp [State.walkDue, hpc, hreg, hon, henabled, PcSt.stepped, hdone, hretired]
    rw [State.walkFeed_joins hdue hnone (by rw [hpc]; exact hbanks) (by rw [hpc]; exact hpos)] at hx
    have hsame : PcFrame [.pcs] c.val z (z.setPc c (z.pc c)) := .setPc z c _
    have hpcs : (z.setPc c (z.pc c)).pc c = (s.pc c).stepped := (State.pc_setPc_same _ _ _).trans hpc
    obtain ⟨hjoin, hframe⟩ := (z.setPc c (z.pc c)).groupJoin_joins (z.walkPlace c (z.pc c).pkPos) .pickleWalk
    have hall : PcFrame [.pcs, .sched] c.val s _ := (((PcFrame.refl s).next hset).next hsame).next (.off_pcs hframe)
    have hend : (State.pc _ c) = (s.pc c).stepped := (congrArg (SMap.getD · c.val ({} : PcSt)) (hframe .pcs (by simp) : _ = _)).trans hpcs
    exact ⟨_, hx, ⟨by rw [hend]; rfl, by rw [hend]; rfl, by rw [hend]; rfl, hall.1⟩, hjoin, hall.2⟩

/-- The counts of a pass begin anew (R193, R304). -/
def PcSt.passEnded (q : PcSt) : PcSt := { q with laneCnt := [], rowBad := [] }

/-- The state once a pass is counted, before its event (R189). -/
def State.passEnded (s : State) : State :=
  { s with seam := { s.seam with passOn := false, passCount := sat32 (s.seam.passCount + 1) }, pcs := s.pcs.mapVals fun _ q => q.passEnded }

theorem State.pc_passEnded (s : State) (c : Nat) : s.passEnded.pc c = (s.pc c).passEnded := SMap.getD_mapVals (f := fun _ => PcSt.passEnded) rfl s.pcs

theorem State.passEnded_frame (s : State) : OnlyChanges [.seam, .pcs] s s.passEnded :=
  Fr.only (M := 2 ^ 22 + 2 ^ 20) (Fr.upd (Fr.refl s) rfl) (by decide)

/-- Every pseudo-channel in service has walked the pass (R189). -/
theorem State.walked (h : ∀ c, c < 64 → (s.pc c).retired = true ∨ (s.pc c).pkDone = true) : s.walking.all (fun c => (s.pc c).pkDone) = true := by
  refine List.all_eq_true.mpr fun c hc => ?_
  obtain ⟨hc, hserves⟩ := List.mem_filter.mp hc
  exact (h c (List.mem_range.mp hc)).resolve_left (by simpa using hserves)

theorem picklePassEnds : Claims.PicklePassEnds := by
  intro s hon hwalked h1 h10
  have hx : exec .picklePassEnd s = .next (s.passEnded.log1 0x0805 (wordsOf 2 (sat32 (s.seam.passCount + 1)))) := by
    refine congrArg Host.Outcome.next (if_neg ?_)
    simp [h10, hon, State.walked hwalked]
  have hlog := s.passEnded.log1_frame 0x0805 (wordsOf 2 (sat32 (s.seam.passCount + 1)))
  have hlogs : LogsOne s.passEnded _ 0x0805 (wordsOf 2 (sat32 (s.seam.passCount + 1))) := State.log1_logs h1
  refine ⟨_, hx, hlog .seam (by simp), fun c => ?_, hlogs, (s.passEnded_frame.then hlog).mono (by simp)⟩
  rw [State.pc, hlog .pcs (by simp), ← State.pc, State.pc_passEnded]
  exact ⟨rfl, rfl, rfl, rfl⟩

/-- Settles O41: a step of the debt is one pseudo-channel's, with at most the group that joins, and the end of a pass begins every count anew. -/
theorem picklePasses : Obligations.PicklePasses := ⟨pickleDebtSteps, picklePassEnds⟩

end Sys2Proof.Machine

/-!
Seam writes one by one (R195, R196): what each operation does to the one write under way, and when the Seam engine has nothing to start.
-/
namespace Sys2Proof.Machine
open Sys2Proof
-- One proof at a time: the check's memory limit counts a stack for each proof that waits for another.
set_option Elab.async false

variable {s : State} {w v : SeamWr} {c : Nat}

theorem State.seam_frame (s : State) (v : Seam) : OnlyChanges [.seam] s { s with seam := v } :=
  Fr.only (M := 2 ^ 22) (Fr.upd (Fr.refl s) rfl) (by decide)

/-- The state with other Seam writes under way. -/
def State.withWrites (s : State) (ws : List SeamWr) : State := { s with seam := { s.seam with writes := ws } }

theorem State.withWrites_frame (s : State) (ws : List SeamWr) : OnlyChanges [.seam] s (s.withWrites ws) := s.seam_frame _

@[simp] theorem State.withWrites_withWrites (s : State) (ws vs : List SeamWr) : (s.withWrites ws).withWrites vs = s.withWrites vs := rfl

/-- The one Seam write under way changes. -/
theorem State.setSeam_one (h : s.seam.writes = [w]) (hn : w.no = v.no) (hl : w.line = v.line) : s.setSeam v = s.withWrites [v] := by
  simp [State.setSeam, State.withWrites, h, hn, hl]

/-- The one Seam write under way is found by its number and line. -/
theorem State.seamBy_one (h : s.seam.writes = [w]) : s.seamBy w.no w.line = some w := by
  simp [State.seamBy, h]

/-- The first half of a turn of the Seam engine: the lines that are to be poisoned join, for which there may be room now (R17, R195). -/
def State.poisonDue (s : State) (c : Nat) : State :=
  (s.seam.writes.filter fun w => w.again.isSome && w.started && (s.map.place w.line).pc == c).foldl State.poisonAgain s

/-- The second half, part by part: the Seam engine takes a write part that may start (R195, R196). -/
def State.pumpPart (z : State) (p : Part) : State :=
  match p.origin.seamNo with
  | some no => if z.seamCan p no then z.seamStart p no else z
  | none => z

theorem State.seamPump_eq (s : State) (c : Nat) : s.seamPump c = ((s.poisonDue c).pcParts c).foldl State.pumpPart (s.poisonDue c) := by
  unfold State.seamPump
  refine List.foldl_ext _ _ _ fun z p _ => ?_
  unfold State.pumpPart
  cases p.origin <;> rfl

theorem State.poisonDue_none (h : ∀ w ∈ s.seam.writes, w.again = none) : s.poisonDue c = s := by
  rw [State.poisonDue, List.filter_eq_nil_iff.mpr fun w hw => by simp [h w hw], List.foldl_nil]

/-- The Seam engine starts nothing where no part is released. -/
theorem State.seamPump_unreleased (c : Nat) (h : ∀ w ∈ s.seam.writes, w.again = none) (hp : ∀ p ∈ s.sched.parts, p.rel = none) :
    s.seamPump c = s := by
  have hnone : s.pcParts c = [] := List.filter_eq_nil_iff.mpr fun p hm => by simp [hp p hm]
  rw [State.seamPump_eq, State.poisonDue_none h, hnone, List.foldl_nil]

/-- A part of lines whose writes have all started is not taken again (R196). -/
theorem State.pumpPart_started (h : ∀ w ∈ s.seam.writes, w.started = true) (p : Part) : s.pumpPart p = s := by
  have hempty : ∀ no, s.seamCan p no = true → p.lns = [] := fun no hc => List.eq_nil_iff_forall_not_mem.mpr fun x hx => by
    have hx := List.all_eq_true.mp (Bool.and_eq_true_iff.mp hc).2 x hx
    split at hx
    · next w hw => simp [h w (List.mem_of_find?_eq_some hw)] at hx
    · exact absurd hx Bool.false_ne_true
  unfold State.pumpPart
  split
  · split
    · next hc => simp [State.seamStart, hempty _ hc]
    · rfl
  · rfl

/-- The Seam engine finds nothing to start where every write under way has started and none is to be poisoned (R195, R196). -/
theorem State.seamPump_started (c : Nat) (h : ∀ w ∈ s.seam.writes, w.started = true ∧ w.again = none) : s.seamPump c = s := by
  rw [State.seamPump_eq, State.poisonDue_none fun w hw => (h w hw).2]
  exact List.foldl_fixed' (State.pumpPart_started fun w hw => (h w hw).1) _

/-- The new line of a Seam write in its write part (R195). -/
theorem State.setNew_frame (s : State) (no a : Nat) (d : PLine) : OnlyChanges [.sched] s (s.setNew no a d) := s.sched_frame _

/-- The new parity line of the one Seam write under way is known (R195 step 4). -/
theorem State.parityNew_one (h : s.seam.writes = [w]) (hn : w.no = v.no) (hl : w.line = v.line) (p : PLine) :
    s.parityNew v p = (s.withWrites [{ v with new := p, old := some none }]).setNew v.no v.line p :=
  congrArg (fun z : State => z.setNew v.no v.line p) (State.setSeam_one h hn hl)

theorem State.parityNew_one_frame (h : s.seam.writes = [w]) (hn : w.no = v.no) (hl : w.line = v.line) (p : PLine) :
    OnlyChanges [.seam, .sched] s (s.parityNew v p) ∧ (s.parityNew v p).seam = { s.seam with writes := [{ v with new := p, old := some none }] } ∧
      (s.parityNew v p).sched.flight = s.sched.flight := by
  rw [State.parityNew_one h hn hl]
  exact ⟨((s.withWrites_frame _).then (State.setNew_frame _ _ _ _)).mono (by simp), rfl, rfl⟩

end Sys2Proof.Machine

/-!
A Seam update at the parity or mirror tile (R195 steps 4 and 5, R196, R197, R200).
-/
namespace Sys2Proof.Machine
open Sys2Proof
-- One proof at a time: the check's memory limit counts a stack for each proof that waits for another.
set_option Elab.async false

variable {s : State} {u : SeamUpd}

/-- A part of no shaper queue joins without a mark (R147, R152). -/
theorem State.joined_unshaped_frame {p : Part} (h : 1024 ≤ p.queue) : OnlyChanges [.sched] s (s.joined p) := by
  rw [State.joined, State.mark_unshaped h]
  exact s.sched_frame _

/-- An update with a number gives nothing back (R323). -/
theorem State.giveBack_numbered (h : u.no ≠ 0) : s.giveBack u = s := if_neg fun e => h e.1

/-- The Seam write that an update becomes, under number `no`. -/
def SeamUpd.write (u : SeamUpd) (no : Nat) : SeamWr :=
  { no := no, line := u.line, kind := .parity u, o := .req, req := u.req, idx := 0, new := ⟨u.whole.getD 0, u.newPoison⟩, acked := true }

/-- The tags that an update carries (R195); its part stands in no shaper queue. -/
def State.updTag (s : State) (u : SeamUpd) : Tag := { queue := 1024, k := clockOf (s.joinCls u.req), start := u.start, finish := u.finish }

/-- The line that an update writes, before what is to be written is known. -/
def State.updLine (s : State) (u : SeamUpd) : PLn :=
  { col := (s.map.place u.line).col, addr := u.line, idx := 0, d := ⟨u.whole.getD 0, u.newPoison⟩ }

/-- The write part of an update (R195). -/
def State.updPart (s : State) (u : SeamUpd) : Part :=
  s.newPart u.req (.seamNew (s.sched.seq + 1)) true (s.updTag u) (s.map.place u.line) [s.updLine u]

section
variable (hno : u.no ≠ 0)
include hno

/-- A line that stands rebuilt, or whose unit is retired, has nothing to update. -/
theorem State.takeUpdate_nothing (h : (s.rebuiltAt u.line).isSome = true ∨ s.ownRetired (s.map.place u.line) = true) :
    s.takeUpdate u = s.ring (.seamAck u.home u.line u.no true) := by
  unfold State.takeUpdate
  simp only [State.giveBack_numbered hno]
  exact if_pos (Bool.or_eq_true_iff.mpr h)

variable (hreb : s.rebuiltAt u.line = none) (hret : s.ownRetired (s.map.place u.line) = false)
include hreb hret

/-- In the row that is being rebuilt, and while the Seam engine's domain is down, an update waits. -/
theorem State.takeUpdate_waits (h : s.inRebuild u.line = true ∨ s.dom 11 = false) :
    s.takeUpdate u = { s with seam := { s.seam with updates := s.seam.updates ++ [u] } } := by
  unfold State.takeUpdate
  simp only [State.giveBack_numbered hno, hreb, hret, Option.isSome_none, Bool.or_self, Bool.false_eq_true, if_false]
  exact if_pos (by simpa using h)

variable (hbuild : s.inRebuild u.line = false) (hdom : s.dom 11 = true) (hw : s.seam.writes = []) (hp : s.sched.parts = [])
include hbuild hdom hw hp

/-- Else an update becomes a Seam write of its own, the only one under way, and its part waits to be released. -/
theorem State.takeUpdate_takes : s.takeUpdate u = (s.joined (s.updPart u)).withWrites [u.write (s.sched.seq + 1)] := by
  have hno' : s.seamPartNo u.req [s.updLine u] = none := by simp [State.seamPartNo, hp]
  have hjoin : s.joinAs u.req (.seamNew (s.sched.seq + 1)) true (s.updTag u) [s.updLine u] = s.joined (s.updPart u) :=
    State.joinAs_onePlace (by simp) (by simp [State.updLine]) (by simp [State.updLine, Origin.txn]) (by simp [hp])
  have hwrite : s.seamWriteAs (s.updTag u) u.req .req (.parity u) false [s.updLine u] =
      (s.joined (s.updPart u)).withWrites [u.write (s.sched.seq + 1)] := by
    have hnone : (s.joined (s.updPart u)).seam.writes = [] := (congrArg Seam.writes (s.joined_frame _ .seam (by simp))).trans hw
    unfold State.seamWriteAs
    simp only [hno', Option.getD_none, hjoin, hnone]
    rfl
  have hrel : ∀ p ∈ (s.joined (s.updPart u)).sched.parts, p.rel = none := by
    rw [State.parts_joined, hp]
    exact List.forall_mem_singleton.mpr rfl
  rw [← State.seamPump_unreleased (s := (s.joined (s.updPart u)).withWrites [u.write (s.sched.seq + 1)]) (s.map.place u.line).pc
    (List.forall_mem_singleton.mpr rfl) hrel, ← hwrite]
  unfold State.takeUpdate
  simp only [State.giveBack_numbered hno, hreb, hret, hbuild, hdom, Option.isSome_none, Bool.not_true, Bool.or_self, Bool.false_eq_true, if_false]
  rfl
end

theorem seamUpdated : Claims.SeamUpdated := by
  intro s home u whole hw hp hno v
  refine ⟨fun hnothing => ?_, fun hreb hret hwait => ?_, fun hreb hret hbuild hdom => ?_⟩
  · exact ⟨_, congrArg Host.Outcome.next (State.takeUpdate_nothing (u := v) hno hnothing), rfl, s.emit_frame _⟩
  · exact ⟨_, congrArg Host.Outcome.next (State.takeUpdate_waits (u := v) hno hreb hret hwait), rfl, s.seam_frame _⟩
  · have hx := State.takeUpdate_takes (u := v) hno hreb hret hbuild hdom hw hp
    have hframe := State.joined_unshaped_frame (s := s) (p := s.updPart v) (Nat.le_refl 1024)
    refine ⟨_, congrArg Host.Outcome.next hx,
      ⟨s.updPart v, v.write (s.sched.seq + 1), ?_, ?_, rfl, rfl, rfl, rfl, rfl, rfl, rfl, rfl, rfl, rfl, rfl, rfl, rfl⟩,
      (hframe.then (State.withWrites_frame _ _)).mono (by simp)⟩
    · exact (s.parts_joined _).trans (by rw [hp, List.nil_append])
    · exact congrArg (fun q : Seam => { q with writes := [v.write (s.sched.seq + 1)] }) (hframe .seam (by simp))

end Sys2Proof.Machine

/-!
The parity line of a Seam update (R195 step 4): what is formed once the old one is read, or once the lines of its row are.
-/
namespace Sys2Proof.Machine
open Sys2Proof
-- One proof at a time: the check's memory limit counts a stack for each proof that waits for another.
set_option Elab.async false

variable {s : State} {c : Nat} {f : Flight} {rest : List Flight} {errs : List (Nat × Word)} {d : Decode1} {w : SeamWr} {u : SeamUpd}

/-! ### A line that an engine of the block has read -/

section
variable (hfl : s.sched.flight = f :: rest) (hpc : f.pc = c) (hw : f.write = false) (ho : f.origin.port = false)
  (hd : s.decodeAt c f.ln.addr errs = d)
include hfl hpc hw ho hd

/-- A line that no port reads is counted as it decoded and used (R183, R193). -/
theorem State.readArrives_engine :
    s.readArrives c errs =
      ((((s.readDue c f rest none).countDecode c f.ln.addr d.res).countLane c d).countRow ⟨c, f.bank, f.row, f.ln.col⟩ d.res).useDecode f d := by
  unfold State.readArrives
  rw [State.nextFlight_first hfl hpc]
  simp only [hw, hd, ho, Bool.false_eq_true, if_false, Bool.false_and]
  rfl

theorem State.readArrives_engine_good (hr : d.res = .good) : s.readArrives c errs = (s.readDue c f rest none).useDecode f d := by
  rw [State.readArrives_engine hfl hpc hw ho hd, hr, State.countDecode_good, State.countLane_good hr, State.countRow_decoded (by decide) (by decide)]

/-- A line that does not decode is counted and logged before it is used, and counts for its row, below the row's limit. -/
theorem State.readArrives_engine_uncorrectable (hr : d.res = .uncorrectable)
    (hn : popCount (BitVec.ofNat 16 ((s.pc c).rowBad.getD (65536 * f.bank + f.row) 0 + 2 ^ f.ln.col)) ≠ (s.reg 0x7800 5).toNat) :
    ∃ z, OnlyChanges [.sched, .clk, .pcs, .ctr, .log, .maint, .out] s z ∧ z.sched.flight = rest ∧ s.readArrives c errs = z.useDecode f d := by
  have hread := (PcFrame.readDue s c f rest none).2.then (State.count_frame _ 0x4801 5 1)
  have hlog := hread.then ((s.readDue c f rest none).countDecode_uncorrectable c f.ln.addr)
  have hbad : (((s.readDue c f rest none).countDecode c f.ln.addr .uncorrectable).pc c).rowBad = (s.pc c).rowBad := by
    have hpcs : _ = ((s.readDue c f rest none).count 0x4801 5).pcs := (s.readDue c f rest none).countDecode_uncorrectable c f.ln.addr .pcs (by simp)
    rw [State.pc, hpcs]
    exact s.rowBad_readDue c f rest none
  have hflight : ((s.readDue c f rest none).countDecode c f.ln.addr .uncorrectable).sched.flight = rest :=
    congrArg Sched.flight ((s.readDue c f rest none).countDecode_uncorrectable c f.ln.addr .sched (by simp))
  set y := (s.readDue c f rest none).countDecode c f.ln.addr .uncorrectable
  have hrow : PcFrame [.pcs] c y (y.countRow ⟨c, f.bank, f.row, f.ln.col⟩ .uncorrectable) := .countRow _ (by rwa [hbad, State.reg_of_frame hlog])
  refine ⟨_, (hlog.then hrow.2).mono (by simp), (congrArg Sched.flight (hrow.2 .sched (by simp))).trans hflight, ?_⟩
  rw [State.readArrives_engine hfl hpc hw ho hd, hr, State.countLane_uncorrectable hr]
end

/-! ### The new parity line -/

/-- What the parity tile does once the parity line of the one update under way is read. -/
theorem State.seamOldRead_parity (h : s.seam.writes = [w]) (hk : w.kind = .parity u) (old : Member) :
    s.seamOldRead w.no w.line old = if asksRow s.n old u then s.askUpdate w old u else s.parityNew w (newParity old u []) := by
  unfold State.seamOldRead
  simp only [State.seamBy_one h, hk]

/-- A parity line that decodes as good takes Δ, and its poison is the new line's. -/
theorem newParity_good (hu : u.whole = none) (x : Line) : newParity ⟨x, .good⟩ u [] = ⟨x ^^^ u.delta, u.newPoison⟩ := by
  have hb : Member.broken ⟨x, .good⟩ = false := rfl
  simp only [newParity, hu, hb, Bool.false_eq_true, if_false]
  cases u.newPoison <;> cases u.oldPoison <;> rfl

/-- A parity line that does not decode is made anew from the row (log entry 72). -/
theorem newParity_broken {m : Member} (hu : u.whole = none) (hb : m.broken = true) (ms : List Member) :
    newParity m u ms = ⟨xorMembers ms, u.newPoison || ms.any fun x => x.res == .poisoned || x.broken⟩ := by
  have hany : (ms.any fun x => x.res == .poisoned || x.broken) = (ms.any (fun x => x.res == .poisoned) || ms.any Member.broken) := by
    induction ms with
    | nil => rfl
    | cons x r ih => simp only [List.any_cons, ih, Bool.or_assoc, Bool.or_left_comm]
  simp only [newParity, hu, hb, if_true, hany, Bool.or_assoc]

/-- An update whose Δ is known asks for its row where the parity line does not decode, and not where it decodes as good. -/
theorem asksRow_good (n : Nat) (hu : u.whole = none) (x : Line) : asksRow n ⟨x, .good⟩ u = false := by
  have hb : Member.broken ⟨x, .good⟩ = false := rfl
  have hg : (Decoded.good == Decoded.poisoned) = false := by decide
  simp [asksRow, hu, hb, hg]

theorem asksRow_broken {n : Nat} {m : Member} (hn : 2 < n) (hb : m.broken = true) : asksRow n m u = true := by
  simp [asksRow, hb, Nat.ne_of_gt hn]

/-- Every other tile of the row is asked for its line. -/
theorem State.askUpdate_broken (h : s.seam.writes = [w]) {m : Member} (hu : u.whole = none) (hb : m.broken = true) :
    s.askUpdate w m u = (s.withWrites [{ w with par := some m }]).ring (.memberRead w.line ((List.range s.n).filter fun v => v != s.t)) := by
  unfold State.askUpdate State.askRow
  rw [State.setSeam_one (v := { w with par := some m }) h rfl rfl]
  simp [hu, hb, State.withWrites, State.n, State.t]

/-- The lines of the row have come for the one update that asked for them. -/
theorem State.reconstruct_update (hr : s.seam.recons = []) (h : s.seam.writes = [w]) (hk : w.kind = .parity u) {m : Member} (hp : w.par = some m)
    (hs : w.started = true) (ho : w.old = none) (ms : List Member) (par : Member) :
    s.reconstruct w.line ms par = s.parityNew w (newParity m u ms) := by
  unfold State.reconstruct
  simp [hr, takeFirst, h, hp, hs, ho, hk]

theorem parityLineFormed : Claims.ParityLineFormed := by
  intro s c errs f w u hfl hn hpc hw ho hws hline hk hu d
  have hport : f.origin.port = false := by rw [ho]; rfl
  have huse : ∀ z : State, z.useDecode f d = z.seamOldRead w.no w.line ⟨d.data, d.res⟩ := fun z => by simp only [State.useDecode, ho, hline]
  refine ⟨fun hr => ?_, fun hr hrow => ?_, fun m ms hp hm hs hold hagain hrec => ?_⟩
  · have hread := (PcFrame.readDue s c f [] none).2
    have hx := State.readArrives_engine_good hfl hpc hw hport rfl hr
    rw [huse, State.seamOldRead_parity (s := s.readDue c f [] none) hws hk, hr, asksRow_good _ hu, if_neg Bool.false_ne_true, newParity_good hu] at hx
    obtain ⟨hframe, hseam, hflight⟩ := State.parityNew_one_frame (s := s.readDue c f [] none) (v := w) hws rfl rfl ⟨d.data ^^^ u.delta, u.newPoison⟩
    have hall := (hread.then hframe).mono (m := [.sched, .clk, .pcs, .seam]) (by simp)
    exact ⟨_, congrArg Host.Outcome.next hx, congrArg Seam.writes hseam, hflight, hall .out (by simp), hall .store (by simp), hall⟩
  · obtain ⟨z, hz, hflight, hx⟩ := State.readArrives_engine_uncorrectable hfl hpc hw hport rfl hr hrow
    have hzw : z.seam.writes = [w] := (congrArg Seam.writes (hz .seam (by simp))).trans hws
    have hident : z.ident = s.ident := hz .ident (by simp)
    have hzn : z.n = s.n := congrArg Ident.n hident
    have hzt : z.t = s.t := congrArg Ident.t hident
    have hb : Member.broken ⟨d.data, .uncorrectable⟩ = true := rfl
    rw [huse, State.seamOldRead_parity hzw hk, hr, asksRow_broken (by rwa [hzn]) hb, if_pos rfl, State.askUpdate_broken hzw hu hb, hzn, hzt] at hx
    exact ⟨_, congrArg Host.Outcome.next hx, rfl, List.mem_append_right _ (.head _), hflight, hz .store (by simp),
      ((hz.then (z.withWrites_frame _)).then (State.emit_frame _ _)).mono (by simp)⟩
  · have hb : m.broken = true := by rw [Member.broken, hm]; rfl
    obtain ⟨hframe, hseam, hflight⟩ := State.parityNew_one_frame (v := w) hws rfl rfl (newParity m u ms)
    have hpump := State.seamPump_started (s := s.parityNew w (newParity m u ms)) (s.map.place w.line).pc
      (by rw [hseam]; exact List.forall_mem_singleton.mpr ⟨hs, hagain⟩)
    rw [← State.reconstruct_update hrec hws hk hp hs hold ms m] at hpump
    refine ⟨_, congrArg Host.Outcome.next hpump, ?_⟩
    rw [State.reconstruct_update hrec hws hk hp hs hold ms m]
    exact ⟨(congrArg Seam.writes hseam).trans (by rw [newParity_broken hu hb]), hframe .store (by simp), hframe.mono (by simp)⟩

end Sys2Proof.Machine

/-!
The end of a Seam write (R17, R109, R195 steps 5 and 6): at the parity tile as its line is written, at the home as its line is written and its update
acknowledged, and the line that is poisoned because its update failed.
-/
namespace Sys2Proof.Machine
open Sys2Proof
-- One proof at a time: the check's memory limit counts a stack for each proof that waits for another.
set_option Elab.async false

variable {s : State} {w v : SeamWr} {u : SeamUpd} {p : Part} {c : Nat}

/-! ### The one write under way ends -/

/-- A Seam write whose line is to be poisoned, as the parity or mirror failed (R17). -/
def SeamWr.poisoned (w : SeamWr) : SeamWr := { w with again := some 2, started := true }

theorem State.endSeam_open (h : (v.written && v.acked) = false) (cause : Nat) : s.endSeam v cause = s := by
  rw [State.endSeam, h]
  rfl

section
variable (h : s.seam.writes = [w]) (hn : w.no = v.no) (hl : w.line = v.line) (hw : v.written = true) (ha : v.acked = true)
include h hn hl hw ha

/-- A write whose line and update are done, and whose line need not be poisoned, closes, and what it was for learns of it. -/
theorem State.endSeam_closes (hk : v.kind = .data → v.failed = false) (cause : Nat) :
    s.endSeam v cause = ((s.withWrites []).seamDone v (if v.failed then cause else 0)).seamPump (s.map.place v.line).pc := by
  have hclose : ({ s with seam := { s.seam with writes := s.seam.writes.filter fun x => !(x.no == v.no && x.line == v.line) } } : State) = s.withWrites [] := by
    simp [State.withWrites, h, hn, hl]
  unfold State.endSeam
  simp only [hw, ha, hclose, Bool.and_self, Bool.not_true, Bool.false_eq_true, if_false]
  split
  · next hd hf => exact absurd ((hk hd).symm.trans hf) Bool.false_ne_true
  · rfl

/-- A line written whose update failed is to be poisoned (R17, R109). -/
theorem State.endSeam_poisons (hk : v.kind = .data) (hf : v.failed = true) (hg : v.again = none) :
    s.endSeam v 2 = (s.withWrites [v.poisoned]).seamPump (s.map.place v.line).pc := by
  have hdone : ¬ (!(v.written && v.acked)) = true := by simp [hw, ha]
  have hset := State.setSeam_one (v := v.poisoned) h hn hl
  unfold State.endSeam
  simp only [if_neg hdone]
  split
  · exact (if_pos ⟨trivial, by rw [hg]; rfl⟩).trans (congrArg (fun z : State => z.seamPump (s.map.place v.line).pc) hset)
  · next hno => exact absurd hf (hno hk)
end

/-- A Seam write once its line is written. -/
def SeamWr.lineDone (w : SeamWr) (ok : Bool) : SeamWr := { w with written := true, failed := w.failed || !ok }

/-- A Seam write once its update is acknowledged. -/
def SeamWr.updateDone (w : SeamWr) (ok : Bool) : SeamWr := { w with acked := true, failed := w.failed || !ok }

/-- The home of an update with a number gets its acknowledgement (R195 step 5). -/
theorem State.seamDone_parity (hk : v.kind = .parity u) (hno : u.no ≠ 0) (cause : Nat) :
    s.seamDone v cause = s.ring (.seamAck u.home u.line u.no (cause == 0)) := by
  simp only [State.seamDone, hk]
  exact if_neg fun e => hno e.1

/-! ### At the parity tile -/

/-- The parity line of the one update under way is written. -/
theorem State.seamWritten_parity (h : s.seam.writes = [w]) (hk : w.kind = .parity u) (ha : w.acked = true) (hno : u.no ≠ 0) (ok : Bool) :
    s.seamWritten w.no w.line ok = (s.withWrites []).ring (.seamAck u.home u.line u.no (ok && !w.failed)) := by
  have hset := State.setSeam_one (v := w.lineDone ok) h rfl rfl
  have hkind : (w.lineDone ok).kind = .parity u := hk
  have hcause : ∀ cause, cause ≠ 0 → ((if (w.lineDone ok).failed then cause else 0) == 0) = (ok && !w.failed) := fun cause hc => by
    unfold SeamWr.lineDone
    cases w.failed <;> cases ok <;> simp [hc]
  have hend : ∀ cause, cause ≠ 0 → (s.withWrites [w.lineDone ok]).endSeam (w.lineDone ok) cause =
      (s.withWrites []).ring (.seamAck u.home u.line u.no (ok && !w.failed)) := fun cause hc => by
    rw [State.endSeam_closes (v := w.lineDone ok) rfl rfl rfl rfl ha (by simp [hkind]), State.withWrites_withWrites,
      State.seamDone_parity hkind hno, hcause cause hc]
    exact State.seamPump_idle _ rfl
  rw [State.seamWritten, State.seamBy_one h]
  refine (congrArg (fun z : State => z.endSeam (w.lineDone ok) _) hset).trans (hend _ ?_)
  rw [hk]
  cases ok <;> simp

theorem parityLineWritten : Claims.ParityLineWritten := by
  intro s c ok f w u hfl hpc hw ho hws hline hk hacked hno haligned
  set z := (s.landed f []).writeLine f.ln.addr f.ln.d.data (f.ln.d.poison || !ok) with hz
  have hframe : OnlyChanges [.sched, .clk, .store] s z := ((s.landed_frame f []).then (State.writeLine_frame _ _ _ _)).mono (by simp)
  have hx : s.writeArrives c ok = (z.withWrites []).ring (.seamAck u.home u.line u.no (ok && !w.failed)) := by
    rw [← State.seamWritten_parity (s := z) hws hk hacked hno, hline]
    unfold State.writeArrives
    rw [State.nextFlight_first hfl hpc]
    simp only [hw, ho, Bool.not_true, Bool.false_eq_true, if_false]
    rfl
  refine ⟨_, congrArg Host.Outcome.next hx, s.store.line_write _ _ _, s.store.isPoison_write _ _ _, fun a ha => ⟨?_, ?_⟩, rfl, rfl,
    ((hframe.then (z.withWrites_frame _)).then (State.emit_frame _ _)).mono (by simp)⟩
  · exact s.store.byte_write_ne _ _ _ ha
  · exact s.store.isPoison_write_ne _ _ _ ha

/-! ### At the home -/

/-- Only a posted write tells its completion by a notice (R132). -/
theorem State.lineWritten_noNotice {r : HReq} (hop : r.op = .writeAck) (idx cause : Nat) (notice : Bool) :
    s.lineWritten r idx cause notice = s.lineWritten r idx cause false := by
  simp only [State.lineWritten, hop, if_true]

/-- The acknowledgement of the one Seam write under way. -/
theorem exec_seamAck (h : s.seam.writes = [w]) (ok : Bool) :
    exec (.seamAck ⟨w.line, w.no⟩ ok) s =
      .next ((s.withWrites [w.updateDone ok]).endSeam (w.updateDone ok) 2) := by
  refine congrArg Host.Outcome.next ?_
  simp only [State.seamBy_one h]
  exact congrArg (fun z : State => z.endSeam (w.updateDone ok) 2) (State.setSeam_one h rfl rfl)

/-! ### A line that is poisoned -/

/-- A write that meets no write-back of Pickle's drops no part and leaves the Seam writes and the row at work as they are (R191). -/
theorem State.overtake_keeps (h : ∀ x ∈ s.sched.parts, x.origin ≠ .pickleBack) :
    OnlyChanges [.sched, .seam] s (s.overtake p) ∧ (s.overtake p).sched.parts = s.sched.parts ∧
      ∃ xs, (s.overtake p).seam = { s.seam with recons := xs } := by
  have hd : s.dropParts (fun x => x.origin == .pickleBack && shareLine x p) = s.fixV := State.dropParts_none fun x hx => by simp [h x hx]
  unfold State.overtake
  simp only [hd]
  exact ⟨Fr.only (M := 2 ^ 19 + 2 ^ 22) (Fr.upd (Fr.refl s) rfl) (by decide), rfl, _, rfl⟩

/-- The part that writes a Seam write's line as poison (R17). -/
def State.poisonPart (s : State) (w : SeamWr) : Part :=
  let g := (SMap.look s.sched.tags (reqKey w.req)).getD s.noTag
  { seq := s.sched.seq + 1, origin := .seamPoison w.no, req := w.req, queue := g.queue, pc := (s.map.place w.line).pc, bank := (s.map.place w.line).bank,
    row := (s.map.place w.line).row, lns := [{ col := (s.map.place w.line).col, addr := w.line, idx := w.idx, d := ⟨w.new.data, true⟩ }], write := true,
    cls := s.joinCls w.req, calm := w.req.cls, promoted := w.req.promoted, age := w.req.age, k := g.k, start := g.start, finish := g.finish,
    joined := s.clk.now, rel := some 0, pSince := if s.joinCls w.req = .p then some s.clk.now else none }

/-- That part in its write queue. -/
def State.poisonJoined (s : State) (w : SeamWr) : State :=
  { s with sched := { s.sched with seq := s.sched.seq + 1, parts := s.sched.parts ++ [s.poisonPart w] } }

theorem State.poisonAgain_room (h : s.hasRoom (s.poisonPart w) (s.poisonPart w).cls = true) :
    s.poisonAgain w = ((((s.poisonJoined w).overtake (s.poisonPart w)).setSeam { w with started := false }).wakePc (s.poisonPart w).pc).drainCheck
      (s.poisonPart w).pc := by
  have hno : ¬ (!s.hasRoom (s.poisonPart w) (s.poisonPart w).cls) = true := by simp [h]
  unfold State.poisonAgain
  exact if_neg hno

theorem State.hasRoom_empty (h : s.sched.parts = []) (p : Part) (k : Cls) : s.hasRoom p k = true := by
  simp [State.hasRoom, State.inQueue, h]

/-- The line of the one write under way joins as poison where no part waits, and its write stands to be started. -/
theorem State.poisonAgain_alone (hw : s.seam.writes = [w]) (hp : s.sched.parts = []) :
    OnlyChanges [.seam, .sched, .pcs, .out, .ctr] s (s.poisonAgain w) ∧ (s.poisonAgain w).sched.parts = [s.poisonPart w] ∧
      ∃ xs, (s.poisonAgain w).seam = { s.seam with recons := xs, writes := [{ w with started := false }] } := by
  have hparts : (s.poisonJoined w).sched.parts = [s.poisonPart w] := by rw [State.poisonJoined, hp, List.nil_append]
  have hover := State.overtake_keeps (s := s.poisonJoined w) (p := s.poisonPart w) (by rw [hparts]; exact List.forall_mem_singleton.mpr nofun)
  obtain ⟨hof, hop, xs, hos⟩ := hover
  have hjoin : OnlyChanges [.sched] s (s.poisonJoined w) := s.sched_frame _
  rw [State.poisonAgain_room (State.hasRoom_empty hp _ _)]
  set z := (s.poisonJoined w).overtake (s.poisonPart w)
  have hzw : z.seam.writes = [w] := (congrArg Seam.writes hos).trans hw
  rw [State.setSeam_one (v := { w with started := false }) hzw rfl rfl]
  set y := z.withWrites [{ w with started := false }]
  have hend : PcFrame [.pcs, .out, .ctr] (s.poisonPart w).pc y _ := (PcFrame.wakePc y _).next (.drainCheck _ _)
  refine ⟨(((hjoin.then hof).then (z.withWrites_frame _)).then hend.2).mono (by simp), ?_, xs, ?_⟩
  · exact (congrArg Sched.parts (hend.2 .sched (by simp))).trans (hop.trans hparts)
  · refine (hend.2 .seam (by simp) : _ = y.seam).trans ?_
    exact congrArg (fun q : Seam => { q with writes := [{ w with started := false }] }) hos

/-- The Seam engine takes no part but the write part of a Seam write. -/
theorem State.pumpParts_other {ps : List Part} (h : ∀ p ∈ ps, p.origin.seamNo = none) : ps.foldl State.pumpPart s = s := by
  induction ps with
  | nil => rfl
  | cons p r ih =>
    rw [List.forall_mem_cons] at h
    rw [List.foldl_cons, State.pumpPart, h.1]
    exact ih h.2

/-- The turn of the Seam engine in which the line of the one write under way is to be poisoned. -/
theorem State.seamPump_poisons (hw : s.seam.writes = [w]) (hp : s.sched.parts = []) (hg : w.again.isSome = true) (hs : w.started = true) :
    s.seamPump (s.map.place w.line).pc = s.poisonAgain w := by
  have hdue : s.poisonDue (s.map.place w.line).pc = s.poisonAgain w := by simp [State.poisonDue, hw, hg, hs]
  obtain ⟨-, hparts, -⟩ := State.poisonAgain_alone hw hp
  rw [State.seamPump_eq, hdue]
  refine State.pumpParts_other fun p hm => ?_
  have hm : p ∈ (s.poisonAgain w).sched.parts := (List.mem_filter.mp hm).1
  rw [hparts, List.mem_singleton] at hm
  rw [hm]
  rfl

theorem seamAcknowledged : Claims.SeamAcknowledged := by
  intro s w hws hk hacked hfailed
  have hx := exec_seamAck hws
  have hend : ∀ ok, (w.updateDone ok).failed = !ok := fun ok => by rw [SeamWr.updateDone, hfailed, Bool.false_or]
  refine ⟨fun hw ok => ?_, fun hw ho hop hfail hpart hbusy => ?_, fun hw hg hp => ?_⟩
  · specialize hx ok
    rw [State.endSeam_open (by simp [SeamWr.updateDone, hw])] at hx
    refine ⟨_, hx, ?_, s.withWrites_frame _⟩
    rw [State.withWrites, SeamWr.updateDone, hfailed, Bool.false_or]
  · have hdone : (s.withWrites []).seamDone (w.updateDone true) 0 =
        (s.withWrites []).emit (answerOf s w.req .none [⟨0, .ok, false, 0⟩]) := by
      simp only [State.seamDone, SeamWr.updateDone, hk, ho, if_true]
      rw [State.lineWritten_noNotice hop]
      exact (State.lineWritten_last hop hbusy hfail hpart w.idx true).trans
        (congrArg (s.withWrites []).emit (answerOf_of_frame (s.withWrites_frame []) _ _))
    specialize hx true
    rw [State.endSeam_closes (v := w.updateDone true) rfl rfl rfl hw rfl fun _ => hend true, State.withWrites_withWrites, hend, Bool.not_true,
      if_neg Bool.false_ne_true, hdone, State.seamPump_idle _ rfl] at hx
    exact ⟨_, hx, rfl, rfl, rfl, ((s.withWrites_frame []).then (State.emit_frame _ _)).mono (by simp)⟩
  · specialize hx false
    rw [State.endSeam_poisons (v := w.updateDone false) rfl rfl rfl hw rfl hk (hend false) hg, State.withWrites_withWrites] at hx
    have hpump := State.seamPump_poisons (s := s.withWrites [(w.updateDone false).poisoned]) rfl hp rfl rfl
    have hturn := State.poisonAgain_alone (s := s.withWrites [(w.updateDone false).poisoned]) rfl hp
    obtain ⟨hframe, hparts, xs, hseam⟩ := hturn
    have hx := hx.trans (congrArg Host.Outcome.next hpump)
    refine ⟨_, hx, ⟨_, hparts, rfl, rfl, rfl, rfl⟩, ⟨_, congrArg Seam.writes hseam, hend false, rfl, rfl⟩, hframe .store (by simp),
      (congrArg Seam.job hseam :), ((s.withWrites_frame _).then hframe).mono (by simp)⟩

/-- Settles O42: an update becomes a Seam write of its own or waits; its parity line is formed and written, and the home's write ends with its
acknowledgement. What an update waits for, and that it is acknowledged at once where nothing stands to be updated, are the model's choices (log entries 40
and 76), as are its class and the parity line that is made anew (log entry 72). -/
theorem seamWrites : Obligations.SeamWrites := ⟨seamUpdated, parityLineFormed, parityLineWritten, seamAcknowledged⟩

end Sys2Proof.Machine

/-!
A line made again from the other members of its row (R191, R198, R200, R204): for a reader, with its write-back, and for the row at work.
-/
namespace Sys2Proof.Machine
open Sys2Proof
-- One proof at a time: the check's memory limit counts a stack for each proof that waits for another.
set_option Elab.async false

variable {s : State} {x : Recon} {ms : List Member} {par own : Member}

/-- The state once what waited for members is taken. -/
def State.taken (s : State) : State := { s with seam := { s.seam with recons := [] } }

theorem State.taken_frame (s : State) : OnlyChanges [.seam] s s.taken := s.seam_frame _

/-- The members have come for the one line that waits. -/
theorem State.reconstruct_one (h : s.seam.recons = [x]) (ho : x.own.isSome = true) :
    s.reconstruct x.line ms par = s.taken.reconDone x ms par := by
  have hfirst : takeFirst (fun y : Recon => y.line == x.line && y.own.isSome) s.seam.recons = some (x, []) := by simp [h, takeFirst, ho]
  unfold State.reconstruct
  simp only [hfirst]
  rfl

/-- With no Seam write under way the members that come do no more than make the line that waits. -/
theorem exec_seamReconstructDone (h : s.seam.recons = [x]) (ho : x.own.isSome = true) (hw : (s.taken.reconDone x ms par).seam.writes = []) :
    exec (.seamReconstructDone x.line ms par) s = .next (s.taken.reconDone x ms par) := by
  refine congrArg Host.Outcome.next ?_
  rw [State.reconstruct_one h ho]
  exact State.seamPump_idle _ hw

/-! ### For a reader -/

theorem Member.fine_iff {m : Member} : m.fine = true ↔ m.res = .good ∨ m.res = .corrected := by
  simp [Member.fine]

/-- The line of a write-back of Pickle's that nothing stands against joins as a write of P29 (R191). -/
theorem State.writeBack_joins {a : Nat} (hret : s.ownRetired (s.map.place a) = false) (hro : s.seam.readOnly = false) (d : PLine) :
    OnlyChanges [.sched] s (s.writeBack false a d) ∧
      ∃ p : Part, (s.writeBack false a d).sched.parts = s.sched.parts ++ [p] ∧ p.origin = .pickleBack ∧ p.write = true ∧
        p.lns.map (fun l => (l.addr, l.d)) = [(a, d)] := by
  have hx : s.writeBack false a d = s.joinAs (internalReq s.t 29 .writePosted a) .pickleBack true s.noTag
      [{ col := (s.map.place a).col, addr := a, idx := 0, d := d }] := if_neg (by simp [hret, hro])
  rw [hx]
  exact ⟨State.joinAs_internal_frame rfl (Nat.le_refl _) _, _, State.parts_joinAs_internal rfl (Nat.le_refl _) _, rfl, rfl, rfl⟩

section
variable (hn : s.n ≠ 2) (hk : s.lineKind x.line = .data) (ho : x.o = .req)
include hn hk ho

/-- A data line of three tiles or more is made from its row where each member decodes as data. -/
theorem State.reconDone_made (hf : (par.fine && ms.all Member.fine) = true) :
    s.reconDone x ms par = (((s.writeBack x.stale x.line ⟨xorMembers ms ^^^ par.data, false⟩).count 0x4901 1).log1 0x0901 []).answerLine x.req x.idx .ok
      false (xorMembers ms ^^^ par.data) := by
  unfold State.reconDone
  simp only [hk, hn, hf, ho, reduceCtorEq, if_false, if_true]
  rfl

/-- Else its reader gets poison. -/
theorem State.reconDone_poison (hf : (par.fine && ms.all Member.fine) = false) : s.reconDone x ms par = s.answerLine x.req x.idx .poison false 0 := by
  have hp : (Origin.req == .pickleWalk || Origin.req == .pickleFix) = false := by decide
  unfold State.reconDone
  simp only [hk, hn, hf, ho, hp, reduceCtorEq, if_false, if_true, Bool.false_eq_true]
  rfl
end

theorem seamReconstructed : Claims.SeamReconstructed := by
  intro s x ms par hn hk h1 hrec ho hown hws answer data
  have htaken := s.taken_frame
  have hk' : s.taken.lineKind x.line = .data := (State.lineKind_of_frame htaken (a := x.line)).trans hk
  refine ⟨fun hf hstale hro hret => ?_, fun hbad => ?_⟩
  · have hfine : (par.fine && ms.all Member.fine) = true := by
      rw [List.forall_mem_cons] at hf
      rw [Bool.and_eq_true, List.all_eq_true]
      exact ⟨Member.fine_iff.mpr hf.1, fun m hm => Member.fine_iff.mpr (hf.2 m hm)⟩
    have hmade := State.reconDone_made (s := s.taken) hn hk' ho hfine
    rw [hstale] at hmade
    obtain ⟨hback, p, hparts, hp⟩ := State.writeBack_joins (s := s.taken) (a := x.line) hret hro ⟨data, false⟩
    set y := s.taken.writeBack false x.line ⟨data, false⟩
    have hy : OnlyChanges [.seam, .sched] s y := (htaken.then hback).mono (by simp)
    have hcount := y.count_frame 0x4901 1 1
    have hlog := (y.count 0x4901 1).log1_frame 0x0901 []
    set z := (y.count 0x4901 1).log1 0x0901 []
    have hz : OnlyChanges [.seam, .sched, .ctr, .log, .maint, .out] s z := ((hy.then hcount).then hlog).mono (by simp)
    have hend : z.answerLine x.req x.idx .ok false data = z.emit (answer ⟨x.idx, .ok, false, data⟩) :=
      congrArg z.emit (answerOf_of_frame hz _ _)
    have hseam : z.seam = { s.seam with recons := [] } := (hlog .seam (by simp)).trans ((hcount .seam (by simp)).trans (hback .seam (by simp)))
    have hx := hmade.trans hend
    refine ⟨_, (exec_seamReconstructDone hrec hown ?_).trans (congrArg Host.Outcome.next hx), List.mem_append_right _ (.head _), hseam, ?_, ?_,
      ⟨p, ?_, hp⟩, (hz.then (State.emit_frame _ _)).mono (by simp)⟩
    · rw [hx]
      exact (congrArg Seam.writes hseam).trans hws
    · exact State.counted_then (State.counted_of_frame hy (y.counted_count 0x4901 1 1)) (hlog.then (State.emit_frame _ _))
    · have hdom : (y.count 0x4901 1).dom 1 = true := (congrArg (fun q : Power => bit q.status 1) ((hy.then hcount) .pd (by simp))).trans h1
      exact (LogsOne.of_frame (hy.then hcount) (State.log1_logs hdom)).then (State.emit_frame z _)
    · exact (congrArg Sched.parts ((hlog .sched (by simp)).trans (hcount .sched (by simp)))).trans hparts
  · have hfine : (par.fine && ms.all Member.fine) = false := by
      rw [Member.fine, hbad]
      rfl
    have hx := State.reconDone_poison (s := s.taken) hn hk' ho hfine
    refine ⟨_, (exec_seamReconstructDone hrec hown ?_).trans (congrArg Host.Outcome.next hx), rfl, rfl, (htaken.then (State.emit_frame _ _)).mono (by simp)⟩
    rw [hx]
    exact hws

/-! ### For the row at work -/

/-- The line that the work on a row makes from the other members (R200, R204): in a rebuild with this tile's own parity line, in a resynchronisation without. -/
def State.rowLine (s : State) (j : SeamJob) (own : Member) (ms : List Member) : PLine :=
  if j.resync then ⟨xorMembers ms, !ms.all Member.fine⟩ else ⟨own.data ^^^ xorMembers ms, !(own.fine && ms.all Member.fine) || s.awaits j.row⟩

/-- In a row that is not taken back the line that waits is made for the row at work (R323). -/
theorem State.reconDone_row {j : SeamJob} (ho : x.o = .rebuild) (hown : x.own = some own) (hj : s.seam.job = some j) (hr : s.retakes j.row = false) :
    s.reconDone x ms par = s.jobWrite x.line (s.rowLine j own ms) := by
  unfold State.reconDone State.rowLine
  simp only [ho, hown, hj, hr, if_true, Option.getD_some, Bool.false_eq_true, false_and, and_false, if_false]
  cases j.resync <;> rfl

/-- A line of the row at work joins as a write of P28. -/
theorem State.jobWrite_joins (s : State) (a : Nat) (d : PLine) :
    OnlyChanges [.sched] s (s.jobWrite a d) ∧
      ∃ p : Part, (s.jobWrite a d).sched.parts = s.sched.parts ++ [p] ∧ p.origin = .rebuildW ∧ p.write = true ∧ p.req.port = 28 ∧
        p.lns.map (fun l => (l.addr, l.d)) = [(a, d)] :=
  ⟨State.joinAs_internal_frame rfl (Nat.le_refl _) _, _, State.parts_joinAs_internal rfl (Nat.le_refl _) _, rfl, rfl, rfl, rfl⟩

theorem rowLineMade : Claims.RowLineMade := by
  intro s x own par j ms hrec ho hown hjob htaking hws fine
  have hret : s.taken.retakes j.row = false := by simp [State.retakes, State.taken, htaking]
  have hx := State.reconDone_row (s := s.taken) (par := par) (ms := ms) ho hown hjob hret
  obtain ⟨hframe, p, hparts, horigin, hwrite, hport, hlines⟩ := s.taken.jobWrite_joins x.line (s.taken.rowLine j own ms)
  have hseam : (s.taken.jobWrite x.line (s.taken.rowLine j own ms)).seam = { s.seam with recons := [] } := hframe .seam (by simp)
  refine ⟨_, (exec_seamReconstructDone hrec (by rw [hown]; rfl) ?_).trans (congrArg Host.Outcome.next hx), ⟨p, hparts, horigin, hwrite, hport, ?_⟩, hseam,
    hframe .store (by simp), (s.taken_frame.then hframe).mono (by simp)⟩
  · rw [hx]
    exact (congrArg Seam.writes hseam).trans hws
  · rw [hlines]
    unfold State.rowLine
    cases j.resync
    · simp only [Bool.false_eq_true, if_false, fine, List.all_cons, List.all_nil, Bool.and_true]
      rfl
    · rfl

end Sys2Proof.Machine

/-!
Rows by their lines (R45, R200, R204): masks of a row's 64 lines, the lines that a row has left to rebuild, and the switch of a row for one tile.
-/
namespace Sys2Proof.Machine
open Sys2Proof
-- One proof at a time: the check's memory limit counts a stack for each proof that waits for another.
set_option Elab.async false

variable {s : State} {j : SeamJob} {u : TileNo}

/-! ### Masks -/

theorem testBit_foldl_or (ks : List Nat) (m i : Nat) : (ks.foldl (fun a k => a ||| 2 ^ k) m).testBit i = (m.testBit i || decide (i ∈ ks)) := by
  induction ks generalizing m with
  | nil => simp
  | cons k r ih =>
    rw [List.foldl_cons, ih, Nat.testBit_or, Nat.testBit_two_pow]
    simp [eq_comm, Bool.or_assoc]

theorem mod_two_le_of_and_eq {a b : Nat} (h : a &&& b = b) : b % 2 ≤ a % 2 := by
  have hmod : (a &&& b) % 2 = a % 2 &&& b % 2 := Nat.and_mod_two_pow (n := 1)
  rw [← h, hmod]
  exact Nat.and_le_left

theorem and_eq_of_testBit {a b : Nat} (h : ∀ i, b.testBit i = true → a.testBit i = true) : a &&& b = b := Nat.eq_of_testBit_eq fun i => by
  rw [Nat.testBit_and, Bool.and_eq_right_iff_imp]
  exact h i

/-- What is left of a mask without some of its bits. -/
theorem testBit_sub_of_and_eq {a b : Nat} (h : a &&& b = b) (i : Nat) : (a - b).testBit i = (a.testBit i && !b.testBit i) := by
  induction i generalizing a b with
  | zero =>
    have hle : b ≤ a := h ▸ Nat.and_le_left
    have hmod := mod_two_le_of_and_eq h
    rw [Bool.eq_iff_iff]
    simp only [Nat.testBit_zero, decide_eq_true_eq, Bool.and_eq_true, Bool.not_eq_true', decide_eq_false_iff_not]
    omega
  | succ i ih =>
    have hmod := mod_two_le_of_and_eq h
    have hdiv : (a - b) / 2 = a / 2 - b / 2 := by omega
    rw [Nat.testBit_succ, Nat.testBit_succ, Nat.testBit_succ, hdiv, ih (by rw [← Nat.and_div_two, h])]

/-- The lines of a row of which a mask is made. -/
theorem State.testBit_rowMask (s : State) (i : Nat) (f : Nat → Bool) (k : Nat) :
    (s.rowMask i f).testBit k = true ↔ k < 64 ∧ f (s.rowAddr i + 64 * k) = true := by
  rw [State.rowMask, testBit_foldl_or, Nat.zero_testBit, Bool.false_or, decide_eq_true_iff, List.mem_filter, List.mem_range]

/-! ### A row's lines -/

section
variable {k : Nat} (hk : k < 64)
include hk

theorem State.rowOf_line (s : State) (i : Nat) : s.rowOf (s.rowAddr i + 64 * k) = i := by
  unfold State.rowOf State.rowAddr
  omega

theorem State.lineBit_line (s : State) (i : Nat) : s.lineBit (s.rowAddr i + 64 * k) = k := by
  unfold State.lineBit State.rowAddr
  omega
end

theorem State.rebuiltAt_line (s : State) (i : Nat) {k : Nat} (hk : k < 64) :
    s.rebuiltAt (s.rowAddr i + 64 * k) = (s.seam.switched.find? fun e => e.1 == i && e.2.2.testBit k).map fun e => e.2.1 := by
  rw [State.rebuiltAt, if_neg (by unfold State.rowAddr; omega), s.rowOf_line hk, s.lineBit_line hk]

/-- The lines that a row has left to rebuild (R200, R315). -/
theorem State.testBit_rowLeft (s : State) (i k : Nat) :
    (s.rowLeft i).testBit k = true ↔ (2 < s.n ∧ s.map.parityOf i = s.t) ∧ k < 64 ∧ (s.lostMember (s.rowAddr i + 64 * k)).isSome = true ∧
      s.rebuiltAt (s.rowAddr i + 64 * k) = none ∧ s.goneAt s.t (s.rowAddr i + 64 * k) = false := by
  unfold State.rowLeft
  split
  · next h =>
    rw [Nat.zero_testBit]
    simp only [Bool.false_eq_true, false_iff]
    omega
  · next h =>
    rw [State.testBit_rowMask]
    simp only [Bool.and_eq_true, Bool.not_eq_true', Option.isNone_iff_eq_none, and_assoc]
    have : 2 < s.n ∧ s.map.parityOf i = s.t := by omega
    simp [this]

theorem State.standsFor_eq_false (s : State) (i : Nat) : s.standsFor i = false ↔ ∀ k, (s.rowLeft i).testBit k = false := by
  rw [State.standsFor, bne_eq_false_iff_eq]
  exact ⟨fun h k => by rw [h, Nat.zero_testBit], fun h => Nat.eq_of_testBit_eq fun k => by rw [h k, Nat.zero_testBit]⟩

/-- With no row left to stand for, none is taken up (R200). -/
theorem State.rebuildStep_none (h : ∀ i, i < s.rows → s.standsFor i = false) : s.rebuildStep = s := by
  have hf : (List.range s.rows).find? (fun i => s.standsFor i) = none := List.find?_eq_none.mpr fun i hi => by simp [h i (List.mem_range.mp hi)]
  simp only [State.rebuildStep, hf, ite_self]

/-- While a row is at work no other is taken up. -/
theorem State.rebuildStep_busy (h : s.seam.job = some j) : s.rebuildStep = s := by
  unfold State.rebuildStep
  rw [h, Option.isSome_some, Bool.true_or, Bool.true_or, Bool.true_or, Bool.true_or, if_pos rfl]

/-! ### The switch of a row -/

/-- The lines of the row at work that are a tile's (R200). -/
def State.switchMask (s : State) (j : SeamJob) (u : TileNo) : Nat :=
  s.rowMask j.row fun l => s.jobFor j l == some u.val && j.todo.testBit (s.lineBit l)

theorem State.testBit_switchMask (s : State) (j : SeamJob) (u : TileNo) (k : Nat) :
    (s.switchMask j u).testBit k = true ↔ k < 64 ∧ j.todo.testBit k = true ∧ s.jobFor j (s.rowAddr j.row + 64 * k) = some u.val := by
  rw [State.switchMask, State.testBit_rowMask]
  refine and_congr_right fun hk => ?_
  rw [s.lineBit_line hk, Bool.and_eq_true, beq_iff_eq, and_comm]

/-- The state once a row has switched for a tile, before what waited goes on (R200). -/
def State.switchedFor (s : State) (j : SeamJob) (u : TileNo) : State :=
  let left := j.todo - s.switchMask j u
  { s with seam := { s.seam with switched := s.seam.switched ++ [(j.row, u.val, s.switchMask j u)],
                                 job := if left = 0 then none else some { j with todo := left } } }

theorem State.switchedFor_frame (s : State) (j : SeamJob) (u : TileNo) : OnlyChanges [.seam] s (s.switchedFor j u) := s.seam_frame _

section
variable (hj : s.seam.job = some j)
include hj

/-- Before every line of the tile in the row is written nothing changes. -/
theorem exec_rebuildRowSwitch_waits (hd : j.done &&& s.switchMask j u ≠ s.switchMask j u) : exec (.rebuildRowSwitch j.row u) s = .next s := by
  refine congrArg Host.Outcome.next ?_
  simp only [hj]
  exact if_pos (.inr (.inr (.inr (.inr hd))))

/-- The row switches, and what waited goes on: here only the rebuild of a next row. -/
theorem exec_rebuildRowSwitch (hr : j.resync = false) (hf : j.fed = true) (hm : s.switchMask j u ≠ 0)
    (hd : j.done &&& s.switchMask j u = s.switchMask j u) (hu : s.seam.updates = []) (hh : s.ha.held = []) :
    exec (.rebuildRowSwitch j.row u) s = .next (s.switchedFor j u).rebuildStep := by
  have hgoes : ¬ (j.resync = true ∨ j.row ≠ j.row ∨ (!j.fed) = true ∨ s.switchMask j u = 0 ∨ j.done &&& s.switchMask j u ≠ s.switchMask j u) := by
    simp [hr, hf, hm, hd]
  have hend : (s.switchedFor j u).releaseUpdates.releaseHeld = s.switchedFor j u := by
    rw [State.releaseUpdates_none (s := s.switchedFor j u) hu, State.releaseHeld_none (s := s.switchedFor j u) hh]
  refine congrArg Host.Outcome.next ?_
  simp only [hj]
  exact (if_neg hgoes).trans (congrArg State.rebuildStep hend)
end

/-- A line stands rebuilt after the switch where it did before, and else for the tile where it is one of the lines switched. -/
theorem State.rebuiltAt_switchedFor (s : State) (j : SeamJob) (u : TileNo) (i : Nat) {k : Nat} (hk : k < 64) :
    (s.switchedFor j u).rebuiltAt (s.rowAddr i + 64 * k) =
      (s.rebuiltAt (s.rowAddr i + 64 * k)).or (if j.row = i ∧ (s.switchMask j u).testBit k = true then some u.val else none) := by
  have hnew : (s.switchedFor j u).seam.switched = s.seam.switched ++ [(j.row, u.val, s.switchMask j u)] := rfl
  refine ((s.switchedFor j u).rebuiltAt_line i hk).trans ?_
  rw [s.rebuiltAt_line i hk, hnew, List.find?_append, Option.map_or]
  congr 1
  by_cases h : j.row = i ∧ (s.switchMask j u).testBit k = true
  · simp [h]
  · rw [if_neg h, List.find?_cons_of_neg (by simpa using h)]
    rfl

/-- No line that was not left to rebuild is left after the switch, and none of those switched is. -/
theorem State.rowLeft_switchedFor {i k : Nat} (h : ((s.switchedFor j u).rowLeft i).testBit k = true) :
    (s.rowLeft i).testBit k = true ∧ ¬ (j.row = i ∧ (s.switchMask j u).testBit k = true) := by
  obtain ⟨hmine, hk, hlost, hreb, hgone⟩ := ((s.switchedFor j u).testBit_rowLeft i k).mp h
  have hreb := (s.rebuiltAt_switchedFor j u i hk).symm.trans hreb
  rw [Option.or_eq_none_iff] at hreb
  refine ⟨(s.testBit_rowLeft i k).mpr ⟨hmine, hk, hlost, hreb.1, hgone⟩, fun hin => ?_⟩
  rw [if_pos hin] at hreb
  exact absurd hreb.2 (Option.some_ne_none _)

/-- After the switch of every line that the row at work had left this tile stands for no line of it. -/
theorem State.standsFor_switchedFor (h : ∀ k, (s.rowLeft j.row).testBit k = true → (s.switchMask j u).testBit k = true)
    (ho : ∀ i, i < s.rows → i ≠ j.row → s.standsFor i = false) {i : Nat} (hi : i < s.rows) : (s.switchedFor j u).standsFor i = false := by
  rw [State.standsFor_eq_false]
  intro k
  by_contra hk
  obtain ⟨hwas, hnot⟩ := State.rowLeft_switchedFor (Bool.not_eq_false _ ▸ hk)
  by_cases hr : i = j.row
  · exact hnot ⟨hr.symm, h k (hr ▸ hwas)⟩
  · exact Bool.false_ne_true (((s.standsFor_eq_false i).mp (ho i hi hr) k).symm.trans hwas)

theorem rowSwitches : Claims.RowSwitches := by
  intro s j u hjob hresync hfed hrow hn mine
  have hmine : ∀ k, (s.switchMask j u).testBit k = true ↔ mine k := s.testBit_switchMask j u
  refine ⟨fun ⟨k, hk, hnot⟩ => ?_, fun ⟨k, hk⟩ hall htodo hupd hheld => ?_⟩
  · refine ⟨s, exec_rebuildRowSwitch_waits hjob fun hd => ?_, rfl⟩
    have hbit := congrArg (Nat.testBit · k) hd
    simp only [Nat.testBit_and, hnot, (hmine k).mpr hk, Bool.false_and] at hbit
    exact Bool.false_ne_true hbit
  · have hzero : s.switchMask j u ≠ 0 := fun h0 => by
      have hbit := (hmine k).mpr hk
      rw [h0, Nat.zero_testBit] at hbit
      exact Bool.false_ne_true hbit
    have hsub : j.todo &&& s.switchMask j u = s.switchMask j u := and_eq_of_testBit fun i hi => ((hmine i).mp hi).2.1
    have hx := exec_rebuildRowSwitch hjob hresync hfed hzero (and_eq_of_testBit fun i hi => hall i ((hmine i).mp hi)) hupd hheld
    have hstands : ∀ k, mine k → (s.switchedFor j u).rebuiltAt (s.rowAddr j.row + 64 * k) = some u.val := fun k hk => by
      obtain ⟨-, -, -, hreb, -⟩ := (s.testBit_rowLeft j.row k).mp (htodo ▸ hk.2.1)
      rw [s.rebuiltAt_switchedFor j u _ hk.1, hreb, if_pos ⟨rfl, (hmine k).mpr hk⟩, Option.none_or]
    refine ⟨fun hwhole hothers => ?_, fun ⟨i, hi, hleft, hother⟩ => ?_⟩
    · have hin : ∀ i, (s.rowLeft j.row).testBit i = true → (s.switchMask j u).testBit i = true := fun i hi =>
        (hmine i).mpr (hwhole i ((s.testBit_rowLeft j.row i).mp hi).2.1 (htodo.symm ▸ hi))
      have hleft : j.todo - s.switchMask j u = 0 := Nat.eq_of_testBit_eq fun i => by
        rw [testBit_sub_of_and_eq hsub, Nat.zero_testBit, Bool.and_eq_false_imp]
        exact fun hi => by rw [hin i (htodo ▸ hi), Bool.not_true]
      rw [State.rebuildStep_none (s := s.switchedFor j u) fun i hi => State.standsFor_switchedFor hin hothers hi] at hx
      refine ⟨_, hx, ⟨[(j.row, u.val, s.switchMask j u)], ?_⟩, hstands, s.switchedFor_frame j u⟩
      simp only [State.switchedFor, hleft, if_true]
    · have hnz : j.todo - s.switchMask j u ≠ 0 := fun h0 => by
        have hbit := testBit_sub_of_and_eq hsub i
        rw [h0, Nat.zero_testBit, hleft, Bool.eq_false_iff.mpr fun h => hother ((hmine i).mp h)] at hbit
        exact Bool.false_ne_true hbit
      have hjob' : (s.switchedFor j u).seam.job = some { j with todo := j.todo - s.switchMask j u } := if_neg hnz
      rw [State.rebuildStep_busy hjob'] at hx
      refine ⟨_, hx, ⟨[(j.row, u.val, s.switchMask j u)], j.todo - s.switchMask j u, ?_, fun k _ => ?_⟩, hstands, s.switchedFor_frame j u⟩
      · simp only [State.switchedFor, if_neg hnz]
      · rw [testBit_sub_of_and_eq hsub, Bool.and_eq_true, Bool.not_eq_true', ← Bool.not_eq_true, hmine]

end Sys2Proof.Machine

/-!
The end of a rebuild and of a resynchronisation (R200, R204): once no row of this tile's is left, and once every row that other tiles had to do is reported.
-/
namespace Sys2Proof.Machine
open Sys2Proof
-- One proof at a time: the check's memory limit counts a stack for each proof that waits for another.
set_option Elab.async false

variable {s : State}

theorem rebuildEnds : Claims.RebuildEnds := by
  intro s hon h1
  refine ⟨fun hjob hrows => ?_, fun j hj hstands => ?_⟩
  · have hany : (List.range s.rows).any (fun j => s.standsFor j) = false := List.any_eq_false.mpr fun j hj => by simp [hrows j (List.mem_range.mp hj)]
    have hend := s.seam_frame { s.seam with unprotected := true, rebuild := [] }
    set z : State := { s with seam := { s.seam with unprotected := true, rebuild := [] } } with hz
    have hx : exec .rebuildDone s = .next (z.log1 0x0903 []) := by
      refine congrArg Host.Outcome.next (if_neg ?_)
      simp [hon, hjob, hany]
    have hlog := z.log1_frame 0x0903 []
    exact ⟨_, hx, hlog .seam (by simp), LogsOne.of_frame hend (State.log1_logs h1), (hend.then hlog).mono (by simp)⟩
  · have hany : (List.range s.rows).any (fun j => s.standsFor j) = true := List.any_eq_true.mpr ⟨j, List.mem_range.mpr hj, hstands⟩
    refine ⟨s, congrArg Host.Outcome.next (if_pos ?_), rfl⟩
    rw [hany, Bool.or_true]

/-! ### Rows that other tiles report -/

/-- The state with other rows noted as done or still to do (R204). -/
def State.withRows (s : State) (d r : List Nat) : State := { s with seam := { s.seam with rowsDone := d, resync := r } }

theorem State.withRows_frame (s : State) (d r : List Nat) : OnlyChanges [.seam] s (s.withRows d r) := s.seam_frame _

/-- A row that another tile reports as done (R204). -/
def State.rowReported (z : State) (j : Nat) : State := if z.ownRow j then z else (z.rowReady j).rowBack j

/-- The rows done after one is reported, where nothing is taken back: it joins them, unless this tile has still to do it. -/
theorem State.rowReported_eq (h : s.seam.taking = []) (j : Nat) :
    ∃ d r, s.rowReported j = s.withRows d r ∧ ∀ i, i ∈ d ↔ i ∈ s.seam.rowsDone ∨ i = j ∧ (s.awaits j && s.resyncMine j) = false := by
  have hown : s.ownRow j = (s.awaits j && s.resyncMine j) := by simp [State.ownRow, State.retakes, h]
  unfold State.rowReported
  rw [hown]
  split
  · next hm => exact ⟨s.seam.rowsDone, s.seam.resync, rfl, fun i => by simp [hm]⟩
  · next hm =>
    have hback : (s.rowReady j).rowBack j = s.rowReady j := if_pos (by simp [State.rowReady, h])
    refine ⟨_, _, hback, fun i => ?_⟩
    rw [mem_insNat, Bool.eq_false_iff.mpr hm, or_comm]
    simp

/-- The rows done after some are reported: none but those, and each of them that this tile has not to do. -/
theorem State.rowsReported_eq (rows : List Nat) (h : s.seam.taking = []) :
    ∃ d r, rows.foldl State.rowReported s = s.withRows d r ∧ (∀ i, i ∈ d → i ∈ s.seam.rowsDone ∨ i ∈ rows) ∧
      ∀ i, i ∈ s.seam.rowsDone ∨ i ∈ rows ∧ s.resyncMine i = false → i ∈ d := by
  induction rows generalizing s with
  | nil => exact ⟨s.seam.rowsDone, s.seam.resync, rfl, fun i hi => .inl hi, fun i hi => by simpa using hi⟩
  | cons j rest ih =>
    obtain ⟨d, r, hone, hd⟩ := State.rowReported_eq h j
    obtain ⟨d', r', hrest, hin, hout⟩ := ih (s := s.withRows d r) h
    refine ⟨d', r', by rw [List.foldl_cons, hone, hrest]; rfl, fun i hi => ?_, fun i hi => hout i ?_⟩
    · rcases hin i hi with hi | hi
      · rcases (hd i).mp hi with hi | ⟨rfl, -⟩
        · exact .inl hi
        · exact .inr (.head _)
      · exact .inr (.tail _ hi)
    · rcases hi with hi | ⟨hi, hm⟩
      · exact .inl ((hd i).mpr (.inl hi))
      · rcases List.mem_cons.mp hi with rfl | hi
        · exact .inl ((hd i).mpr (.inr ⟨rfl, by rw [hm, Bool.and_false]⟩))
        · exact .inr ⟨hi, hm⟩

/-- The rows of the package that are resynchronised (R204). -/
def State.listedRows (s : State) : List Nat := if s.seam.listedAll then List.range s.rows else s.seam.listed

theorem State.mem_awaited {j : Nat} :
    j ∈ s.awaited ↔
      j ∈ s.listedRows ∧ (s.seam.resyncing = true ∧ (s.seam.listedAll || s.seam.listed.contains j) = true) ∧ j ∉ s.seam.rowsDone := by
  rw [State.awaited, List.mem_filter, State.awaits]
  simp [State.listedRows]

/-- A row is awaited after others are done where it was awaited and is not one of those. -/
theorem State.mem_awaited_withRows {d r : List Nat} (hd : ∀ i, i ∈ s.seam.rowsDone → i ∈ d) {j : Nat} :
    j ∈ (s.withRows d r).awaited ↔ j ∈ s.awaited ∧ j ∉ d := by
  rw [State.mem_awaited, State.mem_awaited]
  constructor
  · rintro ⟨hl, hr, hn⟩
    exact ⟨⟨hl, hr, fun h => hn (hd j h)⟩, hn⟩
  · rintro ⟨⟨hl, hr, -⟩, hn⟩
    exact ⟨hl, hr, hn⟩

/-- RESYNC_DONE once the rows are reported (R204): the resynchronisation ends where no row is awaited and none is taken back. -/
theorem exec_resyncDone (rows : List Nat) (ho : s.seam.resyncing = true) (ht : (rows.foldl State.rowReported s).seam.taking = []) :
    exec (.resyncDone rows) s =
      .next (if (rows.foldl State.rowReported s).awaited = [] then (rows.foldl State.rowReported s).stacksBack.log1 0x0906 []
        else rows.foldl State.rowReported s) := by
  have hon : ¬ (!s.seam.resyncing) = true := by simp [ho]
  refine congrArg Host.Outcome.next ((if_neg hon).trans ?_)
  set z := rows.foldl State.rowReported s
  change (if (!z.awaited.isEmpty || (!z.seam.taking.isEmpty && (List.range z.rows).any fun j => !z.seam.backRows.contains j)) = true then z
    else z.stacksBack.log1 0x0906 []) = _
  simp only [ht, List.isEmpty_nil, Bool.not_true, Bool.false_and, Bool.or_false]
  by_cases h : z.awaited = []
  · rw [if_pos h, if_neg (by simp [h])]
  · rw [if_neg h, if_pos (by simpa using h)]

theorem State.stacksBack_frame (s : State) : OnlyChanges [.seam] s s.stacksBack := s.seam_frame _

/-- With no tile that takes its rows back the stacks that are lost stay lost (R323). -/
theorem State.lost_stacksBack (h : s.seam.taking = []) : s.stacksBack.seam.lost = s.seam.lost := by
  have hmask : s.seam.lost &&& ~~~(maskOf []) = s.seam.lost := BitVec.and_allOnes
  rw [← hmask, ← h]
  rfl

theorem resyncEnds : Claims.ResyncEnds := by
  intro s rows hon htaking h1
  obtain ⟨d, r, hz, hin, hout⟩ := State.rowsReported_eq rows htaking
  have hx := exec_resyncDone rows hon (by rw [hz]; exact htaking)
  rw [hz] at hx
  have hmono : ∀ i, i ∈ s.seam.rowsDone → i ∈ d := fun i hi => hout i (.inl hi)
  have hframe := s.withRows_frame d r
  refine ⟨fun hall => ?_, fun ⟨j, hj, hnot⟩ => ?_⟩
  · have hnone : (s.withRows d r).awaited = [] := List.eq_nil_iff_forall_not_mem.mpr fun j hj => by
      obtain ⟨hwas, hd⟩ := (State.mem_awaited_withRows hmono).mp hj
      exact hd (hout j (.inr (hall j hwas)))
    rw [if_pos hnone] at hx
    have hback := hframe.then (s.withRows d r).stacksBack_frame
    have hlost : (s.withRows d r).stacksBack.seam.lost = s.seam.lost := State.lost_stacksBack (s := s.withRows d r) htaking
    have hlog := (s.withRows d r).stacksBack.log1_frame 0x0906 []
    have hseam : _ = (s.withRows d r).stacksBack.seam := hlog .seam (by simp)
    refine ⟨_, hx, ?_⟩
    beta_reduce
    rw [hseam]
    exact ⟨rfl, rfl, rfl, rfl, hlost, rfl, rfl, LogsOne.of_frame hback (State.log1_logs h1), hlog .store (by simp), (hback.then hlog).mono (by simp)⟩
  · have hleft : j ∈ (s.withRows d r).awaited := (State.mem_awaited_withRows hmono).mpr ⟨hj, fun hd => by
      rcases hin j hd with hd | hd
      · exact (State.mem_awaited.mp hj).2.2 hd
      · exact hnot hd⟩
    rw [if_neg (List.ne_nil_of_mem hleft)] at hx
    exact ⟨_, hx, hon, rfl, hframe⟩

/-- Settles O43: what a line of the row is made from, for a reader and for the row at work, and the lines that a row has left, of which none is left as it
switches, and none anywhere as the work ends. The row at work, its poison and its switch tile by tile are the model's choice (log entry 40), as is that events
0x0901, 0x0903 and 0x0906 carry no arguments (log entry 30). -/
theorem seamRepair : Obligations.SeamRepair := ⟨seamReconstructed, rowLineMade, rowSwitches, rebuildEnds, resyncEnds⟩

end Sys2Proof.Machine

/-!
Completion: every command answers a next state but for the three actions and the responses of a caching agent (R212, R228).
-/
namespace Sys2Proof.Machine
open Sys2Proof

theorem exec_next_or_agent (c : Instr) (s : State) :
    (∃ t, exec c s = .next t) ∨ (∃ a l u, c = .agentLoad a l u) ∨ (∃ a l d, c = .agentStore a l d) ∨ (∃ a l k, c = .agentEviction a l k) ∨
      (∃ a l r d, c = .agentResponse a l r d) := by
  cases c with
  | agentLoad a l u => exact .inr (.inl ⟨a, l, u, rfl⟩)
  | agentStore a l d => exact .inr (.inr (.inl ⟨a, l, d, rfl⟩))
  | agentEviction a l k => exact .inr (.inr (.inr (.inl ⟨a, l, k, rfl⟩)))
  | agentResponse a l r d => exact .inr (.inr (.inr (.inr ⟨a, l, r, d, rfl⟩)))
  | unlistedOpcode p op w => exact .inl ((exec_unlistedOpcode op w s).elim fun _ h => ⟨_, h⟩)
  | _ => exact .inl ⟨_, rfl⟩

theorem othersComplete : Claims.OthersComplete := by
  intro c s hc
  rcases exec_next_or_agent c s with ⟨t, ht⟩ | ⟨a, l, u, rfl⟩ | ⟨a, l, d, rfl⟩ | ⟨a, l, k, rfl⟩ | ⟨a, l, r, d, rfl⟩
  · have hk := Kept.of_exec ht
    exact ⟨t, ht, hk.ident, hk.pending, hk.out.imp fun _ h => h.symm, hk.free, hk.memWf⟩
  all_goals exact hc.elim

/-- Settles O6: only a caching agent's commands have a branch that stops, and what every command keeps (`Kept`) is what the others leave. That these stops are
faults is the model's choice (log entry 60), as is that every other command completes on whatever operands it is given (log entry 62). -/
theorem onlyAgentsStop : Obligations.OnlyAgentsStop :=
  ⟨fun c s hstop => (exec_next_or_agent c s).resolve_left fun ⟨t, ht⟩ => hstop t ht, othersComplete⟩

end Sys2Proof.Machine

/-!
A caching agent (R211, R212, R227, R228): what it does on its own actions, on snoops and on responses, one line at a time.
-/
namespace Sys2Proof.Machine
open Sys2Proof

variable {s : State} {a : Fin 6} {line : Nat}

/-! ### Cached lines -/

@[simp] theorem State.agentLine_setAgent_same (s : State) (a line : Nat) (v : ALine) : (s.setAgent a line v).agentLine a line = v :=
  SMap.getD_put_same _ _ _ _

theorem State.agentLine_setAgent_ne (s : State) {a b line m : Nat} (v : ALine) (h : agentKey b m ≠ agentKey a line) :
    (s.setAgent a line v).agentLine b m = s.agentLine b m := SMap.getD_put_ne _ _ _ h

theorem State.setAgent_frame (s : State) (a line : Nat) (v : ALine) : OnlyChanges [.agents] s (s.setAgent a line v) :=
  Fr.only (M := 2 ^ 25) (Fr.upd (Fr.refl s) rfl) (by decide)

@[simp] theorem State.agentLine_emit (s : State) (o : Out) (a line : Nat) : (s.emit o).agentLine a line = s.agentLine a line := rfl

/-- A line whose request goes out: the Retry count stands where it is the request that met them (R213, R228). -/
def ALine.sends (l : ALine) (op : Op) : ALine := { l with rage := if l.back = (op == .wrBack) then l.rage else 0, back := op == .wrBack }

/-- An agent that changes a line's state and sends its request (R212). -/
theorem State.agentSend_says (s : State) (a : Nat) (op : Op) (line : Nat) (dirty : Bool) (d : Line) (l : ALine) :
    let t := (s.setAgent a line l).agentSend a op line dirty d
    t.agentLine a line = l.sends op ∧ t.out = s.out ++ [.agentReq (6 * s.t + a) op (line / 64 * 64) dirty (l.sends op).rage d] ∧
      (∀ b m, agentKey b m ≠ agentKey a line → t.agentLine b m = s.agentLine b m) ∧ OnlyChanges [.agents, .out] s t := by
  simp only [State.agentSend, State.agentLine_setAgent_same, State.agentLine_emit]
  refine ⟨rfl, rfl, fun b m h => ?_, ?_⟩
  · rw [State.agentLine_setAgent_ne _ _ h, State.agentLine_setAgent_ne _ _ h]
  · exact (((s.setAgent_frame a line l).then (State.setAgent_frame _ a line _)).then (State.emit_frame _ _)).mono (by simp)

/-- A line that an agent changes by itself (R212). -/
theorem State.setAgent_says (s : State) (a line : Nat) (v : ALine) :
    (s.setAgent a line v).agentLine a line = v ∧ (∀ b m, agentKey b m ≠ agentKey a line → (s.setAgent a line v).agentLine b m = s.agentLine b m) ∧
      OnlyChanges [.agents] s (s.setAgent a line v) :=
  ⟨s.agentLine_setAgent_same a line v, fun _ _ h => s.agentLine_setAgent_ne v h, s.setAgent_frame a line v⟩

/-! ### Its own actions -/

/-- In a transient state an agent's own action is a protocol violation (R212). -/
theorem exec_agent_transient (h : (s.agentLine a line).st.transient) (b : Bool) (d : Line) :
    exec (.agentLoad a line b) s = .fault .agentActionUnlisted ∧ exec (.agentStore a line d) s = .fault .agentActionUnlisted ∧
      exec (.agentEviction a line b) s = .fault .agentActionUnlisted := by
  simp only [exec, execAgentLoad, execAgentStore, execAgentEviction]
  generalize (s.agentLine a line).st = st at h
  cases st with
  | m | o | e | s | i => exact absurd (by simp) h
  | _ => exact ⟨rfl, rfl, rfl⟩

theorem agentActions : Claims.AgentActions := by
  intro s a line d l goes takes
  have hgoes : ∀ c st op dirty x, exec c s = .next ((s.setAgent a line { l with st := st }).agentSend a op line dirty x) →
      Completes c s (goes st op dirty x) := fun c st op dirty x h => ⟨_, h, s.agentSend_says a op line dirty x _⟩
  have htakes : ∀ c v, exec c s = .next (s.setAgent a line v) → Completes c s (takes v) := fun c v h => ⟨_, h, s.setAgent_says a line v⟩
  have hstays : ∀ c, exec c s = .next s → Completes c s (fun t => t = s) := fun c h => ⟨_, h, rfl⟩
  have load : ∀ u, exec (.agentLoad a line u) s = execAgentLoad a line u s := fun _ => rfl
  have store : exec (.agentStore a line d) s = execAgentStore a line d s := rfl
  have evict : ∀ k, exec (.agentEviction a line k) s = execAgentEviction a line k s := fun _ => rfl
  refine ⟨fun h => ⟨hgoes _ _ _ _ _ ?_, hgoes _ _ _ _ _ ?_, hgoes _ _ _ _ _ ?_, fun _ => hstays _ ?_⟩, fun h _ => hstays _ ?_,
    fun h => ⟨hgoes _ _ _ _ _ ?_, fun _ => htakes _ _ ?_⟩, fun h => ⟨htakes _ _ ?_, htakes _ _ ?_, hgoes _ _ _ _ _ ?_⟩,
    fun h => ⟨hgoes _ _ _ _ _ ?_, fun _ => hgoes _ _ _ _ _ ?_⟩, fun h => ⟨htakes _ _ ?_, fun _ => hgoes _ _ _ _ _ ?_⟩,
    fun h b => exec_agent_transient h b d⟩
  case refine_5 =>
    rw [load, execAgentLoad]
    simp only [List.mem_cons, List.not_mem_nil, or_false] at h
    rcases h with h | h | h | h <;> simp only [l] at h <;> simp only [h]
  all_goals
    simp only [l] at h
    simp only [load, store, evict, execAgentLoad, execAgentStore, execAgentEviction, h, if_true, Bool.false_eq_true, if_false] <;> rfl

/-! ### Responses -/

theorem responseTable_of_row : ∀ row ∈ responseRows, responseTable row.1 row.2.1 = some row.2.2 := by decide

theorem responseTable_all (st : CState) (c : Cresp) : (responseTable st c).all (fun st' => decide ((st, c, st') ∈ responseRows)) = true := by
  cases st <;> cases c <;> rfl

/-- R228, entry by entry: the table of the statement and the model's are the same. -/
theorem mem_responseRows {st : CState} {c : Cresp} {st' : CState} : (st, c, st') ∈ responseRows ↔ responseTable st c = some st' := by
  refine ⟨fun h => responseTable_of_row _ h, fun h => ?_⟩
  have hall := responseTable_all st c
  rw [h] at hall
  exact of_decide_eq_true hall

theorem crespData_iff (c : Cresp) : c ∈ [Cresp.dataS, .dataE, .dataM, .dataO] ↔ crespData c = true := by
  cases c <;> decide

theorem agentResponseTable : Claims.AgentResponseTable := by
  intro s a line c d
  set l := s.agentLine a line with hl
  constructor
  · intro st hrow
    have ht : responseTable l.st c = some st := mem_responseRows.mp hrow
    have hx : exec (.agentResponse a line c d) s = .next (s.setAgent a line (((if crespData c then { l with data := d } else l).answered c).enter st)) := by
      show execAgentResponse a line c d s = _
      simp only [execAgentResponse, ← hl, ht]
    obtain ⟨hv, hother, hframe⟩ := s.setAgent_says a line (((if crespData c then { l with data := d } else l).answered c).enter st)
    refine ⟨_, hx, ?_, fun hst => ?_, ?_, hother, hframe⟩ <;> rw [hv]
    · by_cases hi : st = .i <;> simp [ALine.enter, hi]
    · simp only [crespData_iff, ALine.enter, ALine.answered, if_neg hst]
      split <;> split <;> rfl
    · by_cases hi : st = .i <;> by_cases hr : c = .retry <;> cases hd : crespData c <;> simp [ALine.enter, ALine.answered, hi, hr]
  · intro hrow
    have ht : responseTable l.st c = none := Option.eq_none_iff_forall_not_mem.mpr fun st h => hrow st (mem_responseRows.mpr h)
    show execAgentResponse a line c d s = _
    simp only [execAgentResponse, ← hl, ht]

/-- Settles O49: an action sends its request or changes its line by itself, a transient state takes none, and R228's table is the model's, entry by entry. -/
theorem agentTables : Obligations.AgentTables := ⟨agentActions, agentResponseTable⟩

/-! ### Snoops -/

/-- R227, row by row: the answer, the state entered and NEWSTATE. -/
theorem snoopTable_row : ∀ row ∈ snoopRows,
    snoopTable row.1 row.2.1 row.2.2.1 = (row.2.2.2.1, row.2.2.2.2.1, row.2.2.2.2.2.2) ∧
      newState row.1 row.2.2.2.1 row.2.2.2.2.1 row.2.2.2.2.2.2 = row.2.2.2.2.2.1 := by
  decide

theorem ALine.st_enter (l : ALine) (st : CState) : (l.enter st).st = st := by
  unfold ALine.enter
  split
  · exact (‹st = .i›).symm
  · rfl

/-- Settles O50: the oldest presented snoop of the agent is its only one, and the table's row says its answer, NEWSTATE and the state entered. -/
theorem agentSnoopTable : Obligations.AgentSnoopTable := by
  intro s a x c hs hagent hshown hdone row hrow hst hty hfwd
  obtain ⟨htab, hnew⟩ := snoopTable_row row hrow
  have hfind : s.snoops.find? (fun y => y.s.agent == 6 * s.t + a && y.shown.isSome && !y.done) = some x := by
    simp [hs, hagent, hshown, hdone]
  have hx : exec (.agentSnoop a) s = .next
      ((({ s with snoops := [{ x with done := true }] } : State).setAgent a x.s.line ((s.agentLine a x.s.line).enter row.2.2.2.2.2.2)).emit
        (.agentAns (6 * s.t + a) x.s.home x.s.txn row.2.2.2.1 row.2.2.2.2.2.1 row.2.2.2.2.1 (if row.2.2.2.1 = .fwd then (s.agentLine a x.s.line).data else 0))) := by
    show Host.Outcome.next _ = _
    simp only [hfind, hst, hty, hfwd, htab, hnew]
    simp only [hs, List.map_cons, List.map_nil, if_true]
  refine ⟨_, hx, rfl, ?_, fun b m h => State.agentLine_setAgent_ne _ _ h, rfl, ?_⟩
  · rw [State.agentLine_emit, State.agentLine_setAgent_same, ALine.st_enter]
  · have hsn : OnlyChanges [.snoops] s { s with snoops := [{ x with done := true }] } := Fr.only (M := 2 ^ 24) (Fr.upd (Fr.refl s) rfl) (by decide)
    exact ((hsn.then (State.setAgent_frame _ a x.s.line _)).then (State.emit_frame _ _)).mono (by simp)

end Sys2Proof.Machine

/-!
The home agent's parts (R218-R221): masks of agents, the entries of the filter, the one transaction at hand, and a home at which nothing waits for a line.
-/
namespace Sys2Proof.Machine
open Sys2Proof

variable {s t : State}

/-! ### Masks of agents -/

theorem mem_agentsOf {m : BitVec 48} {a : Nat} : a ∈ agentsOf m ↔ a < 48 ∧ bit m a = true := by
  simp [agentsOf]

theorem agentsOf_one : ∀ a : Fin 48, agentsOf (setBit 0 a true) = [a.val] := by decide

theorem ne_zero_of_bit {m : BitVec 48} {a : Nat} (h : bit m a = true) : m ≠ 0 := by
  rintro rfl
  simp [bit] at h

/-- Two masks with the same agents are one mask. -/
theorem mask_ext {m k : BitVec 48} (h : ∀ a < 48, bit m a = bit k a) : m = k := BitVec.eq_of_getLsbD_eq h

theorem setBit_clear_one (a : Nat) : setBit (setBit (0 : BitVec 48) a true) a false = 0 := by
  refine mask_ext fun b hb => ?_
  rw [bit_setBit _ _ _ _ hb, bit_setBit _ _ _ _ hb]
  split <;> simp [bit]

theorem and_one (m : BitVec 48) {a : Nat} (h : bit m a = true) : m &&& setBit 0 a true = setBit 0 a true := by
  refine mask_ext fun b hb => ?_
  have hand : bit (m &&& setBit 0 a true) b = (bit m b && bit (setBit 0 a true) b) := BitVec.getLsbD_and
  rw [hand, bit_setBit _ _ _ _ hb]
  by_cases hab : a = b
  · subst hab
    simp [h]
  · simp [hab, bit]

/-! ### Frames -/

theorem OnlyChanges.refl (s : State) (l : List Field) : OnlyChanges l s s := fun f _ => s.same_refl f

theorem State.ha_frame (s : State) (h : Home) : OnlyChanges [.ha] s { s with ha := h } := Fr.only (M := 2 ^ 23) (Fr.upd (Fr.refl s) rfl) (by decide)

/-! ### Entries -/

theorem State.entry_setEntry_same {l : Nat} {e : Entry} (h : e.present ≠ 0) : (s.setEntry l e).entry l = some e := by
  simp only [State.setEntry, State.entry, if_neg h]
  exact SMap.look_set_same _ _ _

theorem State.entry_setEntry_freed {l : Nat} {e : Entry} (h : e.present = 0) : (s.setEntry l e).entry l = none := by
  simp only [State.setEntry, State.entry, if_pos h]
  exact SMap.look_del_same _ _

theorem State.entry_setEntry_ne {l k : Nat} (e : Entry) (h : k ≠ l) : (s.setEntry l e).entry k = s.entry k := by
  simp only [State.setEntry, State.entry]
  split
  · exact SMap.look_del_ne _ h
  · exact SMap.look_set_ne _ _ h

theorem State.setEntry_frame (s : State) (l : Nat) (e : Entry) : OnlyChanges [.ha] s (s.setEntry l e) := s.ha_frame _

theorem State.entry_of_filter (h : t.ha.filter = s.ha.filter) (l : Nat) : t.entry l = s.entry l := by rw [State.entry, State.entry, h]

theorem State.entry_of_frame {fs : List Field} (k : OnlyChanges fs s t) (hh : .ha ∉ fs := by simp) (l : Nat) : t.entry l = s.entry l := by
  have eh : t.ha = s.ha := k .ha hh
  exact State.entry_of_filter (by rw [eh]) l


/-! ### The tracker with one transaction -/

/-- The state with another tracker. -/
def State.withTxns (s : State) (l : List Txn) : State := { s with ha := { s.ha with txns := l } }

theorem State.withTxns_frame (s : State) (l : List Txn) : OnlyChanges [.ha] s (s.withTxns l) := s.ha_frame _

section
variable {x y : Txn}

theorem State.txn_one (h : s.ha.txns = [x]) : s.txn x.id = some x := by simp [State.txn, h]

theorem State.setTxn_one (h : s.ha.txns = [x]) (hid : y.id = x.id) : s.setTxn y = s.withTxns [y] := by
  simp [State.setTxn, State.withTxns, h, hid]

theorem State.dropRead_none (h : x.stackDue = false) : s.dropRead x = s := by simp [State.dropRead, h]

theorem State.closeTxn_one (h : s.ha.txns = [y]) (hid : y.id = x.id) (hd : x.stackDue = false) : s.closeTxn x = s.withTxns [] := by
  simp [State.closeTxn, State.withTxns, State.dropRead_none hd, h, hid]

theorem State.lineBusy_empty (h : s.ha.txns = []) (l : Nat) : s.lineBusy l = false := by simp [State.lineBusy, h]

theorem State.trackerUsed_empty (h : s.ha.txns = []) : s.trackerUsed = 0 := by simp [State.trackerUsed, h]
end

/-! ### A home at which nothing waits -/

theorem State.startWork_nil (h : s.ha.work = []) : ∀ n, s.startWork n = s
  | 0 => rfl
  | n + 1 => by
    rw [State.startWork]
    split
    · rfl
    · rw [h]
      rfl

theorem State.servePlain_nil (hp : s.ha.plain = []) (hw : s.ha.plainWait = []) : ∀ n, s.servePlain n = s
  | 0 => rfl
  | n + 1 => by
    have hn : ∀ f : Nat × HReq → Bool, (if 256 ≤ s.trackerUsed then none else takeFirst f s.ha.plain) = none := fun f => by
      rw [hp]
      split <;> rfl
    simp only [State.servePlain, hn, hw]

theorem State.reserveFrom_none {l : Nat} (h : s.oldest l = none) : s.reserveFrom l = s := by
  unfold State.reserveFrom
  rw [h]
  split <;> rfl

theorem State.afterFree_quiet {l : Nat} (hr : s.oldest l = none) (hwork : s.ha.work = []) (hp : s.ha.plain = []) (hw : s.ha.plainWait = []) :
    s.afterFree l = s := by
  simp only [State.afterFree, State.reserveFrom_none hr, State.startWork_nil hwork, State.servePlain_nil hp hw]

/-- No request, reservation or work of its own waits at the home for a line to become free. -/
structure Home.Idle (h : Home) : Prop where
  plain : h.plain = []
  plainWait : h.plainWait = []
  resv : h.resv = []
  work : h.work = []

theorem State.oldest_none (h : s.ha.resv = []) (l : Nat) : s.oldest l = none := by simp [State.oldest, h]

/-- At such a home nothing follows when a line becomes free (R221, R230). -/
theorem State.afterFree_idle (h : s.ha.Idle) (l : Nat) : s.afterFree l = s :=
  State.afterFree_quiet (State.oldest_none h.resv l) h.work h.plain h.plainWait

theorem State.afterTxn_idle (h : s.ha.Idle) {x : Txn} (hn : x.next = none) : s.afterTxn x = s := by
  unfold State.afterTxn
  split
  · rfl
  · rw [hn]
    exact State.afterFree_idle h x.line

/-! ### Answers of the home -/

/-- An answer to a coherent request leaves a note of itself (R217) and goes out by the arc to its tile (R14, R214). -/
theorem State.homeAnswer_coherent {r : HReq} (hc : isCoherent r.op = true) (idx : Nat) (c : Cresp) (st : Status) (corr : Bool) (d : Option Line) :
    s.homeAnswer r idx c st corr d = (s.noteGiven r (crespData c || (c == .ack && r.op == .upgrade))).emit
      (answerOf s r c (match d with | some l => [⟨0, .ok, corr, l⟩] | none => [⟨0, st, false, 0⟩])) := by
  unfold State.homeAnswer
  rw [if_pos hc]
  cases d <;> rfl

theorem State.noteGiven_frame (s : State) (r : HReq) (b : Bool) : OnlyChanges [.ha] s (s.noteGiven r b) := s.ha_frame _

theorem State.retry_quiet {r : HReq} (h : r.rage < 7) (b : Bool) :
    s.retry r b = ((s.count 0x5002 13).noteGiven r false).emit (answerOf s r .retry [⟨0, .ok, false, 0⟩]) := by
  unfold State.retry
  rw [if_pos (.inl h)]
  rfl

end Sys2Proof.Machine

/-!
A request that the home serves (R224-R226): its stack read joins a queue, and its line is granted or, read as poison, granted to nobody.
-/
namespace Sys2Proof.Machine
open Sys2Proof

variable {s t : State} {r : HReq}

/-! ### The stack read -/

theorem State.joinAs_frame (s : State) (r : HReq) (o : Origin) (write : Bool) (g : Tag) (ls : List PLn) :
    OnlyChanges [.sched, .queues] s (s.joinAs r o write g ls) := by
  unfold State.joinAs
  exact ((((s.sched_frame _).then (State.addParts_frame _ _).1).then (State.sched_frame _ _)).then (State.mark_frame _ _)).mono (by simp)

/-- A line of a request that has no other part here joins as a part of its own (R151). -/
theorem State.joinAs_oneLine {o : Origin} {write : Bool} {g : Tag} (l : PLn) (h : ∀ p ∈ s.sched.parts, sameReq p.req r = false) :
    s.joinAs r o write g [l] = s.joined (s.linePart r o write g (s.map.place l.addr) l) :=
  congrArg (fun z : State => z.fixV.mark g.queue)
    (State.addPart_alone (s := { s with sched := { s.sched with seq := s.sched.seq + 1 } }) (p := s.linePart r o write g (s.map.place l.addr) l) h)

/-- A mapped tenant's request gets its tags, and nothing has joined yet (R136, R144). -/
theorem State.stamp_mapped (hm : bit (s.tenantWord r.tenant) 15 = true) :
    OnlyChanges [.sched, .queues] s (s.stamp r).1 ∧ (s.stamp r).1.sched.parts = s.sched.parts := by
  unfold State.stamp
  split
  · exact ⟨.refl s _, rfl⟩
  split
  · exact ⟨.refl s _, rfl⟩
  simp only [State.chooseQueue_mapped hm]
  split
  · exact ⟨(s.sched_frame _).mono (by simp), rfl⟩
  · exact ⟨(s.setQ_frame _ _).then (State.sched_frame _ _), rfl⟩

/-- The one line that the home reads of a request's line (R225). -/
theorem State.reqLines_lineReq (s : State) (r : HReq) (line : Nat) (op : Op) (d : List PLine) :
    ∃ l : PLn, s.reqLines (s.lineReq (some r) line op d) = [l] ∧ l.addr = (s.map.home line).loc := ⟨_, rfl, rfl⟩

/-- A line of the ordinary part that the tile itself orders and holds. -/
def State.ownLine (s : State) (line : Nat) : Prop :=
  (s.map.home line).parity = none ∧ (s.map.home line).tile = s.t ∧ s.ownRetired (s.map.place (s.map.home line).loc) = false

/-- The home's read of such a line joins the queue of the request that it is for (R136, R224). -/
theorem State.homeRead_joins {line : Nat} (no : Nat) (hown : s.ownLine line) (hm : bit (s.tenantWord r.tenant) 15 = true) :
    let z := s.queueHome (s.lineReq (some r) line .read []) (.homeRead no)
    OnlyChanges [.sched, .queues] s z ∧ ((∀ p ∈ s.sched.parts, sameReq p.req r = false) →
      ∃ p : Part, z.sched.parts = s.sched.parts ++ [p] ∧ p.origin = .homeRead no ∧ p.write = false ∧
        p.lns.map (fun l => l.addr) = [(s.map.home line).loc]) := by
  intro z
  obtain ⟨hp, ht, hret⟩ := hown
  obtain ⟨l, hl, ha⟩ := s.reqLines_lineReq r line .read []
  set q := s.lineReq (some r) line .read [] with hq
  obtain ⟨hst, hparts⟩ := State.stamp_mapped (r := q) hm
  have hz : z = (s.stamp q).1.joinAs q (.homeRead no) false (s.stamp q).2 [l] := by
    show s.queueHome q (.homeRead no) = _
    rw [State.queueHome_ordinary (r := q) hp ht (by simp [hl]) (by simpa [hl, ha] using hret), hl]
    rfl
  refine ⟨hz ▸ (hst.then (State.joinAs_frame _ _ _ _ _ _)).mono (by simp), fun halone => ?_⟩
  rw [hz, State.joinAs_oneLine l (by rw [hparts]; exact halone)]
  have hj := State.parts_joined (s.stamp q).1 ((s.stamp q).1.linePart q (.homeRead no) false (s.stamp q).2 ((s.stamp q).1.map.place l.addr) l)
  rw [hparts] at hj
  exact ⟨_, hj, rfl, rfl, congrArg (fun a => [a]) ha⟩

section
variable {x y : Txn}

/-- A request without data at hand has the stack read for it (R224). -/
theorem State.useData_reads (htx : s.ha.txns = [y]) (hid : y.id = x.id) (hr : x.req = some r) (hf : x.fwd = none) (hs : x.stack = none)
    (hd : x.stackDue = false) (hown : s.ownLine x.line) (hm : bit (s.tenantWord r.tenant) 15 = true) :
    s.useData x = (s.withTxns [{ x with busy := .mem, stackDue := true }]).queueHome (s.lineReq (some r) x.line .read []) (.homeRead x.no) := by
  set x' : Txn := { x with busy := .mem, stackDue := true } with hx'
  have hread : s.startRead { x with busy := .mem } = (s.withTxns [x']).queueHome (s.lineReq (some r) x.line .read []) (.homeRead x.no) := by
    show (s.setTxn x').queueHome (s.lineReq x.req x.line .read []) (.homeRead x.no) = _
    rw [State.setTxn_one (y := x') htx hid.symm, hr]
  have hk := (State.homeRead_joins (s := s.withTxns [x']) (r := r) x.no hown hm).1
  have hha := hk .ha (by simp)
  have htxn : ((s.withTxns [x']).queueHome (s.lineReq (some r) x.line .read []) (.homeRead x.no)).txn x.id = some x' :=
    State.txn_one (x := x') (congrArg Home.txns hha)
  rw [← hread] at htxn ⊢
  unfold State.useData
  generalize s.startRead { x with busy := .mem } = z at htxn ⊢
  have hs' : x'.stack = none := hs
  simp only [hr, hf, hs, hd, htxn, hs', Option.isSome_none, Bool.or_self, Bool.false_eq_true, if_false]

/-! ### The grant -/

theorem grantOf_present {a : Nat} (ha : a < 48) (e : Option Entry) (fwd : Option Bool) (used : Nat) : (grantOf x a e fwd used).1.present ≠ 0 := by
  have hset : ∀ m : BitVec 48, setBit m a true ≠ 0 := fun m => ne_zero_of_bit (a := a) (by rw [bit_setBit _ _ _ _ ha, if_pos rfl])
  unfold grantOf
  simp only
  split
  · exact hset _
  · exact hset _
  · split <;> exact hset _
  all_goals exact hset _

theorem State.setEntry_kept {l : Nat} {e : Entry} (h : e.present ≠ 0) :
    s.setEntry l e = { s with ha := { s.ha with filter := SMap.set s.ha.filter l e } } := by
  rw [State.setEntry, if_neg h]

theorem State.entryMatches_of_frame {fs : List Field} (k : OnlyChanges fs s t) (hd : .dict ∉ fs := by simp) (hi : .ident ∉ fs := by simp)
    (e page : Nat) (tenant : BitVec 12) : t.entryMatches e page tenant = s.entryMatches e page tenant := by
  have ed : t.dict = s.dict := k .dict hd
  have ei : t.ident = s.ident := k .ident hi
  have hf : t.entryFailed e = s.entryFailed e := by rw [State.entryFailed, State.entryFailed, ed]
  have hk : ∀ i x, t.knownReg i x = s.knownReg i x := fun i x => by rw [State.knownReg, State.knownReg, ed, ei]
  simp only [State.entryMatches, hf, hk, State.reg_of_frame k hd hi]

/-- Coherence under the applied group stands while the words of the group do (R126). -/
theorem State.stillCoherent_of_frame {fs : List Field} (k : OnlyChanges fs s t) (hd : .dict ∉ fs := by simp) (hi : .ident ∉ fs := by simp) (r : HReq) :
    t.stillCoherent r = s.stillCoherent r := by
  have hm : ∀ e page tenant, t.entryMatches e page tenant = s.entryMatches e page tenant := State.entryMatches_of_frame k hd hi
  simp only [State.stillCoherent, State.cohFor, State.masterWord, hm, State.reg_of_frame k hd hi]

/-- A request that a cache supplies is counted (R240). -/
def State.supplied (s : State) (x : Txn) : State := if x.fwd.isSome then s.count 0x5002 9 else s

theorem State.ctr_frame (s : State) (c : SMap Nat) : OnlyChanges [.ctr] s { s with ctr := c } := Fr.only (M := 2 ^ 7) (Fr.upd (Fr.refl s) rfl) (by decide)

theorem State.supplied_only (s : State) (x : Txn) : ∃ c, s.supplied x = { s with ctr := c } := by
  unfold State.supplied
  split
  · exact ⟨_, rfl⟩
  · exact ⟨s.ctr, rfl⟩

/-- What is left of serving a request once its supply is counted (R225, R234). -/
def State.serveData (s : State) (x : Txn) (r : HReq) : State :=
  if x.kind ≠ .upgrade ∧ x.data.1.poison then s.homeAnswer r x.idx .poison .poison false none
  else if !isCoherent r.op then s.homeAnswer r x.idx .none .ok x.data.2 (some x.data.1.data)
  else
    let g := grantOf x r.agent (s.entry x.line) (x.fwd.map (fun f => f.2)) (s.ha.stamp + 1)
    let z : State := { s with ha := { s.ha with stamp := s.ha.stamp + 1 } }
    (if (s.lostLine x.line).isSome then z else (z.setEntry x.line g.1).grantLate x.line r).homeAnswer r 0 g.2 .ok x.data.2
      (if g.2 = .ack then none else some x.data.1.data)

theorem State.serve_eq (s : State) (x : Txn) (r : HReq) : s.serve x r = (s.supplied x).serveData x r := rfl

theorem State.txns_homeAnswer (s : State) (r : HReq) (idx : Nat) (c : Cresp) (st : Status) (corr : Bool) (d : Option Line) :
    (s.homeAnswer r idx c st corr d).ha.txns = s.ha.txns := by
  unfold State.homeAnswer
  split <;> rfl

theorem State.txns_setEntry (s : State) (l : Nat) (e : Entry) : (s.setEntry l e).ha.txns = s.ha.txns := rfl

theorem State.txns_grantLate (s : State) (l : Nat) (r : HReq) : (s.grantLate l r).ha.txns = s.ha.txns := by
  unfold State.grantLate
  split <;> rfl

/-- Serving a request leaves its transaction in the tracker. -/
theorem State.txns_serveData (s : State) (x : Txn) (r : HReq) : (s.serveData x r).ha.txns = s.ha.txns := by
  unfold State.serveData
  split
  · exact State.txns_homeAnswer _ _ _ _ _ _ _
  split
  · exact State.txns_homeAnswer _ _ _ _ _ _ _
  · rw [State.txns_homeAnswer]
    split
    · rfl
    · rw [State.txns_grantLate, State.txns_setEntry]

/-- The state once a request has its line and its transaction has left the tracker: entry `e` stands, and the home has noted what it answers (R217, R219, R225). -/
def State.lineGranted (s : State) (x : Txn) (r : HReq) (e : Entry) (note : Bool) : State :=
  { s with ha := { s.ha with stamp := s.ha.stamp + 1, filter := SMap.set s.ha.filter x.line e, txns := [], given := (s.noteGiven r note).ha.given } }

theorem State.lineGranted_frame (s : State) (x : Txn) (r : HReq) (e : Entry) (note : Bool) : OnlyChanges [.ha] s (s.lineGranted x r e note) := s.ha_frame _

@[simp] theorem State.entry_lineGranted_same (s : State) (x : Txn) (r : HReq) (e : Entry) (note : Bool) : (s.lineGranted x r e note).entry x.line = some e :=
  SMap.look_set_same _ _ _

theorem State.entry_lineGranted_ne (s : State) {x : Txn} (r : HReq) (e : Entry) (note : Bool) {l : Nat} (h : l ≠ x.line) :
    (s.lineGranted x r e note).entry l = s.entry l := SMap.look_set_ne _ _ h

/-- Data of a line leaves with the line's answer, but not with an Ack (R214). -/
def grantAnswer (c : Cresp) (corr : Bool) (d : Line) : LineAns := if c = .ack then ⟨0, .ok, false, 0⟩ else ⟨0, .ok, corr, d⟩

/-- The requester of a line that is not poison becomes its holder (R219, R225). -/
theorem State.serveData_grants (hc : isCoherent r.op = true) (hpoison : x.kind = .upgrade ∨ x.data.1.poison = false) (hlost : s.lostLine x.line = none)
    (hcoh : s.stillCoherent r = true) (ha : r.agent < 48) :
    let g := grantOf x r.agent (s.entry x.line) (x.fwd.map (fun f => f.2)) (s.ha.stamp + 1)
    (s.serveData x r).withTxns [] =
      (s.lineGranted x r g.1 (crespData g.2 || (g.2 == .ack && r.op == .upgrade))).emit (answerOf s r g.2 [grantAnswer g.2 x.data.2 x.data.1.data]) := by
  intro g
  have hdeny : ¬(x.kind ≠ .upgrade ∧ x.data.1.poison = true) := fun ⟨hk, hp⟩ => by simp [hk, hp] at hpoison
  set z : State := { s with ha := { s.ha with stamp := s.ha.stamp + 1 } } with hz
  have hfr : OnlyChanges [.ha] s (z.setEntry x.line g.1) := ((s.ha_frame _).then (State.setEntry_frame z x.line g.1)).mono (by simp)
  have hlate : (z.setEntry x.line g.1).stillCoherent r = true := (State.stillCoherent_of_frame hfr (r := r)).trans hcoh
  have hserve : s.serveData x r = (z.setEntry x.line g.1).homeAnswer r 0 g.2 .ok x.data.2 (if g.2 = .ack then none else some x.data.1.data) := by
    unfold State.serveData
    rw [if_neg hdeny, if_neg (by simp [hc])]
    simp only [hlost, Option.isSome_none, Bool.false_eq_true, if_false]
    rw [State.grantLate_coherent _ _ _ hlate]
  rw [hserve, State.homeAnswer_coherent hc, State.setEntry_kept (grantOf_present ha _ _ _)]
  unfold grantAnswer
  by_cases hack : g.2 = .ack
  · simp only [if_pos hack]
    rfl
  · simp only [if_neg hack]
    rfl

/-- The request of the one transaction is served with its data, and the line is its requester's (R225). -/
theorem State.serve_grants (htx : s.ha.txns = [y]) (hid : y.id = x.id) (hd : x.stackDue = false) (hc : isCoherent r.op = true)
    (hpoison : x.kind = .upgrade ∨ x.data.1.poison = false) (hlost : s.lostLine x.line = none) (hcoh : s.stillCoherent r = true) (ha : r.agent < 48) :
    let g := grantOf x r.agent (s.entry x.line) (x.fwd.map (fun f => f.2)) (s.ha.stamp + 1)
    (s.serve x r).closeTxn x = ((s.supplied x).lineGranted x r g.1 (crespData g.2 || (g.2 == .ack && r.op == .upgrade))).emit
      (answerOf s r g.2 [grantAnswer g.2 x.data.2 x.data.1.data]) := by
  intro g
  obtain ⟨c, hsup⟩ := s.supplied_only x
  have hcoh' : (s.supplied x).stillCoherent r = true := by
    rw [hsup]
    exact (State.stillCoherent_of_frame (s.ctr_frame c) (r := r)).trans hcoh
  have hgr := State.serveData_grants (s := s.supplied x) (x := x) hc hpoison (by rw [hsup]; exact hlost) hcoh' ha
  have hclose : (s.serve x r).closeTxn x = (s.serve x r).withTxns [] := State.closeTxn_one (y := y) ?_ hid hd
  · rw [hclose, State.serve_eq, hgr, hsup]
    rfl
  · have hha : (s.supplied x).ha.txns = [y] := by rw [hsup]; exact htx
    exact (State.txns_serveData _ x r).trans hha
end
end Sys2Proof.Machine

/-!
Lines that the home poisons (R187, R225, R233, R240): one write of poison data waits for the stack, and a lost line is counted.
-/
namespace Sys2Proof.Machine
open Sys2Proof

variable {s t u : State} {fs : List Field} {line : Nat}

theorem State.ownRetired_of_frame (k : OnlyChanges fs s t) (hr : .repair ∉ fs := by simp) (hp : .pcs ∉ fs := by simp) (pl : Place) :
    t.ownRetired pl = s.ownRetired pl := by
  have er : t.repair = s.repair := k .repair hr
  have ep : t.pcs = s.pcs := k .pcs hp
  simp only [State.ownRetired, State.pc, er, ep]

/-- Where a line stands follows the map and what is retired (R44, R312). -/
theorem State.ordinaryHere_of_frame (k : OnlyChanges fs s t) (h : s.ordinaryHere line) (hd : .dict ∉ fs := by simp) (hi : .ident ∉ fs := by simp)
    (hy : .phy ∉ fs := by simp) (hr : .repair ∉ fs := by simp) (hp : .pcs ∉ fs := by simp) : t.ordinaryHere line := by
  have ei : t.ident = s.ident := k .ident hi
  rw [State.ordinaryHere, State.map_of_frame k hd hi hy, State.lineKind_of_frame k hd hi hy, State.ownRetired_of_frame k hr hp, State.t, ei]
  exact h

theorem State.poisonWaits_of_frame (k : OnlyChanges fs s t) (h : t.poisonWaits u line) (hs : .sched ∉ fs := by simp) (hd : .dict ∉ fs := by simp)
    (hi : .ident ∉ fs := by simp) (hy : .phy ∉ fs := by simp) : s.poisonWaits u line := by
  have es : t.sched = s.sched := k .sched hs
  rw [State.poisonWaits, es, State.map_of_frame k hd hi hy] at h
  exact h

theorem State.poisonWaits_then (h : s.poisonWaits t line) (k : OnlyChanges fs t u) (hs : .sched ∉ fs := by simp) : s.poisonWaits u line := by
  have es : u.sched = t.sched := k .sched hs
  rw [State.poisonWaits, es]
  exact h

/-- The write of poison for a line of the ordinary part at its home (R187; log entry 75). -/
theorem State.homePoison_waits (h : s.ordinaryHere line) : OnlyChanges [.sched] s (s.homePoison line) ∧ s.poisonWaits (s.homePoison line) line := by
  obtain ⟨ht, hk, hret⟩ := h
  set loc := (s.map.home line).loc with hloc
  set q := internalReq s.t 28 .writePosted ((s.map.package s.t loc).getD 0) with hq
  set l : PLn := { col := (s.map.place loc).col, addr := loc, idx := 0, d := ⟨0, true⟩ } with hl
  have hi : internalPort q.port = true := rfl
  have hx : s.homePoison line = s.joinAs q .poison true s.noTag [l] := by
    unfold State.homePoison State.poisonHere
    rw [if_pos ht, if_neg (by rw [hret]; decide), if_neg (by rw [hk]; decide), State.joinQueue, State.stamp, if_pos hi]
  rw [hx]
  exact ⟨State.joinAs_internal_frame hi (Nat.le_refl _) _, _, State.parts_joinAs_internal hi (Nat.le_refl _) [l], rfl, rfl, rfl, rfl, rfl⟩

/-- A line that is lost is to be written as poison and counted (R240). -/
theorem State.loseLine_says (h : s.ordinaryHere line) :
    OnlyChanges [.sched, .ctr] s (s.loseLine line) ∧ s.poisonWaits (s.loseLine line) line ∧ s.counted (s.loseLine line) 0x5002 21 1 := by
  obtain ⟨hf, hw⟩ := State.homePoison_waits h
  have hc := (s.homePoison line).count_frame 0x5002 21 1
  exact ⟨(hf.then hc).mono (by simp), State.poisonWaits_then hw hc, State.counted_of_frame hf (State.counted_count _ _ _ _)⟩

end Sys2Proof.Machine

/-!
The home's own accesses of the stack end (R221, R224, R226): a read's line goes to its request or is held for the last answer, a WR_BACK's write is acknowledged.
-/
namespace Sys2Proof.Machine
open Sys2Proof

variable {s t : State} {r : HReq} {x y : Txn}

/-! ### A transaction settles with its data -/

theorem State.settle_data (hb : x.bad = false) (hk : x.kind = .rdShared) : s.settle x = s.useData x := by
  simp [State.settle, hb, hk]

theorem State.useData_serves (hr : x.req = some r) (hd : x.fwd.isSome = true ∨ x.stack.isSome = true) : s.useData x = (s.serve x r).closeTxn x := by
  have h : (x.fwd.isSome || x.stack.isSome) = true := by simpa using hd
  unfold State.useData
  generalize s.startRead { x with busy := .mem } = z
  simp only [hr, h, if_true]

theorem State.supplied_stack (hf : x.fwd = none) : s.supplied x = s := by simp [State.supplied, hf]

theorem State.serve_poison (hk : x.kind ≠ .upgrade) (hf : x.fwd = none) (hp : x.data.1.poison = true) :
    s.serve x r = s.homeAnswer r x.idx .poison .poison false none := by
  rw [State.serve_eq, State.supplied_stack hf]
  exact if_pos ⟨hk, hp⟩

theorem Txn.data_stack {d : PLine} (hf : x.fwd = none) (hs : x.stack = some d) : x.data = (d, x.corr) := by simp [Txn.data, hf, hs]

theorem Home.Idle.withTxns (h : s.ha.Idle) (l : List Txn) : (s.withTxns l).ha.Idle := ⟨h.plain, h.plainWait, h.resv, h.work⟩

theorem Home.Idle.lineGranted (h : s.ha.Idle) (x : Txn) (r : HReq) (e : Entry) (note : Bool) : (s.lineGranted x r e note).ha.Idle :=
  ⟨h.plain, h.plainWait, h.resv, h.work⟩

/-- A RD_SHARED whose line is at hand is granted it, and at an idle home nothing follows (R225, R226). -/
theorem State.settle_grants {e : Entry} {c : Cresp} (hi : s.ha.Idle) (htx : s.ha.txns = [x]) (hb : x.bad = false) (hk : x.kind = .rdShared)
    (hr : x.req = some r) (hn : x.next = none) (hd : x.stackDue = false) (hhas : x.fwd.isSome = true ∨ x.stack.isSome = true)
    (hc : isCoherent r.op = true) (hpoison : x.data.1.poison = false) (hlost : s.lostLine x.line = none) (hcoh : s.stillCoherent r = true)
    (ha : r.agent < 48) (hg : grantOf x r.agent (s.entry x.line) (x.fwd.map (fun f => f.2)) (s.ha.stamp + 1) = (e, c)) (hack : c ≠ .ack) :
    (s.settle x).afterTxn x = ((s.supplied x).lineGranted x r e (crespData c || (c == .ack && r.op == .upgrade))).emit
      (answerOf s r c [⟨0, .ok, x.data.2, x.data.1.data⟩]) := by
  have hserve := State.serve_grants (y := x) htx rfl hd hc (.inr hpoison) hlost hcoh ha
  rw [hg] at hserve
  obtain ⟨k, hsup⟩ := s.supplied_only x
  have hidle : (s.supplied x).ha.Idle := by rw [hsup]; exact ⟨hi.plain, hi.plainWait, hi.resv, hi.work⟩
  rw [State.settle_data hb hk, State.useData_serves hr hhas, hserve, State.afterTxn_idle _ hn]
  · rw [grantAnswer, if_neg hack]
  · exact hidle.lineGranted x r e _

/-- A RD_SHARED whose line reads as poison is answered so, and the line granted to nobody (R225). -/
theorem State.settle_poison (hi : s.ha.Idle) (htx : s.ha.txns = [x]) (hb : x.bad = false) (hk : x.kind = .rdShared) (hr : x.req = some r)
    (hn : x.next = none) (hd : x.stackDue = false) (hf : x.fwd = none) (hs : x.stack.isSome = true) (hc : isCoherent r.op = true)
    (hp : x.data.1.poison = true) :
    (s.settle x).afterTxn x = ((s.noteGiven r false).emit (answerOf s r .poison [⟨0, .poison, false, 0⟩])).withTxns [] := by
  rw [State.settle_data hb hk, State.useData_serves hr (.inr hs), State.serve_poison (by rw [hk]; decide) hf hp, State.homeAnswer_coherent hc,
    State.closeTxn_one (y := x) (hid := rfl) (hd := hd), State.afterTxn_idle _ hn]
  · rfl
  · exact ⟨hi.plain, hi.plainWait, hi.resv, hi.work⟩
  · exact htx

/-! ### A read -/

/-- The transaction whose stack read has come. -/
def Txn.hasRead (x : Txn) (d : PLine) : Txn := { x with stack := some d, stackDue := false }

theorem State.homeRead_comes (htx : s.ha.txns = [x]) (hdue : x.stackDue = true) (hst : x.stack = none) (hw : s.homeWorking (.homeRead x.no) = false) (d : PLine) :
    s.homeRead x.id d =
      if x.busy = .mem then ((s.withTxns [x.hasRead d]).settle (x.hasRead d)).afterTxn (x.hasRead d) else s.withTxns [x.hasRead d] := by
  have hset : s.setTxn (x.hasRead d) = s.withTxns [x.hasRead d] := State.setTxn_one htx rfl
  unfold State.homeRead
  rw [State.txn_one htx]
  simp only [hdue, hst, hw, Option.getD_none, Bool.not_true, Bool.and_false, Bool.or_self, Bool.false_eq_true, if_false]
  rw [← hset]
  rfl

theorem homeReadReturns : Claims.HomeReadReturns := by
  intro s txn x r d hheld htx hplain hwait hresv hwork hworking hlost hid hdue hst hfwd hbad hcorr hnext
  have hidle : s.ha.Idle := ⟨hplain, hwait, hresv, hwork⟩
  set x' := x.hasRead d with hx'
  set z := s.withTxns [x'] with hz
  have hexec : exec (.homeStackReadDone txn d) s = .next (s.homeRead x.id d).releaseHeld := by rw [hid]; rfl
  rw [State.homeRead_comes htx hdue hst hworking, ← hx', ← hz] at hexec
  refine ⟨fun hbusy hkind hgrant hreq hcohop haddr hcoh hagent hentry => ?_, fun hbusy => ?_⟩
  · have hdata : x'.data = (d, false) := (Txn.data_stack (x := x') hfwd rfl).trans (by rw [← hcorr]; rfl)
    have hsup : z.supplied x' = z := State.supplied_stack hfwd
    rw [if_pos hbusy] at hexec
    cases hpoison : d.poison
    · have hg : grantOf x' r.agent (z.entry x'.line) (x'.fwd.map (fun f => f.2)) (s.ha.stamp + 1) = (Entry.sole r.agent true (s.ha.stamp + 1), .dataE) := by
        have hk : x'.kind = .rdShared := hkind
        have hf : x'.fwd = none := hfwd
        have hgr : x'.grant = .dataE := hgrant
        have he : z.entry x'.line = none := hentry
        simp [grantOf, hk, hf, hgr, he]
      rw [State.settle_grants (hidle.withTxns [x']) rfl hbad hkind hreq hnext rfl (.inr rfl) hcohop (by rw [hdata]; exact hpoison) hlost
        ((State.stillCoherent_of_frame (s.withTxns_frame [x']) (r := r)).trans hcoh) hagent hg (by decide), hsup, hdata] at hexec
      rw [State.releaseHeld_none] at hexec
      · refine ⟨_, hexec, rfl, fun _ => ⟨rfl, Entry.sole r.agent true (s.ha.stamp + 1), ?_, rfl, rfl, rfl, rfl, rfl⟩, nofun, ?_⟩
        · exact State.entry_lineGranted_same z x' r _ _
        · exact (((s.withTxns_frame [x']).then (z.lineGranted_frame x' r _ _)).then (State.emit_frame _ _)).mono (by simp)
      · exact hheld
    · rw [State.settle_poison (hidle.withTxns [x']) rfl hbad hkind hreq hnext rfl hfwd rfl hcohop (by rw [hdata]; exact hpoison), State.releaseHeld_none] at hexec
      · refine ⟨_, hexec, rfl, nofun, fun _ => ⟨rfl, hentry⟩, ?_⟩
        exact ((((s.withTxns_frame [x']).then (z.noteGiven_frame r _)).then (State.emit_frame _ _)).then (State.withTxns_frame _ [])).mono (by simp)
      · exact hheld
  · rw [if_neg (by rw [hbusy]; decide), State.releaseHeld_none] at hexec
    · exact ⟨_, hexec, rfl, rfl, s.withTxns_frame _⟩
    · exact hheld

/-! ### A write -/

theorem State.homeWritten_under_way (h : s.homeWorking (.homeWrite x.no) = true) (htx : s.ha.txns = [x]) : s.homeWritten x.id = s := by
  unfold State.homeWritten
  rw [State.txn_one htx]
  exact if_pos (.inr h)

/-- The WR_BACK whose line is written is acknowledged, and the line is stable again (R226). -/
theorem State.homeWritten_done (htx : s.ha.txns = [x]) (hb : x.busy = .wb) (hw : s.homeWorking (.homeWrite x.no) = false) (hk : x.kind = .wrBack)
    (hr : x.req = some r) (hd : x.stackDue = false) :
    s.homeWritten x.id = ((s.withTxns []).homeAnswer r 0 .ack .ok false none).afterTxn x := by
  unfold State.homeWritten
  rw [State.txn_one htx]
  simp only [hb, hw, hk, hr, State.closeTxn_one htx rfl hd, ne_eq, not_true_eq_false, Bool.false_eq_true, or_self, if_false]

theorem homeWriteDone : Claims.HomeWriteDone := by
  intro s txn x r hheld htx hplain hwait hresv hwork hid hbusy hkind hreq hcohop hnext hdue
  have hexec : exec (.homeWritebackDone txn) s = .next (s.homeWritten x.id).releaseHeld := by rw [hid]; rfl
  refine ⟨fun hdone => ?_, fun hunder => ?_⟩
  · rw [State.homeWritten_done htx hbusy hdone hkind hreq hdue, State.homeAnswer_coherent hcohop, State.afterTxn_idle _ hnext, State.releaseHeld_none] at hexec
    · refine ⟨_, hexec, rfl, rfl, ?_⟩
      exact (((s.withTxns_frame []).then (State.noteGiven_frame _ r _)).then (State.emit_frame _ _)).mono (by simp)
    · exact hheld
    · exact ⟨hplain, hwait, hresv, hwork⟩
  · rw [State.homeWritten_under_way hunder htx, State.releaseHeld_none hheld] at hexec
    exact ⟨_, hexec, rfl⟩

/-- Settles O46: a read's line is granted to its one request, or held while answers are awaited, and a WR_BACK's write is acknowledged; no request waits at
the home, so nothing follows. That the commands change nothing while the access is under way is the model's choice (log entry 38). -/
theorem homeStackAccesses : Obligations.HomeStackAccesses := ⟨homeReadReturns, homeWriteDone⟩

end Sys2Proof.Machine

/-!
Snoops (R209, R210, R215-R217, R226): one is presented in its turn, and an answer takes its agent's part out of the transaction that awaits it.
-/
namespace Sys2Proof.Machine
open Sys2Proof

variable {s t : State} {r : HReq} {x : Txn} {e : Entry}

/-! ### A snoop is presented -/

/-- The state with other snoops at the ring stop. -/
def State.withSnoops (s : State) (l : List SnoopSt) : State := { s with snoops := l }

theorem State.withSnoops_frame (s : State) (l : List SnoopSt) : OnlyChanges [.snoops] s (s.withSnoops l) :=
  Fr.only (M := 2 ^ 24) (Fr.upd (Fr.refl s) rfl) (by decide)

/-- An agent's turn at its ring stop, once what came over the ring is held there (R210, R217). -/
def State.presentTo (s : State) (a : Fin 6) : State :=
  match s.snoops.find? (fun x => x.s.agent == 6 * s.t + a && x.shown.isNone) with
  | none => s
  | some x =>
    if 16 ≤ s.unanswered (6 * s.t + a) || s.answerHeld (20 + a) x.s.line x.after then s
    else
      match takeFirst (fun (y : SnoopSt) => y.s.agent == 6 * s.t + a && y.shown.isNone) s.snoops with
      | some (y, rest) =>
        (s.withSnoops (rest.filter (fun z => z.shown.isSome) ++ [{ y with shown := some s.clk.now }] ++ rest.filter (fun z => z.shown.isNone))).emit (.snoop y.s)
      | none => s

theorem exec_snoopPresent (a : Fin 6) (w : List SnoopMsg) (s : State) :
    exec (.snoopPresent ⟨a, w⟩) s = .next ((w.foldl State.snoopArrive s).presentTo a) := rfl

section
variable {a : Fin 6} {y : SnoopSt}

/-- The one snoop that waits for an agent is presented, as no answer to the agent for its line is on its way (R210, R217). -/
theorem State.presentTo_one (hs : s.snoops = [y]) (ha : y.s.agent = 6 * s.t + a) (hn : y.shown = none) (hh : s.answerHeld (20 + a) y.s.line y.after = false) :
    s.presentTo a = (s.withSnoops [{ y with shown := some s.clk.now }]).emit (.snoop y.s) := by
  have hu : ¬ 16 ≤ s.unanswered (6 * s.t + a) := by simp [State.unanswered, hs, hn]
  simp [State.presentTo, hs, ha, hn, hh, hu, takeFirst]

/-- A snoop waits on while a response for its line is on its way to the agent (R217), or 16 are unanswered (R210). -/
theorem State.presentTo_waits (h : ∀ y ∈ s.snoops, 16 ≤ s.unanswered (6 * s.t + a) ∨ s.answerHeld (20 + a) y.s.line y.after = true) :
    s.presentTo a = s := by
  unfold State.presentTo
  split
  · rfl
  · rename_i y hy
    exact if_pos (by simpa using h y (List.mem_of_find?_eq_some hy))

/-- The snoop that a message brings to an agent that it targets (R210, R223, R225). -/
def SnoopMsg.snoopOf (m : SnoopMsg) (g : Nat) : Snoop :=
  { agent := g, ty := if m.sup = some g ∨ m.ty = .down then m.ty else .drop, fwd := m.sup == some g, home := m.home, txn := m.txn, req := m.req, line := m.line }

/-- A message of another home is held for the one agent of this tile that it targets (R210). -/
theorem State.snoopArrive_one {m : SnoopMsg} {g : Nat} (hs : s.snoops = []) (hh : m.home ≠ s.t) (hn : m.home < s.n) (hx : m.txn < 256)
    (hg : m.targets = [g]) (hown : g / 6 = s.t) :
    s.snoopArrive m = s.withSnoops [{ s := m.snoopOf g, shown := none, done := false, after := (m.after.find? (fun e => e.1 == g)).map (fun e => e.2) }] := by
  have hno : ¬(m.home = s.t ∨ s.n ≤ m.home ∨ 256 ≤ m.txn ∨ (s.snoops.any fun x => x.s.home == m.home && x.s.txn == m.txn) = true) := by
    simp [hs, hh, hn, hx]
  rw [State.snoopArrive, if_neg hno]
  simp only [State.holdSnoops, hs, hg, hown, List.filter_cons, List.filter_nil, beq_self_eq_true, if_true, List.map_cons, List.map_nil, List.nil_append]
  rfl

theorem State.answerHeld_none {k : Nat} (hf : (s.port k).fifo = []) (ho : (s.port k).onward = []) (line : Nat) (after : Option Nat) :
    s.answerHeld k line after = false := by
  simp [State.answerHeld, hf, ho]

theorem snoopPresented : Claims.SnoopPresented := by
  intro s a x hagent hshown
  have hexec : exec (.snoopPresent { agent := a }) s = .next (s.presentTo a) := exec_snoopPresent a [] s
  refine ⟨fun hs hh => ?_, fun hs hh => ?_, fun h16 => ?_, fun m hs hfifo honward hhome hn htxn htargets => ?_⟩
  · rw [State.presentTo_one hs hagent hshown hh] at hexec
    exact ⟨_, hexec, rfl, rfl, ((s.withSnoops_frame _).then (State.emit_frame _ _)).mono (by simp)⟩
  · rw [State.presentTo_waits (by simp [hs, hh])] at hexec
    exact ⟨s, hexec, rfl⟩
  · rw [State.presentTo_waits fun _ _ => .inl h16] at hexec
    exact ⟨s, hexec, rfl⟩
  · have hown : (6 * s.t + a.val) / 6 = s.t := by omega
    set n := m.snoopOf (6 * s.t + a.val) with hnm
    set y : SnoopSt := { s := n, shown := none, done := false, after := (m.after.find? (fun e => e.1 == 6 * s.t + a.val)).map (fun e => e.2) } with hy
    have hz : [m].foldl State.snoopArrive s = s.withSnoops [y] := State.snoopArrive_one hs hhome hn htxn htargets hown
    have hturn : (s.withSnoops [y]).presentTo a = ((s.withSnoops [y]).withSnoops [{ y with shown := some s.clk.now }]).emit (.snoop n) :=
      State.presentTo_one rfl rfl rfl (State.answerHeld_none hfifo honward _ _)
    refine ⟨_, (exec_snoopPresent a [m] s).trans (by rw [hz, hturn]), ⟨n, rfl, rfl, rfl, rfl, rfl, rfl, rfl, rfl, _, rfl, rfl, rfl, rfl⟩, ?_⟩
    exact (((s.withSnoops_frame _).then (State.withSnoops_frame _ _)).then (State.emit_frame _ _)).mono (by simp)
end

/-! ### What an answer leaves -/

/-- The transaction once an agent's answer has come: what the supplier or another holder brought, and whether data is lost (R226). -/
def Txn.heard (x : Txn) (a : Nat) (ans : SnpAns) (dirty : Bool) (d : Line) (bad : Bool) : Txn :=
  let x1 := { x with wait := x.wait.filter (fun b => b ≠ a), bad := x.bad || bad }
  if ans = .fwd then (if x.sup = some a then { x1 with fwd := some (d, dirty) } else if dirty then { x1 with dropped := some d } else x1) else x1

theorem Txn.id_heard (x : Txn) (a : Nat) (ans : SnpAns) (dirty : Bool) (d : Line) (bad : Bool) : (x.heard a ans dirty d bad).id = x.id := by
  unfold Txn.heard
  split
  · split
    · rfl
    · split <;> rfl
  · rfl

/-- An answer of this tile's agent to this tile's home, whose ring stop holds no snoop, goes straight to the home (R210). -/
theorem State.agentReply_home (hs : s.snoops = []) {n : SnpName} (hn : n.home.val = s.t) (a : Nat) (ans : SnpAns) (keep : CState) (dirty : Bool) (d : Line)
    (zero : Bool) : s.agentReply a n ans keep dirty d zero = s.snoopAnswer a n.txn.toNat ans keep dirty d zero := by
  simp only [State.agentReply, hs, takeFirst, if_pos hn]

/-- What an answer that loses data or reports an error logs (R226, R241). -/
def State.answerNoted (s : State) (a : Nat) (x : Txn) (ans : SnpAns) (bad zero : Bool) : State :=
  if bad || zero then s.violation a x.line (16 + (if zero then 0 else match ans with | .gone => 1 | .kept => 2 | .fwd => 3)) 4 else s

/-- An answer that the one transaction awaits (R226): the entry and the transaction follow it, and with the last one the transaction settles. -/
theorem State.snoopAnswer_one (htx : s.ha.txns = [x]) (hb : x.busy = .snp) {a : Nat} (hw : a ∈ x.wait) (he : s.entry x.line = some e)
    (ans : SnpAns) (keep : CState) (dirty : Bool) (d : Line) (zero : Bool) :
    s.snoopAnswer a x.id ans keep dirty d zero =
      (let bad := losesData (some e) a ans dirty zero && x.kind != .heal && x.kind != .hold && x.kind != .forget
       let z := ((s.answerNoted a x ans bad zero).setEntry x.line (answered e a ans keep)).setTxn (x.heard a ans dirty d bad)
       if (x.heard a ans dirty d bad).wait.isEmpty then (z.settle (x.heard a ans dirty d bad)).afterTxn (x.heard a ans dirty d bad) else z) := by
  have hawaited : ¬(x.busy ≠ .snp ∨ (!x.wait.contains a) = true) := by simp [hb, hw]
  unfold State.snoopAnswer
  rw [State.txn_one htx]
  refine (if_neg hawaited).trans ?_
  simp only [he]
  rfl
end Sys2Proof.Machine

/-!
The answers to a snoop (R215, R216, R223-R226): what one that is not the last leaves, and what the last one completes.
-/
namespace Sys2Proof.Machine
open Sys2Proof

variable {s t : State} {r : HReq} {x : Txn} {e : Entry} {a b : Nat}

/-! ### The entry after an answer -/

/-- The agent that owns a line. -/
def Entry.OwnedBy (e : Entry) (a : Nat) : Prop := e.kind ≠ .none ∧ e.owner = a

theorem Entry.drop_owned (h : e.OwnedBy a) : e.drop a = { e with present := setBit e.present a false, kind := .none, owner := 0 } := by
  obtain ⟨hk, ho⟩ := h
  simp [Entry.drop, hk, ho]

theorem Entry.drop_shared (h : ¬e.OwnedBy a) : e.drop a = { e with present := setBit e.present a false } := by
  have hown : ¬(e.kind != .none && e.owner == a) = true := by simpa [Entry.OwnedBy] using h
  simp only [Entry.drop, if_neg hown]

/-- RplKept of the owner ends its ownership (R226). -/
theorem answered_kept_owned (h : e.OwnedBy a) (keep : CState) : answered e a .kept keep = { e with kind := .none, owner := 0 } := by
  obtain ⟨hk, ho⟩ := h
  simp [answered, hk, ho]

theorem answered_kept_shared (h : ¬e.OwnedBy a) (keep : CState) : answered e a .kept keep = e := by
  have hown : ¬(e.kind != .none && e.owner == a) = true := by simpa [Entry.OwnedBy] using h
  simp only [answered, if_neg hown]

/-- Only an owner of kind O loses data by what it answers (R226). -/
theorem losesData_none (h : e.kind = .o → e.owner ≠ a) (ans : SnpAns) (dirty : Bool) : losesData (some e) a ans dirty false = false := by
  by_cases hk : e.kind = .o
  · simp [losesData, h hk]
  · simp [losesData, hk]

/-! ### The transaction after an answer -/

theorem Txn.heard_other {ans : SnpAns} (h : ans ≠ .fwd) (dirty : Bool) (d : Line) :
    x.heard a ans dirty d false = { x with wait := x.wait.filter (fun b => b ≠ a) } := by
  simp [Txn.heard, h]

theorem Txn.heard_supplier (h : x.sup = some a) (dirty : Bool) (d : Line) :
    x.heard a .fwd dirty d false = { x with wait := x.wait.filter (fun b => b ≠ a), fwd := some (d, dirty) } := by
  simp [Txn.heard, h]

theorem filter_first (h : b ≠ a) : [a, b].filter (fun c => c ≠ a) = [b] := by simp [h]

theorem filter_only (a : Nat) : [a].filter (fun c => c ≠ a) = [] := by simp

theorem Txn.wait_heard (x : Txn) (a : Nat) (ans : SnpAns) (dirty : Bool) (d : Line) (bad : Bool) :
    (x.heard a ans dirty d bad).wait = x.wait.filter (fun b => b ≠ a) := by
  unfold Txn.heard
  split
  · split
    · rfl
    · split <;> rfl
  · rfl

/-- What an answer that loses nothing leaves at the home, its transaction not yet settled (R226). -/
def State.heardFrom (s : State) (x : Txn) (e : Entry) (y : Txn) : State := (s.setEntry x.line e).withTxns [y]

theorem State.heardFrom_frame (s : State) (x : Txn) (e : Entry) (y : Txn) : OnlyChanges [.ha] s (s.heardFrom x e y) :=
  ((s.setEntry_frame x.line e).then (State.withTxns_frame _ [y])).mono (by simp)

theorem State.entry_heardFrom_same {y : Txn} (h : e.present ≠ 0) : (s.heardFrom x e y).entry x.line = some e := State.entry_setEntry_same h

theorem State.entry_heardFrom_freed {y : Txn} (h : e.present = 0) : (s.heardFrom x e y).entry x.line = none := State.entry_setEntry_freed h

theorem State.entry_heardFrom_ne {l : Nat} (y : Txn) (h : l ≠ x.line) : (s.heardFrom x e y).entry l = s.entry l := State.entry_setEntry_ne e h

section
variable {n : SnpName} {ans : SnpAns} (hs : s.snoops = []) (htx : s.ha.txns = [x]) (hn : n.home.val = s.t) (hid : x.id = n.txn.toNat) (hb : x.busy = .snp)
  (he : s.entry x.line = some e) (hl : e.kind = .o → e.owner ≠ a)
include hs htx hn hid hb he hl

/-- An answer of an agent that loses nothing (R226). -/
theorem State.agentReply_one (hw : a ∈ x.wait) (keep : CState) (dirty : Bool) (d : Line) :
    s.agentReply a n ans keep dirty d false =
      (let y := x.heard a ans dirty d false
       let z := s.heardFrom x (answered e a ans keep) y
       if y.wait.isEmpty then (z.settle y).afterTxn y else z) := by
  rw [State.agentReply_home hs hn, ← hid, State.snoopAnswer_one htx hb hw he]
  have hz : ∀ y : Txn, y.id = x.id → (s.setEntry x.line (answered e a ans keep)).setTxn y = s.heardFrom x (answered e a ans keep) y :=
    fun y hy => State.setTxn_one (x := x) htx hy
  simp only [losesData_none hl, Bool.false_and, State.answerNoted, Bool.or_self, Bool.false_eq_true, if_false, hz _ (Txn.id_heard x a ans dirty d false)]

/-- Such an answer that is not the last (R226). -/
theorem State.agentReply_waits (hw : x.wait = [a, b]) (hba : b ≠ a) (keep : CState) (dirty : Bool) (d : Line) :
    s.agentReply a n ans keep dirty d false = s.heardFrom x (answered e a ans keep) (x.heard a ans dirty d false) := by
  have hy : (x.heard a ans dirty d false).wait = [b] := by rw [Txn.wait_heard, hw, filter_first hba]
  rw [State.agentReply_one hs htx hn hid hb he hl (by simp [hw])]
  simp [hy]

/-- Such an answer that is the last (R226). -/
theorem State.agentReply_last (hw : x.wait = [a]) (keep : CState) (dirty : Bool) (d : Line) :
    s.agentReply a n ans keep dirty d false =
      (let y := x.heard a ans dirty d false
       ((s.heardFrom x (answered e a ans keep) y).settle y).afterTxn y) := by
  have hy : (x.heard a ans dirty d false).wait = [] := by rw [Txn.wait_heard, hw, filter_only]
  rw [State.agentReply_one hs htx hn hid hb he hl (by simp [hw])]
  simp [hy]
end

theorem snoopAnswers : Claims.SnoopAnswers := by
  intro s n x e a b hs hheld htx hhome hid hb hw hba he hbit hb48 hl
  dsimp only
  have hleft : bit (setBit e.present a.val false) b = true := by rw [bit_setBit _ _ _ _ hb48, if_neg hba.symm]; exact hbit
  have hwait : x.wait.filter (fun c => c ≠ a.val) = [b] := by rw [hw, filter_first hba]
  have hwaits : ∀ (ans : SnpAns) (keep : CState) (dirty : Bool) (d : Line), (s.agentReply a n ans keep dirty d false).releaseHeld =
      s.heardFrom x (answered e a ans keep) (x.heard a ans dirty d false) := fun ans keep dirty d => by
    rw [State.agentReply_waits hs htx hhome hid hb he hl hw hba]
    exact State.releaseHeld_none hheld
  have hkept : e.present ≠ 0 := ne_zero_of_bit hbit
  have hdropped : (e.drop a).present ≠ 0 := ne_zero_of_bit hleft
  refine ⟨⟨_, congrArg Host.Outcome.next (hwaits .gone .i false 0), ?_⟩, ⟨_, congrArg Host.Outcome.next (hwaits .kept .s false 0), ?_⟩,
    fun dirty d hsup => ⟨_, congrArg Host.Outcome.next (hwaits .fwd .i dirty d), ?_⟩⟩
  · rw [Txn.heard_other (by decide), hwait]
    refine ⟨rfl, ⟨e.drop a, State.entry_heardFrom_same hdropped, rfl, fun h => ?_, fun h => ?_, rfl, rfl⟩, fun l h => State.entry_heardFrom_ne _ h,
      s.heardFrom_frame _ _ _⟩
    · rw [Entry.drop_owned h]
    · rw [Entry.drop_shared h]
      exact ⟨rfl, rfl⟩
  · rw [Txn.heard_other (by decide), hwait]
    refine ⟨rfl, ?_, s.heardFrom_frame _ _ _⟩
    by_cases h : e.OwnedBy a
    · rw [answered_kept_owned h]
      exact ⟨_, State.entry_heardFrom_same hkept, rfl, fun _ => rfl, fun hno => absurd h hno⟩
    · rw [answered_kept_shared h]
      exact ⟨e, State.entry_heardFrom_same hkept, rfl, fun hown => absurd hown h, fun _ => rfl⟩
  · rw [Txn.heard_supplier hsup, hwait]
    exact ⟨rfl, ⟨e.drop a, State.entry_heardFrom_same hdropped, rfl⟩, s.heardFrom_frame _ _ _⟩

/-! ### The last answer -/

/-- While a transaction is open, nothing follows it. -/
theorem State.afterTxn_open {y : Txn} (h : s.ha.txns = [y]) (hid : y.id = x.id) (hl : y.line = x.line) : s.afterTxn x = s := by
  unfold State.afterTxn
  exact if_pos (by simp [h, hid, hl])

theorem Txn.data_fwd {d : Line} {dirty : Bool} (h : x.fwd = some (d, dirty)) : x.data = (⟨d, false⟩, false) := by simp [Txn.data, h]

theorem State.supplied_frame (s : State) (x : Txn) : OnlyChanges [.ctr] s (s.supplied x) := by
  obtain ⟨c, hc⟩ := s.supplied_only x
  rw [hc]
  exact s.ctr_frame c

/-- What a supplier's last answer leaves: the line's requester has the data, and the home its entry (R225, R226). -/
theorem State.granted_frame (s : State) (x y : Txn) (r : HReq) (e e' : Entry) (note : Bool) (o : Out) :
    OnlyChanges [.ha, .ctr, .out] s ((((s.heardFrom x e y).supplied y).lineGranted y r e' note).emit o) :=
  ((((s.heardFrom_frame x e y).then (State.supplied_frame _ y)).then (State.lineGranted_frame _ y r e' note)).then (State.emit_frame _ o)).mono (by simp)

/-- A request that a cache supplies is counted once (R240). -/
theorem State.granted_counted (s : State) (x : Txn) {y : Txn} (hy : y.fwd.isSome = true) (r : HReq) (e e' : Entry) (note : Bool) (o : Out) :
    s.counted ((((s.heardFrom x e y).supplied y).lineGranted y r e' note).emit o) 0x5002 9 1 := by
  have hsup : (s.heardFrom x e y).supplied y = (s.heardFrom x e y).count 0x5002 9 := if_pos hy
  rw [hsup]
  exact State.counted_then (State.counted_of_frame (s.heardFrom_frame x e y) (State.counted_count _ _ _ _))
    (((State.lineGranted_frame _ y r e' note).then (State.emit_frame _ o)).mono (m := [.ha, .out]) (by simp))

/-- One agent, the owner of kind X, has still to answer the one RD_SHARED at this home, and nothing else waits here (R226). -/
structure State.AwaitsOwner (s : State) (n : SnpName) (x : Txn) (e : Entry) (a : Fin 48) (r : HReq) : Prop where
  snoops : s.snoops = []
  held : s.ha.held = []
  lost : s.lostLine x.line = none
  txns : s.ha.txns = [x]
  idle : s.ha.Idle
  home : n.home.val = s.t
  id : x.id = n.txn.toNat
  busy : x.busy = .snp
  kind : x.kind = .rdShared
  wait : x.wait = [a.val]
  sup : x.sup = some a.val
  req : x.req = some r
  next : x.next = none
  stack : x.stack = none
  due : x.stackDue = false
  fwd : x.fwd = none
  bad : x.bad = false
  op : isCoherent r.op = true
  coherent : s.stillCoherent r = true
  agent : r.agent < 48
  entry : s.entry x.line = some e
  ekind : e.kind = .x
  owner : e.owner = a.val
  present : e.present = setBit 0 a true

section
variable {n : SnpName} {x : Txn} {e : Entry} {a : Fin 48} {r : HReq}

theorem State.AwaitsOwner.reply (h : s.AwaitsOwner n x e a r) (ans : SnpAns) (keep : CState) (dirty : Bool) (d : Line) :
    s.agentReply a n ans keep dirty d false =
      (let y := x.heard a ans dirty d false
       ((s.heardFrom x (answered e a ans keep) y).settle y).afterTxn y) := by
  have hno : e.kind = .o → e.owner ≠ a.val := fun hk => by rw [h.ekind] at hk; cases hk
  exact State.agentReply_last h.snoops h.txns h.home h.id h.busy h.entry hno h.wait keep dirty d

/-- The owner's data goes to the requester, whose entry the transfer table gives (R223, R225, R226). -/
theorem State.AwaitsOwner.forwards (h : s.AwaitsOwner n x e a r) {keep : CState} {dirty : Bool} {d : Line} {e' : Entry} {c : Cresp}
    (hpres : (answered e a .fwd keep).present = setBit 0 a true) (hack : c ≠ .ack)
    (hg : ∀ y : Txn, y.kind = .rdShared → grantOf y r.agent (some (answered e a .fwd keep)) (some dirty) (s.ha.stamp + 1) = (e', c)) :
    Completes (.rplFwd a n keep dirty d) s fun t => t.out = s.out ++ [answerOf s r c [⟨0, .ok, false, d⟩]] ∧ t.ha.txns = [] ∧
      t.entry x.line = some e' ∧ s.counted t 0x5002 9 1 ∧ OnlyChanges [.ha, .ctr, .out] s t := by
  set y : Txn := { x with wait := [], fwd := some (d, dirty) } with hy
  set e1 := answered e a .fwd keep with he1
  set z := s.heardFrom x e1 y with hz
  have hheard : x.heard a .fwd dirty d false = y := by rw [Txn.heard_supplier h.sup, h.wait, filter_only]
  have hze : z.entry y.line = some e1 :=
    State.entry_heardFrom_same (ne_zero_of_bit (a := a.val) (by rw [hpres, bit_setBit _ _ _ _ a.isLt, if_pos rfl]))
  have hcoh : z.stillCoherent r = true := (State.stillCoherent_of_frame (s.heardFrom_frame x e1 y) (r := r)).trans h.coherent
  have hdata : y.data = (⟨d, false⟩, false) := Txn.data_fwd rfl
  have hset := State.settle_grants (s := z) (x := y) (e := e') (c := c) ⟨h.idle.plain, h.idle.plainWait, h.idle.resv, h.idle.work⟩ rfl h.bad h.kind h.req
    h.next h.due (.inl rfl) h.op (by rw [hdata]) h.lost hcoh h.agent (by rw [hze]; exact hg y h.kind) hack
  rw [hdata] at hset
  have hha : (z.supplied y).ha = z.ha := (z.supplied_frame y) .ha (by simp)
  have hout : (z.supplied y).out = s.out := (z.supplied_frame y) .out (by simp)
  set w := ((z.supplied y).lineGranted y r e' (crespData c || (c == .ack && r.op == .upgrade))).emit (answerOf z r c [⟨0, .ok, false, d⟩]) with hw
  have hreply : s.agentReply a n .fwd keep dirty d false = w := by
    rw [h.reply, hheard]
    exact hset
  have hfree : w.ha.held = [] := (congrArg Home.held hha).trans h.held
  have hexec : exec (.rplFwd a n keep dirty d) s = .next w :=
    congrArg Host.Outcome.next ((congrArg State.releaseHeld hreply).trans (State.releaseHeld_none hfree))
  refine ⟨w, hexec, ?_, rfl, State.entry_lineGranted_same _ y r e' _, s.granted_counted x rfl r e1 e' _ _, s.granted_frame x y r e1 e' _ _⟩
  exact congrArg (· ++ [answerOf s r c [⟨0, .ok, false, d⟩]]) hout

/-- An owner that gave the line up has no data: the stack is read for the request (R224, R226). -/
theorem State.AwaitsOwner.gone (h : s.AwaitsOwner n x e a r) (hown : s.ownLine x.line) (hten : bit (s.tenantWord r.tenant) 15 = true) :
    Completes (.rplGone a n) s fun t =>
      (∃ x', t.ha.txns = [x'] ∧ x'.id = x.id ∧ x'.busy = .mem ∧ x'.stackDue = true ∧ x'.wait = [] ∧ x'.req = some r) ∧
      t.entry x.line = none ∧ t.out = s.out ∧ OnlyChanges [.ha, .sched, .queues] s t := by
  set y : Txn := { x with wait := [] } with hy
  set z := s.heardFrom x (e.drop a) y with hz
  set y' : Txn := { y with busy := .mem, stackDue := true } with hy'
  set w := (z.withTxns [y']).queueHome (s.lineReq (some r) x.line .read []) (.homeRead x.no) with hw
  have hheard : x.heard a .gone false 0 false = y := by rw [Txn.heard_other (by decide), h.wait, filter_only]
  have hfreed : (e.drop a).present = 0 := by
    show setBit e.present a false = 0
    rw [h.present, setBit_clear_one]
  have huse : z.useData y = w := State.useData_reads (y := y) rfl rfl h.req h.fwd h.stack h.due (show z.ownLine y.line from hown) hten
  have hwf : OnlyChanges [.sched, .queues] (z.withTxns [y']) w := (State.homeRead_joins (s := z.withTxns [y']) (r := r) x.no hown hten).1
  have hha : w.ha = (z.withTxns [y']).ha := hwf .ha (by simp)
  have htxns : w.ha.txns = [y'] := congrArg Home.txns hha
  have hreply : s.agentReply a n .gone .i false 0 false = w := by
    rw [h.reply, hheard]
    show (z.settle y).afterTxn y = w
    rw [State.settle_data (x := y) h.bad h.kind, huse]
    exact State.afterTxn_open (x := y) htxns rfl rfl
  have hexec : exec (.rplGone a n) s = .next w :=
    congrArg Host.Outcome.next ((congrArg State.releaseHeld hreply).trans (State.releaseHeld_none ((congrArg Home.held hha).trans h.held)))
  refine ⟨w, hexec, ⟨y', htxns, rfl, rfl, rfl, rfl, h.req⟩, ?_, hwf .out (by simp),
    (((s.heardFrom_frame x _ y).then (State.withTxns_frame _ _)).then hwf).mono (by simp)⟩
  rw [State.entry_of_frame hwf]
  exact State.entry_heardFrom_freed hfreed
end

theorem lastAnswerCompletes : Claims.LastAnswerCompletes := by
  intro s n x e a r d hs hheld hlost htx hplain hwait hresv hwork hhome hid hb hkind hw hsup hreq hnext hstack hdue hfwd _ hbad _ hc _ hcoh hagent _ he hek
    heo hep _
  have h : s.AwaitsOwner n x e a r :=
    ⟨hs, hheld, hlost, htx, ⟨hplain, hwait, hresv, hwork⟩, hhome, hid, hb, hkind, hw, hsup, hreq, hnext, hstack, hdue, hfwd, hbad, hc, hcoh,
      hagent, he, hek, heo, hep⟩
  refine ⟨?_, ?_, fun hpar htile hret hten => h.gone ⟨hpar, htile, hret⟩ hten⟩
  · obtain ⟨t, hexec, hout, htxns, hent, hcount, hfr⟩ := h.forwards (keep := .o) (dirty := true) (d := d)
      (e' := { e with kind := .o, owner := a.val, present := setBit e.present r.agent true, used := s.ha.stamp + 1, cur := false }) (c := .dataO) hep (by decide)
      fun y hy => by simp [grantOf, hy, answered]
    exact ⟨t, hexec, hout, htxns, ⟨_, hent, rfl, rfl, by rw [← hep], rfl⟩, hcount, hfr .store (by simp), hfr⟩
  · have hans : answered e a .fwd .s = { e with kind := .none, owner := 0 } := by simp [answered, hek, heo]
    obtain ⟨t, hexec, hout, htxns, hent, -, hfr⟩ := h.forwards (keep := .s) (dirty := false) (d := d)
      (e' := { e with kind := .none, owner := 0, present := setBit e.present r.agent true, used := s.ha.stamp + 1 }) (c := .dataS) (by rw [hans]; exact hep)
      (by decide) fun y hy => by simp [grantOf, hy, hans]
    exact ⟨t, hexec, hout, htxns, ⟨_, hent, rfl, by rw [← hep], rfl⟩, hfr⟩

/-! ### An answer with RESP 0 -/

theorem State.violation_frame (s : State) (a line msg st : Nat) : OnlyChanges [.log, .maint, .out] s (s.violation a line msg st) := State.logLim_frame _ _ _ _ _ _

/-- A limited event that was not yet logged is the last one logged (R405). -/
theorem State.logLim_last {code key n w : Nat} {args : Nat → List Word} (hd : s.dom 1 = true) (h : SMap.look s.log.seen (limKey code key) = none) :
    (s.logLim code key n w args).log.entries.getLast? = some (s.event code (args (s.log.held.getD (limKey code key) 0))) := by
  have hdue : s.limDue (limKey code key) n := fun f hf => by rw [h] at hf; cases hf
  rw [(State.logLim_due w args hdue).1, State.log1_logs hd, Log.getLast_push]

/-- A violation of the protocol is logged with its agent, line, message and state (R241). -/
theorem State.violation_logs {a line msg st : Nat} (hd : s.dom 1 = true) (h : SMap.look s.log.seen (limKey 0x0A03 a) = none) :
    (s.violation a line msg st).log.entries.getLast? = some (s.event 0x0A03 ([w16 a] ++ wordsOf 3 line ++ [Config.msgCode msg, Config.homeCode st])) :=
  State.logLim_last hd h

/-- The agent that an answer goes to follows the ring (R14). -/
theorem answerWith_of_frame {fs : List Field} (k : OnlyChanges fs s t) (r : HReq) (c : Cresp) (l : List LineAns) (hi : .ident ∉ fs := by simp)
    (hp : .repair ∉ fs := by simp) : answerOf t r c l = answerOf s r c l := by
  rw [answerOf, answerOf, State.arcTo_of_frame k hi hp]

/-- What a transaction whose data is lost ends with: its request is answered Poison, a write of its line as poison waits and its entry is freed (R225, R226). -/
theorem State.endBad_says (hi : s.ha.Idle) (htx : s.ha.txns = [x]) (hr : x.req = some r) (hk : x.kind ≠ .plainWrite) (hc : isCoherent r.op = true)
    (hd : x.stackDue = false) (hplace : s.ordinaryHere x.line) :
    let z := s.endBad x
    z.out = s.out ++ [answerOf s r .poison [⟨0, .poison, false, 0⟩]] ∧ z.ha.txns = [] ∧ z.ha.Idle ∧ z.ha.held = s.ha.held ∧ z.entry x.line = none ∧
      s.poisonWaits z x.line ∧ OnlyChanges [.ha, .sched, .out] s z := by
  intro z
  obtain ⟨hpf, hwaits⟩ := State.homePoison_waits hplace
  set s1 := s.homePoison x.line with hs1
  have hha : s1.ha = s.ha := hpf .ha (by simp)
  set s2 := (s1.freeEntryOf x.line).withTxns [] with hs2
  have h2 : OnlyChanges [.ha] s1 s2 := ((s1.ha_frame _).then (State.withTxns_frame _ [])).mono (by simp)
  have hclose : (s1.freeEntryOf x.line).closeTxn x = s2 := State.closeTxn_one (y := x) (h := (congrArg Home.txns hha).trans htx) (hid := rfl) (hd := hd)
  have hz : z = (s2.noteGiven r false).emit (answerOf s r .poison [⟨0, .poison, false, 0⟩]) := by
    show s.endBad x = _
    have hans : answerOf s2 r .poison [⟨0, .poison, false, 0⟩] = answerOf s r .poison [⟨0, .poison, false, 0⟩] := answerWith_of_frame (hpf.then h2) r _ _
    unfold State.endBad
    simp only [hr, if_neg hk, ← hs1, hclose]
    rw [State.homeAnswer_coherent hc, hans]
    rfl
  have h3 : OnlyChanges [.ha, .out] s1 z := by
    rw [hz]
    exact ((h2.then (State.noteGiven_frame _ r false)).then (State.emit_frame _ _)).mono (by simp)
  have hzha : z.ha = { s.ha with filter := SMap.del s.ha.filter x.line, txns := [], given := z.ha.given } := by
    rw [hz, ← hha]
    rfl
  have hout : z.out = s2.out ++ [answerOf s r .poison [⟨0, .poison, false, 0⟩]] := by rw [hz]; rfl
  have hout2 : s2.out = s.out := (hpf.then h2) .out (by simp)
  refine ⟨by rw [hout, hout2], by rw [hzha], ?_, by rw [hzha], ?_, State.poisonWaits_then hwaits h3, (hpf.then h3).mono (by simp)⟩
  · rw [hzha]
    exact ⟨hi.plain, hi.plainWait, hi.resv, hi.work⟩
  · rw [State.entry, hzha]
    exact SMap.look_del_same _ _

theorem zeroAnswerLosesOwner : Claims.ZeroAnswerLosesOwner := by
  intro s n x e a r hdom hs hheld htx hplain hwait hresv hwork hhome hid hb hkind hw hreq hnext hdue hc he hek heo hep hplace hlim
  set v := s.violation a x.line 16 4 with hv
  have hvf : OnlyChanges [.log, .maint, .out] s v := s.violation_frame a x.line 16 4
  have hha : v.ha = s.ha := hvf .ha (by simp)
  set y : Txn := { x with wait := [], bad := true } with hy
  set z := v.heardFrom x (e.drop a) y with hz
  have hzf : OnlyChanges [.ha] v z := v.heardFrom_frame x (e.drop a) y
  have hlost : losesData (some e) a .gone false true = true := by simp [losesData, heo, hek]
  have hheard : x.heard a .gone false 0 true = y := by simp [Txn.heard, hw, hy]
  have hset : (v.setEntry x.line (e.drop a)).setTxn y = z := State.setTxn_one (x := x) ((congrArg Home.txns hha).trans htx) rfl
  have hidle : z.ha.Idle := ⟨(congrArg Home.plain hha).trans hplain, (congrArg Home.plainWait hha).trans hwait, (congrArg Home.resv hha).trans hresv,
    (congrArg Home.work hha).trans hwork⟩
  have hzplace : z.ordinaryHere y.line := State.ordinaryHere_of_frame (hvf.then hzf) (show s.ordinaryHere y.line from hplace)
  obtain ⟨hout, htxns, hidle', hheld', hfreed, hwaits, hbf⟩ := State.endBad_says (s := z) (x := y) hidle rfl hreq (by rw [hkind]; decide) hc hdue hzplace
  have hreply : s.agentReply a n .gone .i false 0 true = z.endBad y := by
    rw [State.agentReply_home hs hhome, ← hid, State.snoopAnswer_one htx hb (by simp [hw]) he]
    have hbad : (losesData (some e) a .gone false true && x.kind != .heal && x.kind != .hold && x.kind != .forget) = true := by rw [hlost, hkind]; rfl
    simp only [hbad, hheard]
    show ((((v.setEntry x.line (e.drop a)).setTxn y).settle y).afterTxn y) = _
    rw [hset]
    exact State.afterTxn_idle (x := y) hidle' hnext
  have hexec : exec (.respZeroAnswer a n) s = .next (z.endBad y) :=
    congrArg Host.Outcome.next ((congrArg State.releaseHeld hreply).trans (State.releaseHeld_none (hheld'.trans ((congrArg Home.held hha).trans hheld))))
  have hall : OnlyChanges [.log, .maint, .out, .ha] s z := (hvf.then hzf).mono (by simp)
  refine ⟨z.endBad y, hexec, ?_, htxns, hfreed, State.poisonWaits_of_frame hall hwaits, ?_, (hall.then hbf).mono (by simp)⟩
  · rw [hout, answerWith_of_frame hall]
    exact List.mem_append_right _ (.head _)
  · have hlog : (z.endBad y).log = v.log := (hbf .log (by simp)).trans (hzf .log (by simp))
    rw [hlog]
    exact State.violation_logs hdom hlim

/-- Settles O45: one snoop in its turn, the answers to it in the order of R226's table, and what a violation loses. The three-word line address of event 0x0A03
is the model's choice (log entry 63), as is the write of poison as a part of its own (log entry 75). -/
theorem snoopsAndAnswers : Obligations.SnoopsAndAnswers := ⟨snoopPresented, snoopAnswers, lastAnswerCompletes, zeroAnswerLosesOwner⟩

end Sys2Proof.Machine

/-!
Requests at their home (R218, R220-R226): one on a line in a stable state is ordered, one on a busy line is retried, and one that lacks what it needs is held.
-/
namespace Sys2Proof.Machine
open Sys2Proof

variable {s t : State} {r : HReq} {e : Entry} {l : Nat}

/-! ### A request comes to the home agent -/

/-- A coherent request that nothing holds back comes to the home agent (R218). -/
theorem State.homeArrive_coherent (hf : s.repair.fenced = none) (hw : s.mustWait r = false) (hi : internalPort r.port = false) (hc : r.coherent = true)
    (hop : isCoherent r.op = true) : s.homeArrive r = s.arriveCoherent r := by
  have hp : r.port.val ≠ 28 := fun h => by simp [internalPort, h] at hi
  simp [State.homeArrive, hf, hw, State.takeRequest, hp, hc, hop]

theorem State.heal1_busy (h : s.lineBusy l = true) : s.heal1 l = s := by simp [State.heal1, h]

/-- A line in a transient state takes no further coherent request (R221). -/
theorem State.arriveCoherent_busy (h : s.lineBusy r.line = true) : ∃ b, s.arriveCoherent r = s.retry r b := by
  unfold State.arriveCoherent
  split
  · exact ⟨false, rfl⟩
  · simp only [State.heal1_busy h, h, Bool.true_or, if_true]
    exact ⟨true, rfl⟩

theorem bit_noAgent (a : Nat) : bit (0 : BitVec 48) a = false := by simp [bit]

/-- At a quiet home a coherent request is ordered at once (R221). -/
theorem State.arriveCoherent_quiet (h : s.quietHome) : s.arriveCoherent r = (s.order r 0).afterFree r.line := by
  obtain ⟨htx, -, -, hresv, -, hheal, -, hdead⟩ := h
  have hh : s.heal1 r.line = s := by simp [State.heal1, hheal]
  have hb : (s.lineBusy r.line || decide (256 ≤ s.trackerUsed)) = false := by simp [State.lineBusy_empty htx, State.trackerUsed_empty htx]
  have hd : bit s.ha.dead r.agent = false := by rw [hdead, bit_noAgent]
  unfold State.arriveCoherent
  simp only [hd, hh, hb, State.oldest_none hresv, Bool.false_eq_true, if_false]

theorem State.quietHome.txns (h : s.quietHome) : s.ha.txns = [] := h.left

theorem State.quietHome.idle (h : s.quietHome) : s.ha.Idle := by
  obtain ⟨-, hp, hw, hr, hwork, -⟩ := h
  exact ⟨hp, hw, hr, hwork⟩

/-! ### Its order -/

theorem agentsOf_none (m : BitVec 48) : agentsOf (m &&& 0) = [] := by
  have hm : m &&& 0 = 0 := BitVec.and_zero
  rw [hm]
  decide

/-- Without dead agents the reclaim takes nothing from a line (R233). -/
theorem State.reclaim_none (h : s.ha.dead = 0) (l : Nat) : s.reclaim l = s := by
  unfold State.reclaim
  split
  · rfl
  · rw [h, agentsOf_none, List.foldl_nil]

theorem State.classify1_none (h : s.ha.classify = false) (l : Nat) : s.classify1 l = s := by simp [State.classify1, h]

theorem State.lostLine_ordinary (h : (s.map.home l).parity = none) : s.lostLine l = none := by simp [State.lostLine, h]

/-- A line of the home's ordinary part that is not in doubt and has a way is ordered by the request's opcode (R225). -/
theorem State.order_stable (h : s.quietHome) (hpar : (s.map.home r.line).parity = none) (hways : s.waysUsed r.line < 16)
    (hdoubt : ∀ e, s.entry r.line = some e → e.doubt = .none) : s.order r 0 = s.orderOp r 0 r.line := by
  obtain ⟨-, -, -, -, -, -, hclass, hdead⟩ := h
  have hl : r.lineAddr 0 = r.line := by simp [HReq.lineAddr, HReq.line]
  have hw : decide (16 ≤ s.waysUsed r.line) = false := by simpa using hways
  unfold State.order
  simp only [hl, State.classify1_none hclass, State.reclaim_none hdead, State.lostLine_ordinary hpar, hw, Option.isSome_none, Bool.false_eq_true, if_false,
    Bool.and_false]
  cases he : s.entry r.line with
  | none => rfl
  | some e => simp only [State.inDoubt, hdoubt e he]

/-- A transaction that asks no agent goes straight to its data (R225). -/
theorem State.begin_alone {line idx : Nat} {kind : TxKind} {ty : SnpType} {sup : Option Nat} {grant : Cresp} {early : Bool} (hop : isCoherent r.op = true) :
    s.begin line kind (some r) idx ty sup [] grant early =
      (let x := { s.newTxn line kind (some r) idx (s.entry line) with sup := sup, wait := [], grant := grant, next := none }
       (((s.count 0x5002 5).openTxn x).touch line).settle x) := by
  simp only [State.begin, hop, List.isEmpty_nil, Bool.and_self, if_true, State.sendSnoops]

/-! ### What waits -/

theorem homeRequestHeld : Claims.HomeRequestHeld := by
  intro s r
  refine ⟨fun hf hneed => ?_, fun hf => ⟨s, ?_, rfl⟩⟩
  · have hw : s.mustWait r = true := by
      unfold State.mustWait
      rcases hneed with h | ⟨h, h'⟩ | ⟨h, h'⟩ | ⟨h, h'⟩ | h | h | ⟨h, h'⟩ | ⟨x, hx, l, hl, hl'⟩
      · simp [h]
      · simp [h, h']
      · simp [h, h']
      · simp [h, h']
      · simp [h]
      · simp [h]
      · simp [h, h']
      · have hany : s.ha.held.any (fun x => x.lineList.any (fun l => r.lineList.contains l)) = true :=
          List.any_eq_true.mpr ⟨x, hx, List.any_eq_true.mpr ⟨l, hl, List.contains_iff_mem.mpr hl'⟩⟩
        rw [hany, Bool.or_true]
    refine ⟨{ s with ha := { s.ha with held := s.ha.held ++ [r] } }, ?_, rfl, s.ha_frame _⟩
    show Host.Outcome.next (s.homeArrive r) = _
    simp [State.homeArrive, hf, hw]
  · show Host.Outcome.next (s.homeArrive r) = _
    simp [State.homeArrive, hf]

theorem busyLineRetried : Claims.BusyLineRetried := by
  intro s r hf hw hi hc hop hbusy hrage
  obtain ⟨b, hb⟩ := State.arriveCoherent_busy hbusy
  have hexec : exec (.homeRequestArrive r) s = .next (s.retry r b) := congrArg Host.Outcome.next ((State.homeArrive_coherent hf hw hi hc hop).trans hb)
  rw [State.retry_quiet hrage] at hexec
  refine ⟨_, hexec, rfl, ?_, rfl, ?_⟩
  · exact State.counted_then (State.counted_count _ _ _ _) (((State.noteGiven_frame _ r false).then (State.emit_frame _ _)).mono (m := [.ha, .out]) (by simp))
  · exact (((s.count_frame _ _ _).then (State.noteGiven_frame _ r false)).then (State.emit_frame _ _)).mono (by simp)

/-! ### A request on a stable line -/

theorem State.touch_unheld (h : s.entry l = none) : s.touch l = s := by simp only [State.touch, h]

/-- A use of a held line marks its entry as the most recently used (R220). -/
theorem State.touch_held (h : s.entry l = some e) :
    s.touch l = { s with ha := { s.ha with stamp := s.ha.stamp + 1, filter := SMap.set s.ha.filter l { e with used := s.ha.stamp + 1 } } } := by
  simp only [State.touch, h]

/-- An unheld line is read from the stack for a request that is to hold it (R225). -/
theorem State.orderOp_unheld (hop : isCoherent r.op = true) (hw : r.op ≠ .wrBack) (he : s.entry r.line = none) :
    ∃ k ty, (k = .rdShared ∨ k = .rdUnique) ∧ s.orderOp r 0 r.line = s.begin r.line k (some r) 0 ty none [] .dataE false := by
  cases h : r.op with
  | rdShared => exact ⟨.rdShared, .down, .inl rfl, by simp only [State.orderOp, h, he, State.orderShared]⟩
  | rdUnique => exact ⟨.rdUnique, .give, .inr rfl, by simp only [State.orderOp, h, he, State.orderUnique]⟩
  | upgrade => exact ⟨.rdUnique, .give, .inr rfl, by simp only [State.orderOp, h, he, State.orderUpgrade, State.orderUnique]⟩
  | wrBack => exact absurd h hw
  | read => simp [h, isCoherent] at hop
  | writePosted => simp [h, isCoherent] at hop
  | writeAck => simp [h, isCoherent] at hop
  | masterReset => simp [h, isCoherent] at hop

theorem State.settle_uses {x : Txn} (hb : x.bad = false) (hk : x.kind = .rdShared ∨ x.kind = .rdUnique) : s.settle x = s.useData x := by
  rcases hk with hk | hk <;> simp [State.settle, hb, hk]

/-- A coherent request that its quiet home orders at once. -/
structure State.Ordered (s : State) (r : HReq) : Prop where
  fenced : s.repair.fenced = none
  goes : s.mustWait r = false
  port : internalPort r.port = false
  quiet : s.quietHome
  coherent : r.coherent = true
  op : isCoherent r.op = true
  line : r.line = r.addr
  here : s.homeHere r.addr

/-- Such a request on a line that is not in doubt is ordered by its opcode, and nothing follows when the home has no other work (R225). -/
theorem State.Ordered.orders (h : s.Ordered r) (hdoubt : ∀ e, s.entry r.addr = some e → e.doubt = .none) (hi : (s.orderOp r 0 r.addr).ha.Idle) :
    exec (.homeRequestArrive r) s = .next (s.orderOp r 0 r.addr) := by
  obtain ⟨hpar, -, -, hways⟩ := h.here
  have horder : s.order r 0 = s.orderOp r 0 r.addr := by
    rw [State.order_stable h.quiet (by rw [h.line]; exact hpar) (by rw [h.line]; exact hways) (by rw [h.line]; exact hdoubt), h.line]
  refine congrArg Host.Outcome.next ?_
  rw [State.homeArrive_coherent h.fenced h.goes h.port h.coherent h.op, State.arriveCoherent_quiet h.quiet, horder, State.afterFree_idle hi]

/-- The stack is read for a request on an unheld line (R224, R225). -/
theorem State.Ordered.reads (h : s.Ordered r) (hten : bit (s.tenantWord r.tenant) 15 = true) (hw : r.op ≠ .wrBack) (he : s.entry r.addr = none)
    (halone : ∀ p ∈ s.sched.parts, sameReq p.req r = false) : Completes (.homeRequestArrive r) s fun t =>
      (∃ x : Txn, t.ha = { s.ha with txns := [x], serial := s.ha.serial + 1 } ∧ x.line = r.addr ∧ x.req = some r ∧ x.busy = .mem ∧
        x.stackDue = true ∧ x.wait = [] ∧
        ∃ p : Part, t.sched.parts = s.sched.parts ++ [p] ∧ p.origin = .homeRead x.no ∧ p.write = false ∧
          p.lns.map (fun l => l.addr) = [(s.map.home r.addr).loc]) ∧
      s.counted t 0x5002 5 1 ∧ t.out = s.out ∧ OnlyChanges [.ha, .sched, .queues, .ctr] s t := by
  obtain ⟨hpar, htile, hret, -⟩ := h.here
  have he' : s.entry r.line = none := by rw [h.line]; exact he
  obtain ⟨k, ty, hk, hbegin⟩ := State.orderOp_unheld h.op hw he'
  rw [State.begin_alone h.op, h.line, he] at hbegin
  set x : Txn := { s.newTxn r.addr k (some r) 0 none with sup := none, wait := [], grant := .dataE, next := none } with hx
  set z := (s.count 0x5002 5).openTxn x with hz
  have hzt : z.touch r.addr = z := State.touch_unheld (show z.entry r.addr = none from he)
  set x' : Txn := { x with busy := .mem, stackDue := true } with hx'
  set w := (z.withTxns [x']).queueHome (s.lineReq (some r) r.addr .read []) (.homeRead x.no) with hwdef
  have hztx : z.ha.txns = [x] := by
    show s.ha.txns ++ [x] = [x]
    rw [h.quiet.txns]
    rfl
  have hsettle : z.settle x = w := by
    rw [State.settle_uses (x := x) rfl hk]
    exact State.useData_reads (y := x) hztx rfl rfl rfl rfl rfl ⟨hpar, htile, hret⟩ hten
  obtain ⟨hwf, hpart⟩ := State.homeRead_joins (s := z.withTxns [x']) (r := r) (line := r.addr) x.no ⟨hpar, htile, hret⟩ hten
  have hha : w.ha = { s.ha with txns := [x'], serial := s.ha.serial + 1 } := hwf .ha (by simp)
  have horder : s.orderOp r 0 r.addr = w := hbegin.trans ((congrArg (fun z => z.settle x) hzt).trans hsettle)
  have hidle : w.ha.Idle := by
    rw [hha]
    exact ⟨h.quiet.idle.plain, h.quiet.idle.plainWait, h.quiet.idle.resv, h.quiet.idle.work⟩
  have hexec := h.orders (fun e h' => by rw [he] at h'; cases h') (by rw [horder]; exact hidle)
  rw [horder] at hexec
  have hcount : OnlyChanges [.ha, .sched, .queues] (s.count 0x5002 5) w :=
    ((((s.count 0x5002 5).ha_frame _).then (State.withTxns_frame _ [x'])).then hwf).mono (by simp)
  exact ⟨w, hexec, ⟨x', hha, rfl, rfl, rfl, rfl, rfl, hpart halone⟩, State.counted_then (State.counted_count _ _ _ _) hcount, hcount .out (by simp),
    ((s.count_frame _ _ _).then hcount).mono (by simp)⟩

/-- A WR_BACK of an agent that does not hold the line is acknowledged, nothing written (R225). -/
theorem State.Ordered.acks (h : s.Ordered r) (hop : r.op = .wrBack) (he : s.entry r.addr = none) : Completes (.homeRequestArrive r) s fun t =>
    t.out = s.out ++ [answerOf s r .ack [⟨0, .ok, false, 0⟩]] ∧ t.ha = { s.ha with given := t.ha.given } ∧ OnlyChanges [.ctr, .out, .ha] s t := by
  have horder : s.orderOp r 0 r.addr = ((s.count 0x5002 5).noteGiven r false).emit (answerOf s r .ack [⟨0, .ok, false, 0⟩]) := by
    simp only [State.orderOp, hop, he, State.orderWrBack, State.ackNow, State.homeAnswer_coherent h.op]
    rfl
  have hidle : (s.orderOp r 0 r.addr).ha.Idle := by
    rw [horder]
    exact ⟨h.quiet.idle.plain, h.quiet.idle.plainWait, h.quiet.idle.resv, h.quiet.idle.work⟩
  refine ⟨_, (h.orders (fun e h' => by rw [he] at h'; cases h') hidle).trans (congrArg _ horder), rfl, rfl, ?_⟩
  exact (((s.count_frame _ _ _).then (State.noteGiven_frame _ r false)).then (State.emit_frame _ _)).mono (by simp)

/-- An UPGRADE by the one holder of a shared line makes it the owner (R225). -/
theorem State.Ordered.upgrades (h : s.Ordered r) (hop : r.op = .upgrade) (he : s.entry r.addr = some e) (hek : e.kind = .none) (hed : e.doubt = .none)
    (hep : e.present = setBit 0 r.agent true) (ha : r.agent < 48) (hcoh : s.stillCoherent r = true) : Completes (.homeRequestArrive r) s fun t =>
      t.out = s.out ++ [answerOf s r .ack [⟨0, .ok, false, 0⟩]] ∧
      (∃ e', t.entry r.addr = some e' ∧ e'.kind = .x ∧ e'.owner = r.agent ∧ e'.present = e.present ∧ e'.doubt = .none ∧ e'.cur = e.cur) ∧
      (∀ l, l ≠ r.addr → t.entry l = s.entry l) ∧ t.ha.txns = [] ∧ OnlyChanges [.ha, .ctr, .out] s t := by
  have hbit : bit e.present r.agent = true := by rw [hep, bit_setBit _ _ _ _ ha, if_pos rfl]
  have hothers : (agentsOf e.present).filter (fun b => b ≠ r.agent) = [] := by
    rw [hep, show agentsOf (setBit 0 r.agent true) = [r.agent] from agentsOf_one ⟨r.agent, ha⟩, filter_only]
  have hbegin : s.orderOp r 0 r.addr = s.begin r.addr .upgrade (some r) 0 .drop none [] .ack false := by
    simp only [State.orderOp, hop, he, State.orderUpgrade, hek, hbit, hothers, h.line, if_true, if_neg (show OwnKind.none ≠ .x by decide)]
  rw [State.begin_alone h.op, he] at hbegin
  set x : Txn := { s.newTxn r.addr .upgrade (some r) 0 (some e) with sup := none, wait := [], grant := .ack, next := none } with hx
  set z0 := (s.count 0x5002 5).openTxn x with hz0
  set z := z0.touch r.addr with hz
  have hzeq : z = _ := State.touch_held (s := z0) (l := r.addr) (e := e) he
  have hzf : OnlyChanges [.ctr, .ha] s z := by
    rw [hzeq]
    exact (((s.count_frame _ _ _).then (State.ha_frame _ _)).then (State.ha_frame z0 _)).mono (by simp)
  have hztx : z.ha.txns = [x] := by
    rw [hzeq]
    show s.ha.txns ++ [x] = [x]
    rw [h.quiet.txns]
    rfl
  have hze : z.entry r.addr = some { e with used := s.ha.stamp + 1 } := by
    rw [hzeq]
    exact SMap.look_set_same _ _ _
  have hzne : ∀ l, l ≠ r.addr → z.entry l = s.entry l := fun l hl => by
    rw [hzeq]
    exact SMap.look_set_ne _ _ hl
  have hcohz : z.stillCoherent r = true := (State.stillCoherent_of_frame hzf (r := r)).trans hcoh
  have hlost : z.lostLine r.addr = none := State.lostLine_ordinary (by rw [State.map_of_frame hzf]; exact h.here.1)
  have hgrant : grantOf x r.agent (z.entry r.addr) none (z.ha.stamp + 1) = (Entry.sole r.agent e.cur (z.ha.stamp + 1), .ack) := by
    have hok : x.okind = .none := hek
    have hk : x.kind = .upgrade := rfl
    have hno : (OwnKind.none == OwnKind.o) = false := rfl
    simp [grantOf, hze, hok, hk, hno]
  have hserve := State.serve_grants (s := z) (x := x) (y := x) hztx rfl rfl h.op (.inl rfl) hlost hcohz ha
  have hfwd : x.fwd.map (fun f => f.2) = none := rfl
  rw [hfwd, show x.line = r.addr from rfl, hgrant, State.supplied_stack (x := x) rfl] at hserve
  have hsettle : z.settle x = (z.serve x r).closeTxn x := rfl
  have horder := hbegin.trans (hsettle.trans hserve)
  have hzidle : z.ha.Idle := by
    rw [hzeq]
    exact ⟨h.quiet.idle.plain, h.quiet.idle.plainWait, h.quiet.idle.resv, h.quiet.idle.work⟩
  have hexec := h.orders (fun e' h' => by rw [he] at h'; cases h'; exact hed) (by rw [horder]; exact hzidle.lineGranted x r _ _)
  rw [horder] at hexec
  refine ⟨_, hexec, ?_, ⟨_, z.entry_lineGranted_same x r _ _, rfl, rfl, hep.symm, rfl, rfl⟩, fun l hl => ?_, rfl, ?_⟩
  · show z.out ++ [answerOf z r .ack [⟨0, .ok, false, 0⟩]] = _
    rw [answerWith_of_frame hzf, show z.out = s.out from hzf .out (by simp)]
  · exact (z.entry_lineGranted_ne r _ _ (x := x) hl).trans (hzne l hl)
  · exact ((hzf.then (State.lineGranted_frame z x r _ _)).then (State.emit_frame _ _)).mono (by simp)

/-! ### A snoop goes out -/

theorem State.holdSnoops_away {m : SnoopMsg} (h : ∀ a ∈ m.targets, a / 6 ≠ s.t) : s.holdSnoops m = s := by
  have hnone : m.targets.filter (fun a => a / 6 == s.t) = [] := by simpa [List.filter_eq_nil_iff] using h
  simp [State.holdSnoops, hnone]

/-- The message that asks one agent of a line (R210). -/
def State.snoopOne (s : State) (id line req : Nat) (ty : SnpType) (sup : Option Nat) (a : Nat) : SnoopMsg :=
  { ty := ty, sup := sup, home := s.t, txn := id, req := req, line := line, targets := [a],
    after := [a].filterMap (fun a => (SMap.look s.ha.given (givenKey a line)).map (fun g => (a, g.2))) }

theorem State.arcTo_other {u : Nat} (h : u ≠ s.t) : ∃ b, s.arcTo u = some b := by
  simp only [State.arcTo, if_neg h]
  exact ⟨_, rfl⟩

/-- The snoop of an agent of another tile goes out by the arc to that tile (R14, R210). -/
theorem State.sendSnoops_one {a : Nat} (h : a / 6 ≠ s.t) (id line req : Nat) (ty : SnpType) (sup : Option Nat) :
    s.sendSnoops id line req ty sup [a] = (s.count 0x5002 1).ring (.snoop (s.arcTo (a / 6)) (s.snoopOne id line req ty sup a)) := by
  obtain ⟨b, hb⟩ := State.arcTo_other h
  have hh : (s.count 0x5002 1).holdSnoops (s.snoopOne id line req ty sup a) = s.count 0x5002 1 := 
    State.holdSnoops_away fun b hb => by rw [List.mem_singleton.mp hb]; exact h
  unfold State.snoopOne at hh ⊢
  unfold State.sendSnoops
  cases b <;> simp [hb, hh]

/-- A transaction that asks one agent waits for its answer, when no stack read is to be early (R224, R225). -/
theorem State.begin_asks {line idx a : Nat} {kind : TxKind} {ty : SnpType} {sup : Option Nat} {grant : Cresp} {early : Bool}
    (hearly : bit (s.reg 0x5000 1) 14 = false) :
    s.begin line kind (some r) idx ty sup [a] grant early =
      (let x := { s.newTxn line kind (some r) idx (s.entry line) with sup := sup, wait := [a], grant := grant, next := none }
       ((s.openTxn x).sendSnoops x.id line (reqNo r) ty sup [a]).touch line) := by
  simp only [State.begin, hearly, List.isEmpty_cons, Bool.false_and, Bool.and_false, Bool.false_eq_true, if_false]

/-- A line that another agent owns as X is shared by asking its owner (R223, R225). -/
theorem State.orderShared_owned (hek : e.kind = .x) (hne : e.owner ≠ r.agent) :
    s.orderShared r (some e) = s.begin r.line .rdShared (some r) 0 .down (some e.owner) [e.owner] .dataE true := by
  have hown : (e.kind != .none && e.owner == r.agent) = false := by simp [hne]
  have hsup : s.supplier e r.tile r.agent true = some e.owner := by simp [State.supplier, hek]
  have hshare : e.kind ≠ .none := by rw [hek]; decide
  have hearly : (e.kind != .o) = true := by rw [hek]; rfl
  simp only [State.orderShared, hown, hsup, hearly, if_neg hshare, Bool.false_eq_true, if_false, Option.toList_some]

/-- A RD_SHARED of a line that another agent owns as X asks its owner for it (R223, R225). -/
theorem State.Ordered.asks (h : s.Ordered r) {a : Nat} (hop : r.op = .rdShared) (he : s.entry r.addr = some e) (hek : e.kind = .x) (heo : e.owner = a)
    (hed : e.doubt = .none) (hne : a ≠ r.agent) (haway : a / 6 ≠ s.t) (hearly : bit (s.reg 0x5000 1) 14 = false) :
    Completes (.homeRequestArrive r) s fun t =>
      (∃ (x : Txn) (m : SnoopMsg), t.ha.txns = [x] ∧ x.line = r.addr ∧ x.busy = .snp ∧ x.wait = [a] ∧ x.sup = some a ∧
        t.out = s.out ++ [.ring (.snoop (s.arcTo (a / 6)) m)] ∧ m.ty = .down ∧ m.sup = some a ∧ m.home = s.t ∧ m.txn = x.id ∧ m.req = r.agent ∧
        m.line = r.addr ∧ m.targets = [a]) ∧
      s.counted t 0x5002 1 1 ∧ OnlyChanges [.ha, .ctr, .out] s t := by
  set x : Txn := { s.newTxn r.addr .rdShared (some r) 0 (some e) with sup := some a, wait := [a], grant := .dataE, next := none } with hx
  set z0 := s.openTxn x with hz0
  set m := z0.snoopOne x.id r.addr r.agent .down (some a) a with hm
  set z1 := (z0.count 0x5002 1).ring (.snoop (s.arcTo (a / 6)) m) with hz1
  set w := z1.touch r.addr with hw
  have hreq : reqNo r = r.agent := if_pos h.op
  have horder : s.orderOp r 0 r.addr = w := by
    have hsend : z0.sendSnoops x.id r.addr (reqNo r) .down (some a) [a] = z1 := by
      rw [hreq]
      exact State.sendSnoops_one (s := z0) haway _ _ _ _ _
    simp only [State.orderOp, hop, he]
    rw [State.orderShared_owned hek (heo ▸ hne), State.begin_asks hearly, h.line, heo, he]
    exact congrArg (fun z : State => z.touch r.addr) hsend
  have hweq : w = _ := State.touch_held (s := z1) (l := r.addr) (e := e) he
  have hz0f : OnlyChanges [.ha] s z0 := s.ha_frame _
  have hwf : OnlyChanges [.out, .ha] (z0.count 0x5002 1) w := by
    rw [hweq]
    exact ((State.emit_frame (z0.count 0x5002 1) _).then (State.ha_frame z1 _)).mono (by simp)
  have hidle : w.ha.Idle := by
    rw [hweq]
    exact ⟨h.quiet.idle.plain, h.quiet.idle.plainWait, h.quiet.idle.resv, h.quiet.idle.work⟩
  have hexec := h.orders (fun e' h' => by rw [he] at h'; cases h'; exact hed) (by rw [horder]; exact hidle)
  rw [horder] at hexec
  refine ⟨w, hexec, ⟨x, m, ?_, rfl, rfl, rfl, rfl, ?_, rfl, rfl, rfl, rfl, rfl, rfl, rfl⟩,
    State.counted_of_frame hz0f (State.counted_then (State.counted_count _ _ _ _) hwf), ((hz0f.then (State.count_frame _ _ _ _)).then hwf).mono (by simp)⟩
  · rw [hweq]
    show s.ha.txns ++ [x] = [x]
    rw [h.quiet.txns]
    rfl
  · rw [hweq]
    rfl

theorem homeOrders : Claims.HomeOrders := by
  intro s r hf hgoes hport hquiet hcohr hop _ haddr hhere hten hearly
  have h : s.Ordered r := ⟨hf, hgoes, hport, hquiet, hcohr, hop, by rw [HReq.line]; omega, hhere⟩
  exact ⟨fun hw he halone => h.reads hten hw he halone, fun hw he => h.acks hw he,
    fun e hu he hek hed hep ha hcoh => h.upgrades hu he hek hed hep ha hcoh, fun e a hs he hek heo hed _ hne haway => h.asks hs he hek heo hed hne haway hearly⟩

/-- Settles O44: a request is ordered on a stable line of a quiet home, held while it lacks something, and retried on a busy line. What a request waits for is
the model's choice (log entries 54, 74 and 76). -/
theorem homeRequests : Obligations.HomeRequests := ⟨homeOrders, homeRequestHeld, busyLineRetried⟩

end Sys2Proof.Machine

/-!
The filter under a split and its heal (R235-R238, R241): classification, the end of the hold, the heal and lost lines.
-/
namespace Sys2Proof.Machine
open Sys2Proof

variable {s t : State} {e : Entry} {l : Nat}

/-! ### Classification -/

/-- The state with another filter. -/
def State.withFilter (s : State) (f : SMap Entry) : State := { s with ha := { s.ha with filter := f } }

/-- An entry in the class of its line (R235). -/
def State.classed (s : State) (e : Entry) : Entry := { e with doubt := s.classOf e }

theorem State.classOf_doubt (h : e.doubt ≠ .none) : s.classOf e = e.doubt := by simp [State.classOf, h]

theorem State.classOf_dirty (hd : e.doubt = .none) (hk : e.kind ≠ .none) (ha : s.across (e.owner / 6) = true) : s.classOf e = .dirty := by
  simp [State.classOf, hd, hk, ha]

/-- A line without an owner across the split is in doubt by its other holders alone (R235). -/
theorem State.classOf_holders (hd : e.doubt = .none) (ho : e.kind = .none ∨ s.across (e.owner / 6) = false) :
    s.classOf e = if (agentsOf e.present).any (fun a => s.across (a / 6)) then .shared else .none := by
  have hown : (e.kind != .none && s.across (e.owner / 6)) = false := by rcases ho with h | h <;> simp [h]
  simp only [State.classOf, hd, hown, bne_self_eq_false, Bool.false_eq_true, if_false]

/-- A line has its class once and for all (R235). -/
theorem State.classed_classed (s : State) (e : Entry) : s.classed (s.classed e) = s.classed e := by
  by_cases h : s.classOf e = .none
  · have hd : e.doubt = .none := by
      by_contra hn
      exact hn ((State.classOf_doubt hn).symm.trans h)
    have hsame : s.classed e = e := by rw [State.classed, h, ← hd]
    rw [hsame, hsame]
  · have hs : s.classOf (s.classed e) = s.classOf e := State.classOf_doubt (e := s.classed e) h
    rw [State.classed, hs]
    rfl

/-- A filter whose every entry has a holder. -/
def State.AllHeld (s : State) : Prop := ∀ l e, s.entry l = some e → e.present ≠ 0

theorem State.classify1_says (hc : s.ha.classify = true) (hp : s.AllHeld) (l : Nat) :
    ∃ f, s.classify1 l = s.withFilter f ∧ ∀ k, SMap.look f k = if k = l then (s.entry k).map s.classed else s.entry k := by
  cases he : s.entry l with
  | none =>
    refine ⟨s.ha.filter, by simp only [State.classify1, hc, he, if_true]; rfl, fun k => ?_⟩
    split
    · next h => rw [h, he]; exact he
    · rfl
  | some e =>
    refine ⟨SMap.set s.ha.filter l (s.classed e), ?_, fun k => ?_⟩
    · simp only [State.classify1, hc, he, if_true]
      exact State.setEntry_kept (hp l e he)
    · split
      · next h => rw [h, he]; exact SMap.look_set_same _ _ _
      · next h => exact SMap.look_set_ne _ _ h

/-- Every line that the walk passes gets its class, and no other changes (R235). -/
theorem State.classify_walk (L : SMap Entry) (hc : s.ha.classify = true) (hp : s.AllHeld) :
    ∃ f, L.foldl (fun z x => z.classify1 x.1) s = s.withFilter f ∧
      ∀ k, SMap.look f k = if k ∈ L.map Prod.fst then (s.entry k).map s.classed else s.entry k := by
  induction L generalizing s with
  | nil => exact ⟨s.ha.filter, rfl, fun k => rfl⟩
  | cons x L ih =>
    obtain ⟨f1, h1, hf1⟩ := State.classify1_says hc hp x.1
    have hp1 : (s.withFilter f1).AllHeld := fun k e hk => by
      have hk' : SMap.look f1 k = some e := hk
      rw [hf1] at hk'
      split at hk'
      · obtain ⟨e0, he0, rfl⟩ := Option.map_eq_some_iff.mp hk'
        exact hp k e0 he0
      · exact hp k e hk'
    obtain ⟨f, h, hf⟩ := ih (s := s.withFilter f1) hc hp1
    refine ⟨f, by rw [List.foldl_cons, h1, h]; rfl, fun k => ?_⟩
    have hk : (s.withFilter f1).entry k = if k = x.1 then (s.entry k).map s.classed else s.entry k := hf1 k
    have hcl : (s.withFilter f1).classed = s.classed := rfl
    rw [hf, hk, hcl]
    have hcomp : s.classed ∘ s.classed = s.classed := funext s.classed_classed
    by_cases hx : k = x.1
    · rw [if_pos hx, if_pos (by simp [hx] : k ∈ (x :: L).map Prod.fst), Option.map_map, hcomp, ite_self]
    · rw [if_neg hx, List.map_cons]
      simp only [List.mem_cons, hx, false_or]

/-- A value that is found at a key is listed there. -/
theorem mem_of_look {α : Type} {m : SMap α} {k : Nat} {v : α} (h : SMap.look m k = some v) : (k, v) ∈ m := by
  induction m with
  | nil => cases h
  | cons x m ih =>
    rw [SMap.look_cons] at h
    split at h
    · next hk =>
      cases h
      rw [← hk]
      exact .head _
    · exact List.mem_cons_of_mem _ (ih h)

theorem splitClassified : Claims.SplitClassified := by
  intro s hc hdom hheld
  have hall : s.AllHeld := fun l e h => hheld (l, e) (mem_of_look h)
  obtain ⟨f, hwalk, hf⟩ := State.classify_walk s.ha.filter hc hall
  set z : State := { s with ha := { s.ha with filter := f, classify := false } } with hz
  have hzf : OnlyChanges [.ha] s z := s.ha_frame _
  set w := z.log1 0x0A07 [sat16 (z.doubts .dirty), sat16 (z.doubts .shared)] with hw
  have hexec : exec .splitClassifyDone s = .next w := by
    show Host.Outcome.next s.classifyDone = _
    simp only [State.classifyDone, hc, hwalk]
    rfl
  have hwf : OnlyChanges [.log, .maint, .out] z w := z.log1_frame _ _
  have hentry : ∀ l, w.entry l = (s.entry l).map s.classed := fun l => by
    have hl : w.entry l = SMap.look f l := State.entry_of_frame hwf (l := l)
    rw [hl, hf]
    split
    · rfl
    · next hn =>
      cases he : s.entry l with
      | none => rfl
      | some e => exact absurd (List.mem_map_of_mem (mem_of_look he)) hn
  have hha : w.ha = z.ha := hwf .ha (by simp)
  refine ⟨w, hexec, fun l e he => ⟨s.classed e, by rw [hentry, he]; rfl, rfl, fun hd => State.classOf_doubt hd,
      fun hd => ⟨fun ⟨hk, ha⟩ => ?_, fun ho => ?_⟩⟩,
    fun l he => by rw [hentry, he]; rfl, by rw [hha], ?_, hwf .store (by simp), (hzf.then hwf).mono (by simp)⟩
  · exact State.classOf_dirty hd hk ha
  · have hcl : (s.classed e).doubt = _ := State.classOf_holders hd ho
    rw [hcl]
    refine ⟨fun ⟨a, ha, hb, hx⟩ => if_pos (List.any_eq_true.mpr ⟨a, mem_agentsOf.mpr ⟨ha, hb⟩, hx⟩), fun hno => if_neg fun hany => ?_⟩
    obtain ⟨a, hmem, hx⟩ := List.any_eq_true.mp hany
    obtain ⟨ha, hb⟩ := mem_agentsOf.mp hmem
    rw [hno a ha hb] at hx
    cases hx
  · rw [hha]
    exact LogsOne.of_frame hzf (State.log1_logs hdom)

/-! ### The heal -/

theorem healResolved : Claims.HealResolved := by
  intro s hdom hheal hnone htx
  have hgoes : (!s.ha.healing || s.ha.filter.any (fun e => e.2.doubt != Doubt.none) || s.ha.txns.any (fun x => x.kind == .heal)) = false := by
    simpa [hheal] using And.intro hnone htx
  set z : State := { s with ha := { s.ha with healing := false, expired := false, healWb := 0, healLost := 0 } } with hz
  have hzf : OnlyChanges [.ha] s z := s.ha_frame _
  have hexec : exec .healResolveDone s = .next (z.log1 0x0A09 [sat16 s.ha.healWb, sat16 s.ha.healLost]) :=
    congrArg Host.Outcome.next (by rw [State.healDone, hgoes]; rfl)
  exact ⟨_, hexec, State.log1_ha _ _ _, LogsOne.of_frame hzf (State.log1_logs hdom), (hzf.then (z.log1_frame _ _)).mono (by simp)⟩

/-! ### Lost lines -/

theorem State.dom_of_frame {fs : List Field} {k : Nat} (h : OnlyChanges fs s t) (hd : s.dom k = true) (hp : .pd ∉ fs := by simp) : t.dom k = true := by
  rw [State.dom, show t.pd = s.pd from h .pd hp]
  exact hd

theorem lostLineNoted : Claims.LostLineNoted := by
  intro s line q e hdom hline hplace he hk
  have hl : line / 64 * 64 = line := by omega
  set e' := e.drop e.owner with he'
  set z := s.setEntry line e' with hz
  have hzf : OnlyChanges [.ha] s z := s.setEntry_frame line e'
  obtain ⟨hlf, hwaits, hcount⟩ := State.loseLine_says (State.ordinaryHere_of_frame hzf hplace)
  set w := (z.loseLine line).log1 0x0A0B ([w16 q.val] ++ three line) with hw
  have hwf : OnlyChanges [.log, .maint, .out] (z.loseLine line) w := State.log1_frame _ _ _
  have hexec : exec (.lostLineNotice line q) s = .next w := by
    show Host.Outcome.next (s.lostNotice (line / 64 * 64) q.val) = _
    rw [hl, State.lostNotice]
    simp only [he, if_neg hk]
    rfl
  have hwe : ∀ l, w.entry l = z.entry l := fun l => (State.entry_of_frame hwf (l := l)).trans (State.entry_of_frame hlf (l := l))
  refine ⟨w, hexec, ?_, fun l hne => (hwe l).trans (State.entry_setEntry_ne e' hne), State.poisonWaits_of_frame hzf (State.poisonWaits_then hwaits hwf),
    State.counted_of_frame hzf (State.counted_then hcount hwf), ?_, ((hzf.then hlf).then hwf).mono (by simp)⟩
  · have hown : e' = { e with present := setBit e.present e.owner false, kind := .none, owner := 0 } := Entry.drop_owned ⟨hk, rfl⟩
    rw [hwe]
    by_cases hp : e'.present = 0
    · exact .inl (State.entry_setEntry_freed hp)
    · exact .inr ⟨e', State.entry_setEntry_same hp, by rw [hown], by rw [hown]⟩
  · exact LogsOne.of_frame (hzf.then hlf) (State.log1_logs (State.dom_of_frame (hzf.then hlf) hdom))

/-! ### The end of the hold -/

/-- Work of the home on a line that nobody is left to answer for goes straight to its end (R237). -/
theorem State.begin_own {line idx : Nat} {kind : TxKind} {ty : SnpType} {sup : Option Nat} {grant : Cresp} {early : Bool} :
    s.begin line kind none idx ty sup [] grant early =
      (let x := { s.newTxn line kind none idx (s.entry line) with sup := sup, wait := [], grant := grant, next := none }
       ((s.openTxn x).touch line).settle x) := by
  simp only [State.begin, List.isEmpty_nil, Bool.true_and, Bool.false_eq_true, if_false, if_true, State.sendSnoops]

/-- The hold of a line whose holders are all out of reach leaves its entry as it was but for its use (R237). -/
theorem State.ownWork_hold (htx : s.ha.txns = []) (he : s.entry l = some e) (hreach : ∀ a, a < 48 → bit e.present a = true → s.reach a = false) :
    s.ownWork l .hold =
      { s with ha := { s.ha with
        stamp := s.ha.stamp + 1, filter := SMap.set s.ha.filter l { e with used := s.ha.stamp + 1 }, txns := [], serial := s.ha.serial + 1 } } := by
  have hnone : (agentsOf e.present).filter s.reach = [] := by
    rw [List.filter_eq_nil_iff]
    intro a ha
    obtain ⟨ha48, hbit⟩ := mem_agentsOf.mp ha
    rw [hreach a ha48 hbit]
    decide
  set x : Txn := { s.newTxn l .hold none 0 (some e) with sup := none, wait := [], grant := .none, next := none } with hx
  set z := (s.openTxn x).touch l with hz
  have hzeq : z = _ := State.touch_held (s := s.openTxn x) (l := l) (e := e) he
  have hztx : z.ha.txns = [x] := by
    rw [hzeq]
    show s.ha.txns ++ [x] = [x]
    rw [htx]
    rfl
  have hown : s.ownWork l .hold = z.settle x := by
    have hrec : ¬(TxKind.hold = .recall ∨ TxKind.hold = .heal) := by decide
    have hlost : TxKind.hold ≠ .lostHome := by decide
    have hheal : TxKind.hold ≠ .heal := by decide
    simp only [State.ownWork, if_neg hrec, if_neg hlost, if_neg hheal, he, if_true, hnone, State.begin_own]
    rfl
  have hsettle : z.settle x = z.withTxns [] := State.closeTxn_one (y := x) (x := x) hztx rfl rfl
  rw [hown, hsettle, hzeq]
  rfl

/-- The home's one waiting work starts, as no line is busy (R221). -/
theorem State.startWork_one {w : Nat × TxKind} (hw : s.ha.work = [w]) (htx : s.ha.txns = []) (n : Nat) :
    s.startWork (n + 1) = (({ s with ha := { s.ha with work := [] } } : State).ownWork w.1 w.2).startWork n := by
  have hfree : s.lineBusy w.1 = false := State.lineBusy_empty htx _
  rw [State.startWork, if_neg (by rw [State.trackerUsed_empty htx]; decide), hw]
  simp only [takeFirst, hfree, Bool.not_false, if_true]

theorem holdExpires : Claims.HoldExpires := by
  intro s f line e hdom hsplit hfrom hexp
  refine ⟨fun hearly => ⟨s, ?_, rfl⟩, fun hdue hfilter hdirty hplace hwork htx hreach hpres => ?_⟩
  · show Host.Outcome.next s.holdExpire = _
    simp [State.holdExpire, hfrom, hearly]
  · obtain ⟨hlf, hwaits, hcount⟩ := State.loseLine_says hplace
    set s1 := s.loseLine line with hs1
    have hha : s1.ha = s.ha := hlf .ha (by simp)
    set s2 : State := { s1 with ha := { s.ha with expired := true, work := [] } } with hs2
    have he2 : s2.entry line = some e := by
      show SMap.look s.ha.filter line = some e
      rw [hfilter, SMap.look_cons, if_pos rfl]
    have hr2 : ∀ a, a < 48 → bit e.present a = true → s2.reach a = false := fun a ha hb => by
      have hrep : s1.repair = s.repair := hlf .repair (by simp)
      have hsame : s2.reach a = s.reach a := by
        simp only [State.reach, State.across, hs2, hrep]
      rw [hsame, hreach a ha hb]
    set e' : Entry := { e with used := s.ha.stamp + 1 } with he'
    have hheld := State.ownWork_hold (s := s2) htx he2 hr2
    set z := s2.ownWork line .hold with hz
    have hzfilter : z.ha.filter = [(line, e')] := by
      rw [hheld]
      show SMap.set s.ha.filter line e' = _
      rw [hfilter]
      simp [SMap.set, SMap.del, SMap.ins]
    have hzf : OnlyChanges [.ha] s1 z := by
      rw [hheld]
      exact s1.ha_frame _
    set w := z.log1 0x0A08 [1] with hw
    have hwf : OnlyChanges [.log, .maint, .out] z w := z.log1_frame _ _
    have hwha : w.ha = z.ha := hwf .ha (by simp)
    have hexec : exec .holdExpire s = .next w := by
      set u : State := { s1 with ha := { s1.ha with expired := true, work := s1.ha.work ++ [(line, TxKind.hold)] } } with hu
      have huwork : u.ha.work = [(line, .hold)] := by
        show s1.ha.work ++ [(line, TxKind.hold)] = _
        rw [hha, hwork]
        rfl
      have hus : ({ u with ha := { u.ha with work := [] } } : State) = s2 := by rw [hu, hs2, hha]
      have hstart : u.startWork (u.ha.work.length + 1) = z := by
        rw [State.startWork_one huwork ((congrArg Home.txns hha).trans htx), hus]
        exact State.startWork_nil (by rw [← hz, hheld]) _
      have hcond : (s.repair.split.isNone || s.ha.expired || decide (s.frame < f.toNat + 65536 * (s.reg 0x5000 4).toNat)) = false := by
        have hs : s.repair.split.isNone = false := by simpa using hsplit
        simpa [hs, hexp] using hdue
      have hls : (s.ha.filter.filter (fun e => e.2.doubt == .dirty)).map (fun e => e.1) = [line] := by simp [hfilter, hdirty]
      show Host.Outcome.next s.holdExpire = _
      simp only [State.holdExpire, hfrom, hcond, hls, Bool.false_eq_true, if_false, List.foldl_cons, List.foldl_nil, List.map_cons, List.map_nil, ← hs1]
      rw [← hu, hstart]
      rfl
    refine ⟨w, hexec, ?_, State.poisonWaits_then hwaits (hzf.then hwf), ⟨e', hwha ▸ hzfilter, hdirty, rfl⟩, State.counted_then hcount (hzf.then hwf), ?_,
      ((hlf.then hzf).then hwf).mono (by simp)⟩
    · rw [hwha, hheld]
    · exact LogsOne.of_frame (hlf.then hzf) (State.log1_logs (State.dom_of_frame (hlf.then hzf) hdom))

/-- Settles O48: the classification of a split, the end of its hold, the heal and lost lines, each at a home whose filter the statement gives. Saturating counts
and three-word line addresses are the model's choice (log entry 63). -/
theorem splitsAtTheHome : Obligations.SplitsAtTheHome := ⟨splitClassified, holdExpires, healResolved, lostLineNoted⟩

end Sys2Proof.Machine

/-!
Agents that answer no more (R230, R232-R234): the limit of a snoop and of a reservation, a dead agent at a home and its reclaim, and the lines of a lost home.
-/
namespace Sys2Proof.Machine
open Sys2Proof

variable {s t : State} {e : Entry} {l a : Nat}

/-! ### A port flushed for its agent -/

/-- A port with nothing queued or to be read, its flush in progress. -/
structure PortSt.Emptied (q : PortSt) (cause : Nat) : Prop where
  queue : q.queue = []
  fifo : q.fifo = []
  resets : q.resets = []
  flush : q.flush = some cause

/-- The end of onward work enters nothing in an emptied port. -/
theorem State.emptied_endReturned {p : Port} {cause : Nat} (h : (s.port p).Emptied cause) : ((s.endReturned p).port p).Emptied cause := by
  refine List.foldlRecOn (motive := fun z : State => (z.port p).Emptied cause) _ _ h fun z hz o _ => ?_
  rw [State.port_endOnward hz.resets]
  exact ⟨hz.queue, hz.fifo, hz.resets, hz.flush⟩

theorem State.emptied_emptied (s : State) (p : Port) (cause : Nat) (off : Bool) : ((s.emptied p cause off).port p).Emptied cause := by
  set z := (s.dropCipherWork p none).closeStreams p none with hz
  have hq : ((z.setPort p ((z.port p).discard cause off)).port p).Emptied cause := by
    rw [State.port_setPort_same]
    exact ⟨rfl, rfl, rfl, rfl⟩
  have hp : (s.emptied p cause off).port p = { ((z.setPort p ((z.port p).discard cause off)).endReturned p).port p with panic := false } :=
    State.port_setPanic _ _ _
  have h := State.emptied_endReturned hq
  rw [hp]
  exact ⟨h.queue, h.fifo, h.resets, h.flush⟩

/-- A flush where none is in progress, for any cause (R104, R232). -/
theorem State.flushWith_eq {p : Port} (h : (s.port p).flush = none) (cause : Word) (off : Bool) (dead : DeadCause) :
    s.flushWith p cause off dead =
      ((s.emptied p cause.toNat off).log1 0x0404 [w16 p, cause, w16 ((s.port p).epoch + 1).toNat]).killAgent p dead := by
  simp only [State.flushWith, h]
  rfl

/-! ### An agent's end -/

theorem look_filter {α : Type} {m : SMap α} {k : Nat} {f : Nat × α → Bool} (h : ∀ v, f (k, v) = true) : SMap.look (m.filter f) k = SMap.look m k := by
  induction m with
  | nil => rfl
  | cons x m ih =>
    obtain ⟨j, v⟩ := x
    by_cases hj : j = k
    · subst hj
      rw [List.filter_cons_of_pos (h v), SMap.look_cons, SMap.look_cons, if_pos rfl, if_pos rfl]
    · rw [SMap.look_cons, if_neg hj, ← ih, List.filter_cons]
      split
      · rw [SMap.look_cons, if_neg hj]
      · rfl

theorem agentKey_agent (a line : Nat) : agentKey a line / 2 ^ 38 = a := by
  unfold agentKey
  omega

/-- The agent of a coherent port of this tile dies: its snoops and its lines go, and the notice goes to the homes (R232). -/
theorem State.killAgent_says (a : Fin 6) (c : DeadCause) :
    let z := s.killAgent (20 + a) c
    z.snoops = s.snoops.filter (fun x => x.s.agent ≠ 6 * s.t + a) ∧ Out.ring (.deadAgent (6 * s.t + a) c) ∈ z.out ∧
      ∀ b m, b ≠ a.val → z.agentLine b m = s.agentLine b m := by
  intro z
  have hcoh : coherentPort (20 + a) = true := by simp [coherentPort]; omega
  have hag : agentOf s.t (20 + a) = 6 * s.t + a := by simp [agentOf]
  have hz : z = ({ s with snoops := s.snoops.filter (fun x => x.s.agent ≠ 6 * s.t + a),
                          agents := s.agents.filter (fun x => x.1 / 2 ^ 38 ≠ 20 + a.val - 20) } : State).ring (.deadAgent (6 * s.t + a) c) := by
    show s.killAgent (20 + a) c = _
    rw [State.killAgent, if_pos hcoh, hag]
  rw [hz]
  refine ⟨rfl, List.mem_append_right _ (.head _), fun b m hb => ?_⟩
  have hlook : SMap.look (s.agents.filter (fun x => x.1 / 2 ^ 38 ≠ 20 + a.val - 20)) (agentKey b m) = SMap.look s.agents (agentKey b m) :=
    look_filter fun v => by rw [agentKey_agent]; simpa using hb
  exact congrArg (fun o : Option ALine => o.getD {}) hlook

theorem snoopLimitKills : Claims.SnoopLimitKills := by
  intro s a x c hs hag hshown hdom p
  set late := s.snoops.any (fun x => x.s.agent == 6 * s.t + a &&
    (match x.shown with | some c => decide (c + (s.reg 0x5000 2).toNat * 1024 ≤ s.clk.now) | none => false)) with hlate
  have hlateq : late = decide (c + (s.reg 0x5000 2).toNat * 1024 ≤ s.clk.now) := by simp [hlate, hs, hag, hshown]
  have hexec : exec (.snoopTimeout a) s = .next (if !late then s else if (s.port p).flush.isSome then s.killAgent p .snoopLimit
      else s.flushWith p Config.flushCause false .snoopLimit) := rfl
  refine ⟨fun hearly => ⟨s, ?_, rfl⟩, fun hdue hflush => ?_⟩
  · have hno : late = false := by rw [hlateq]; simpa using hearly
    rw [hexec, hno]
    rfl
  · have hyes : late = true := by rw [hlateq]; simpa using hdue
    rw [State.flushWith_eq hflush, hyes, hflush] at hexec
    set z := s.emptied p Config.flushCause.toNat false with hz
    have hzf : PortFrame workFields p s z := PortFrame.emptied s p _ _
    set z1 := z.log1 0x0404 [w16 p, Config.flushCause, w16 ((s.port p).epoch + 1).toNat] with hz1
    have hz1f : PortFrame flushFields p s z1 := (PortFrame.mono hzf (by simp)).next (.log1 _ _ _)
    have hpv : p.val = 20 + a.val := by
      show (20 + a.val) % 32 = _
      omega
    have htile : z1.t = s.t := by
      rw [State.t, State.t, show z1.ident = s.ident from hz1f.2 .ident (by simp)]
    have hsn : z1.snoops = s.snoops := ((z.log1_frame _ _) .snoops (by simp)).trans (hzf.2 .snoops (by simp))
    have hagents : z1.agents = s.agents := ((z.log1_frame _ _) .agents (by simp)).trans (hzf.2 .agents (by simp))
    have hkf : PortFrame [.out, .snoops, .agents] p z1 (z1.killAgent p .snoopLimit) := PortFrame.killAgent _ _ _
    have hport : (z1.killAgent p .snoopLimit).port p = z.port p := by simp [hz1]
    obtain ⟨hksn, hkout, hkag⟩ := State.killAgent_says (s := z1) a .snoopLimit
    rw [← hpv, htile] at hkout hksn
    rw [← hpv] at hkag
    have he := s.emptied_emptied p Config.flushCause.toNat false
    refine ⟨z1.killAgent p .snoopLimit, hexec, ?_, ?_, ?_, ?_, hkout, ?_, (hz1f.next hkf).1, fun b m hb => ?_, (hz1f.next hkf).2⟩
    · exact (congrArg PortSt.flush hport).trans he.flush
    · exact (congrArg PortSt.queue hport).trans he.queue
    · exact (congrArg PortSt.fifo hport).trans he.fifo
    · rw [hksn, hsn, hs]
      simp [hag]
    · exact (LogsOne.of_frame hzf.2 (State.log1_logs (State.dom_of_frame hzf.2 hdom))).then hkf.2
    · rw [hkag b m fun h => hb (Fin.ext h), State.agentLine, hagents]
      rfl

/-! ### Reservations -/

theorem reservationEnds : Claims.ReservationEnds := by
  intro s v f hdom hresv hsince hbusy hwork hplain hwait hlim
  have holdest : s.oldest v.line = some v := by simp [State.oldest, hresv]
  refine ⟨fun hdue => ?_, fun hearly => ⟨s, ?_, rfl⟩⟩
  · set z : State := { s with ha := { s.ha with resv := [] } } with hz
    have hzf : OnlyChanges [.ha] s z := s.ha_frame _
    set w := z.logLim 0x0A04 v.agent 8192 1 (fun _ => [w16 v.agent] ++ three v.line) with hw
    have hwf : OnlyChanges [.log, .maint, .out] z w := State.logLim_frame _ _ _ _ _ _
    have hha : w.ha = z.ha := hwf .ha (by simp)
    have hdrop : s.dropResv (fun x => x.line == v.line && x.agent == v.agent) = z := by simp [State.dropResv, hresv, hz]
    have hfree : w.afterFree v.line = w :=
      State.afterFree_idle ⟨(congrArg Home.plain hha).trans hplain, (congrArg Home.plainWait hha).trans hwait, congrArg Home.resv hha,
        (congrArg Home.work hha).trans hwork⟩ _
    have hexec : exec (.reservationExpire v.line) s = .next w := by
      show Host.Outcome.next _ = _
      have hgo : (s.lineBusy v.line || decide (s.frame < f.toNat + (s.reg 0x5000 3).toNat)) = false := by simpa [hbusy] using hdue
      simp only [holdest, hsince, hgo, Bool.false_eq_true, if_false, hdrop]
      rw [← hw, hfree]
    exact ⟨w, hexec, hha, State.logLim_last hdom hlim, (hzf.then hwf).mono (by simp)⟩
  · show Host.Outcome.next _ = _
    simp [holdest, hsince, hearly]

/-! ### Dead agents -/

/-- At a home without transactions a dead agent is noted and its reservations go (R232). -/
theorem State.deadAgent_idle (htx : s.ha.txns = []) (c : DeadCause) :
    s.deadAgent a c = (s.ha.resv.filter (fun v => v.agent == a)).foldl (fun z v => z.afterFree v.line)
      { s.log1 0x0A01 [w16 a, match c with | .reset => 1 | .flushed => 2 | .snoopLimit => 3 | .fenced => 4] with
        snoops := s.snoops.filter (fun x => x.s.agent ≠ a),
        ha := { s.ha with dead := setBit s.ha.dead a true, resv := s.ha.resv.filter (fun v => v.agent ≠ a) } } := by
  unfold State.deadAgent
  simp only [State.log1_ha, State.log1_snoops, htx, List.map_nil, List.foldl_nil]
  rw [← htx]
  cases c <;> rfl

theorem deadAgentNoted : Claims.DeadAgentNoted := by
  intro s a c hdom htx hwork hplain hwait halone
  set args : List Word := [w16 a.val, match c with | .reset => 1 | .flushed => 2 | .snoopLimit => 3 | .fenced => 4] with hargs
  set z : State := { s.log1 0x0A01 args with
        snoops := s.snoops.filter (fun x => x.s.agent ≠ a.val),
        ha := { s.ha with dead := setBit s.ha.dead a true, resv := s.ha.resv.filter (fun v => v.agent ≠ a.val) } } with hz
  have hzf : OnlyChanges [.snoops, .ha] (s.log1 0x0A01 args) z := Fr.only (M := 2 ^ 23 + 2 ^ 24) (Fr.upd (Fr.refl _) rfl) (by decide)
  have hfold : (s.ha.resv.filter (fun v => v.agent == a.val)).foldl (fun z v => z.afterFree v.line) z = z :=
    List.foldlRecOn (motive := fun u => u = z) _ _ rfl fun u hu v hv => by
      obtain ⟨hin, hagent⟩ := List.mem_filter.mp hv
      have hnone : z.oldest v.line = none := by
        rw [State.oldest, List.find?_eq_none]
        intro w hw hline
        obtain ⟨hwin, hwa⟩ := List.mem_filter.mp hw
        have hsame : w = v := halone v hin (by simpa using hagent) w hwin (by simpa using hline)
        rw [hsame] at hwa
        simp at hwa hagent
        exact hwa hagent
      rw [hu, State.afterFree_quiet hnone hwork hplain hwait]
  have hexec : exec (.deadAgentNotice a c) s = .next z := congrArg Host.Outcome.next ((State.deadAgent_idle htx c).trans hfold)
  exact ⟨z, hexec, rfl, rfl, (State.log1_logs hdom).then hzf, ((s.log1_frame _ _).then hzf).mono (by simp)⟩

/-! ### The reclaim -/

theorem State.setEntry_freed (h : e.present = 0) : s.setEntry l e = { s with ha := { s.ha with filter := SMap.del s.ha.filter l } } := by
  rw [State.setEntry, if_pos h]

/-- The home once a dead agent's line is freed and counted for the agent (R233). -/
def State.freedFor (s : State) (l a : Nat) : State :=
  { s with ha := { s.ha with filter := SMap.del s.ha.filter l, deadLost := SMap.put 0 s.ha.deadLost a (SMap.getD s.ha.deadLost a 0 + 1) } }

/-- The reclaim of a line that its one dead agent owned loses it and frees its entry (R233). -/
theorem State.reclaim_owned {d : Fin 48} (hdead : s.ha.dead = setBit 0 d true) (he : s.entry l = some e) (hbit : bit e.present d = true)
    (hown : e.OwnedBy d.val) (hp : e.present = setBit 0 d true) :
    s.reclaim l = (s.loseLine l).freedFor l d := by
  have ho : (e.kind != .none && e.owner == d.val) = true := by simpa [Entry.OwnedBy] using hown
  have hfreed : (e.drop d).present = 0 := by
    show setBit e.present d false = 0
    rw [hp, setBit_clear_one]
  unfold State.reclaim
  simp only [he, hdead, and_one _ hbit, agentsOf_one, List.foldl_cons, List.foldl_nil, ho, if_true]
  exact State.setEntry_freed (e := { e.drop d with cur := true }) hfreed

/-- The reclaim of a line that its one dead agent shared only takes its bit (R233). -/
theorem State.reclaim_shared {d : Fin 48} (hdead : s.ha.dead = setBit 0 d true) (he : s.entry l = some e) (hbit : bit e.present d = true)
    (hown : ¬e.OwnedBy d.val) : s.reclaim l = s.setEntry l { e with present := setBit e.present d false } := by
  have ho : (e.kind != .none && e.owner == d.val) = false := by simpa [Entry.OwnedBy] using hown
  unfold State.reclaim
  simp only [he, hdead, and_one _ hbit, agentsOf_one, List.foldl_cons, List.foldl_nil, ho, Bool.false_eq_true, if_false]
  rw [Entry.drop_shared hown]

theorem reclaimEnds : Claims.ReclaimEnds := by
  intro s a line e hdom hdead hfilter hplace hlost hbit
  have he : s.entry line = some e := by rw [State.entry, hfilter, SMap.look_cons, if_pos rfl]
  have hdeadbit : bit s.ha.dead a = true := by rw [hdead, bit_setBit _ _ _ _ a.isLt, if_pos rfl]
  have hclear : setBit s.ha.dead a false = 0 := by rw [hdead, setBit_clear_one]
  set z := s.reclaim line with hz
  set n := SMap.getD z.ha.deadLost a 0 with hn
  set u : State := { z with ha := { z.ha with dead := setBit z.ha.dead a false, deadLost := SMap.del z.ha.deadLost a } } with hu
  have hexec : exec (.reclaimWalkDone a) s = .next (u.log1 0x0A02 [w16 a.val, sat16 n]) := by
    refine congrArg Host.Outcome.next ?_
    simp only [State.reclaimDone, hdeadbit, hfilter, List.foldl_cons, List.foldl_nil, hbit, Bool.not_true, Bool.false_eq_true, if_false, if_true]
    rfl
  have hlf : OnlyChanges [.log, .maint, .out] u (u.log1 0x0A02 [w16 a.val, sat16 n]) := u.log1_frame _ _
  refine ⟨fun hk ho hp => ?_, fun hshared hother => ?_⟩
  · obtain ⟨hlosef, hwaits, hcount⟩ := State.loseLine_says hplace
    have hha : (s.loseLine line).ha = s.ha := hlosef .ha (by simp)
    have hzeq : z = { s.loseLine line with ha := { s.ha with filter := [], deadLost := SMap.put 0 [] a 1 } } := by
      rw [hz, State.reclaim_owned hdead he hbit ⟨hk, ho⟩ hp, State.freedFor, hha, hfilter, hlost]
      simp [SMap.del, SMap.getD, SMap.look]
    have hn1 : n = 1 := by
      rw [hn, hzeq]
      exact SMap.getD_put_same 0 [] a.val 1
    have huha : u.ha = { s.ha with filter := [], dead := 0 } := by
      rw [hu, hzeq]
      show ({ s.ha with filter := [], dead := setBit s.ha.dead a false, deadLost := SMap.del (SMap.put 0 [] a 1) a } : Home) = _
      rw [hclear, show SMap.del (SMap.put 0 ([] : SMap Nat) a 1) a = [] by simp [SMap.put, SMap.set, SMap.del, SMap.ins], ← hlost]
    have huf' : OnlyChanges [.ha] (s.loseLine line) u := by
      rw [hu, hzeq]
      exact State.ha_frame _ _
    have hdomu : u.dom 1 = true := State.dom_of_frame (hlosef.then huf') hdom
    refine ⟨_, hexec, by rw [State.log1_ha, huha], State.poisonWaits_then hwaits (huf'.then hlf), State.counted_then hcount (huf'.then hlf), ?_,
      ((hlosef.then huf').then hlf).mono (by simp)⟩
    rw [hn1]
    exact LogsOne.of_frame (hlosef.then huf') (State.log1_logs hdomu)
  · obtain ⟨b, hb48, hba, hb⟩ := hother
    set e' : Entry := { e with present := setBit e.present a false } with he'
    have hpres : e'.present ≠ 0 := ne_zero_of_bit (a := b) (by
      show bit (setBit e.present a false) b = true
      rw [bit_setBit _ _ _ _ hb48, if_neg (Ne.symm hba), hb])
    have hown : ¬e.OwnedBy a.val := fun ⟨hk, ho⟩ => by rcases hshared with h | h <;> contradiction
    have hzeq : z = s.withFilter [(line, e')] := by
      rw [hz, State.reclaim_shared hdead he hbit hown, State.setEntry_kept hpres, hfilter]
      simp [SMap.set, SMap.del, SMap.ins, State.withFilter]
    have hn0 : n = 0 := by
      rw [hn, hzeq]
      show SMap.getD s.ha.deadLost a 0 = 0
      rw [hlost]
      rfl
    have huf' : OnlyChanges [.ha] s u := by
      rw [hu, hzeq]
      exact State.ha_frame _ _
    refine ⟨_, hexec, ?_, ?_, ?_, (huf'.then hlf).mono (by simp)⟩
    · rw [State.log1_ha, hu, hzeq]
      rfl
    · rw [State.log1_ha, hu, hzeq]
      exact hclear
    · rw [hn0]
      exact LogsOne.of_frame huf' (State.log1_logs (State.dom_of_frame huf' hdom))

/-! ### Lost homes -/

theorem lostHomeRecalled : Claims.LostHomeRecalled := by
  intro s u hrec hdom
  refine ⟨fun hwalk hwork htx => ?_, fun hneed => ⟨s, ?_, rfl⟩⟩
  · have hdone : s.lostRecalled = true := by
      have hw : s.ha.work.any (fun w => w.2 == .lostHome) = false := by simpa using hwork
      have hx : s.ha.txns.any (fun x => x.kind == .lostHome && x.req.isNone) = false := by
        rw [List.any_eq_false]
        intro x hx hk
        obtain ⟨hkind, hreq⟩ := Bool.and_eq_true_iff.mp hk
        have hsome := htx x hx (by simpa using hkind)
        rw [Option.isNone_iff_eq_none] at hreq
        rw [hreq] at hsome
        cases hsome
      simp [State.lostRecalled, hwalk, hw, hx]
    set z : State := { s with ha := { s.ha with lostRecall := none } } with hz
    have hzf : OnlyChanges [.ha] s z := s.ha_frame _
    have hexec : exec .lostHomeRecallDone s = .next (z.log1 0x0A0A [w16 u, sat16 (s.map.seam / 128)]) := by
      show Host.Outcome.next _ = _
      simp only [hrec, hdone, Bool.not_true, Bool.false_eq_true, if_false]
      rfl
    exact ⟨_, hexec, State.log1_ha _ _ _, LogsOne.of_frame hzf (State.log1_logs hdom), (hzf.then (z.log1_frame _ _)).mono (by simp)⟩
  · have hno : s.lostRecalled = false := by
      rcases hneed with h | ⟨w, hw, hk⟩
      · have hd : ¬s.map.seam / 64 ≤ s.ha.lostPos := by omega
        simp [State.lostRecalled, hd]
      · have hany : s.ha.work.any (fun w => w.2 == .lostHome) = true := List.any_eq_true.mpr ⟨w, hw, by simp [hk]⟩
        simp [State.lostRecalled, hany]
    show Host.Outcome.next _ = _
    simp [hrec, hno]

/-- Settles O47: the limits of a snoop and of a reservation, a dead agent at a home and its reclaim, and the end of a lost home's recall. The lost home's count
and walk (log entry 54), saturation and three-word addresses (63) and event 0x0A01 at the receiving home (41) are the model's choice. -/
theorem deadAgentsAndReservations : Obligations.DeadAgentsAndReservations :=
  ⟨snoopLimitKills, reservationEnds, deadAgentNoted, reclaimEnds, lostHomeRecalled⟩

end Sys2Proof.Machine

/-!
Key slots (R262 to R265): an erase of one slot or of all as a write of its command word, and what applies once a slot has no open cipher request.
-/
namespace Sys2Proof.Machine
open Sys2Proof

variable {s t u : State}

/-! ### One key slot -/

theorem State.cipher_frame (s : State) (c : Cipher) : OnlyChanges [.cipher] s { s with cipher := c } :=
  Fr.only (M := 2 ^ 26) (Fr.upd (Fr.refl s) rfl) (by decide)

theorem State.setSlot_frame (s : State) (k : Nat) (v : Slot) : OnlyChanges [.cipher] s (s.setSlot k v) := s.cipher_frame _

@[simp] theorem State.slot_setSlot_same (s : State) (k : Nat) (v : Slot) : (s.setSlot k v).slot k = v := SMap.getD_put_same _ _ _ _

theorem State.onlySlot_setSlot (s : State) (k : Nat) (v : Slot) : OnlySlot s (s.setSlot k v) k := fun _ hj => SMap.getD_put_ne _ _ _ hj

/-- A slot reads the same wherever the cipher lanes do. -/
theorem State.slot_of_cipher (e : t.cipher = s.cipher) (k : Nat) : t.slot k = s.slot k := by rw [State.slot, State.slot, e]

@[simp] theorem State.slot_log1 (s : State) (code : Nat) (args : List Word) (k : Nat) : (s.log1 code args).slot k = s.slot k :=
  State.slot_of_cipher (s.log1_cipher code args) k

/-- A slot set and the event of it: the slot, the others, the event and the frame. -/
theorem State.setSlot_log1_says {k code : Nat} {v : Slot} {args : List Word} (hd : s.dom 1 = true) :
    ((s.setSlot k v).log1 code args).slot k = v ∧ OnlySlot s ((s.setSlot k v).log1 code args) k ∧ LogsOne s ((s.setSlot k v).log1 code args) code args ∧
      OnlyChanges [.cipher, .log, .maint, .out] s ((s.setSlot k v).log1 code args) := by
  have hf := s.setSlot_frame k v
  refine ⟨by simp, fun j hj => (State.slot_log1 _ _ _ j).trans (s.onlySlot_setSlot k v j hj), ?_, (hf.then (State.log1_frame _ _ _)).mono (by simp)⟩
  exact LogsOne.of_frame hf (State.log1_logs (s := s.setSlot k v) hd)

/-! ### The command words -/

/-- The row of SLOT_CMD (R262). -/
def slotCmdRow : RegRow := { i0 := 0x6000, i1 := 0x63FF, s0 := 1, s1 := 1, acc := .wo }

/-- The row of ERASE_ALL (R265). -/
def eraseAllRow : RegRow := { i0 := 0x6400, i1 := 0x6400, s0 := 1, s1 := 1, acc := .wo }

theorem regRow_slotCmd (k : Fin 1024) : regRow (0x6000 + k) 1 = some slotCmdRow := by
  have hlt := k.isLt
  have hrow : slotCmdRow.has (0x6000 + k) 1 = true := by
    unfold RegRow.has slotCmdRow
    simpa using show 0x6000 + k.val ≤ 0x63FF by omega
  unfold regRow
  repeat rw [if_neg (by omega)]
  exact List.find?_cons_of_pos (p := fun r : RegRow => r.has (0x6000 + k) 1) hrow

/-- The objects of the cipher lanes stand in the domains of both halves (R391). -/
theorem State.avail_cipher (s : State) {i : Nat} (h : 0x6000 ≤ i) (h' : i < 0x7000) : s.avail i = s.avail 0x6000 := by
  have hdomains : domainsOf i = domainsOf 0x6000 := by
    unfold domainsOf
    repeat rw [if_neg (by omega)]
    rw [if_pos h']
    rfl
  rw [State.avail, State.avail, hdomains]

theorem State.write_slotErase (h : Path) (k : Fin 1024) (hd : s.dictOn = true) (hv : s.avail 0x6000 = true) :
    s.write h (0x6000 + k) 1 [0xEE] = (s.forgetAsm h (wkey (0x6000 + k) 1)).slotErase k := by
  have hlt := k.isLt
  rw [State.write_wo hd (regRow_slotCmd k) rfl rfl (by rw [State.avail_forgetAsm, State.avail_cipher s (by omega) (by omega), hv])]
  unfold State.woCmd
  rw [if_neg (by omega), if_neg (by omega), if_neg (by omega), if_pos (by omega), if_pos rfl, Option.getD_some, Nat.add_sub_cancel_left]
  rfl

theorem State.write_eraseAll (h : Path) (hd : s.dictOn = true) (hv : s.avail 0x6000 = true) :
    s.write h 0x6400 1 [0xEE] = (s.forgetAsm h (wkey 0x6400 1)).eraseSlots := by
  rw [State.write_wo (row := eraseAllRow) hd (by decide) rfl rfl (by rw [State.avail_forgetAsm, State.avail_cipher s (by decide) (by decide), hv])]
  rfl

/-! ### Erases -/

theorem SMap.look_range {α : Type} (f : Nat → α) {n k : Nat} (h : k < n) : SMap.look ((List.range n).map fun j => (j, f j)) k = some (f k) := by
  have hmap (l : List Nat) (hk : k ∈ l) : SMap.look (l.map fun j => (j, f j)) k = some (f k) := by
    induction l with
    | nil => cases hk
    | cons a r ih =>
      rw [List.map_cons, SMap.look_cons]
      split
      next hak => rw [hak]
      next hak => exact ih ((List.mem_cons.mp hk).resolve_left (Ne.symm hak))
  exact hmap _ (List.mem_range.mpr h)

/-- ERASE_ALL leaves every slot with its erase pending (R265). -/
theorem State.slot_eraseSlots (s : State) {k : Nat} (h : k < 1024) : s.eraseSlots.slot k = { s.slot k with st := 3, applied := false } := by
  simp only [State.eraseSlots, State.slot, SMap.getD, SMap.look_range _ h, Option.getD_some]

/-- The cipher lanes with a slot's failed parity forgotten: it is written anew (R260). -/
def State.rekeyed (s : State) (k : Nat) : State := { s with cipher := { s.cipher with badSlots := s.cipher.badSlots.filter (fun x => x ≠ k) } }

theorem State.rekeyed_frame (s : State) (k : Nat) : OnlyChanges [.cipher] s (s.rekeyed k) := s.cipher_frame _

theorem State.slotApply_erase {k : Nat} (ho : s.slotOpen k = 0) (hs : (s.slot k).st = 3) :
    s.slotApply k = ((s.rekeyed k).setSlot k {}).log1 0x0B09 [w16 k, w16 (s.slot k).kind] := by
  simp only [State.slotApply, ho, hs, ne_eq, not_true_eq_false, if_false, if_true]
  rfl

theorem slotErases : Claims.SlotErases := by
  intro s h k hd hv
  have hslot (a j : Nat) : (s.forgetAsm h a).slot j = s.slot j :=
    State.slot_of_cipher ((s.forgetAsm_frame h a).off_path (f := .cipher) (by decide) (by decide)) j
  refine ⟨⟨_, congrArg Host.Outcome.next (State.write_slotErase h k hd hv), ?_, fun j hj => ?_, ?_⟩,
    ⟨_, congrArg Host.Outcome.next (State.write_eraseAll h hd hv), fun j hj => ?_, ?_⟩, fun hs ho => ?_⟩
  · rw [State.slotErase, State.slot_setSlot_same, hslot]
  · exact (State.onlySlot_setSlot _ _ _ j hj).trans (hslot _ j)
  · exact (s.forgetAsm_frame h _).then (State.setSlot_frame _ _ _)
  · rw [State.slot_eraseSlots _ hj, hslot]
  · exact (s.forgetAsm_frame h _).then (State.cipher_frame _ _)
  · obtain ⟨hset, honly, hlog, hframe⟩ :=
      State.setSlot_log1_says (s := s.rekeyed k) (k := k) (v := {}) (code := 0x0B09) (args := [w16 k.val, w16 (s.slot k).kind]) hd
    rw [← State.slotApply_erase ho hs] at hset honly hlog hframe
    exact ⟨_, rfl, hset, honly, LogsOne.of_frame (s.rekeyed_frame k) hlog, ((s.rekeyed_frame k).then hframe).mono (by simp)⟩

/-! ### The end of a load -/

theorem State.slotApply_load {k : Nat} (ho : s.slotOpen k = 0) (hs : (s.slot k).st = 2) (ha : (s.slot k).applied = false) :
    s.slotApply k =
      (s.rekeyed k).setSlot k { s.slot k with kind := (s.slot k).newKind, key := (s.slot k).newKey, kcv := 0, newKey := 0, applied := true } := by
  simp only [State.slotApply, ho, hs, ha, ne_eq, not_true_eq_false, if_false, Nat.reduceEqDiff, Bool.not_false, and_self, if_true]
  rfl

/-- A slot loaded whose parity fails reads state 4 (R260). -/
theorem State.slotBad_loaded {k : Nat} (hs : (s.slot k).st = 2) (ha : (s.slot k).applied = true) :
    s.slotBad k = (s.setSlot k { s.slot k with st := 4 }).log1 0x0B05 [w16 k, 0, 5] := by
  rw [State.slotBad, if_neg (by simp [hs, ha])]

theorem State.slotDone_loaded {k : Nat} (hs : (s.slot k).st = 2) (ha : (s.slot k).applied = true) :
    s.slotDone k = if s.cipher.badSlots.contains k then s.slotBad k else
      (s.setSlot k { s.slot k with st := 1, newKind := 0, applied := false, kcv := (s.slot k).checkValue }).log1 0x0B09 [w16 k, w16 (s.slot k).kind] := by
  rw [State.slotDone, if_pos ⟨hs, ha⟩]

theorem slotLoadCompletes : Claims.SlotLoadCompletes := by
  intro s k hd hs
  refine ⟨fun ha ho => ?_, fun ha hbad => ?_, fun ha hgood => ?_⟩
  · refine ⟨_, congrArg Host.Outcome.next (State.slotApply_load ho hs ha), ?_⟩
    simp only [State.slot_setSlot_same, hs, true_and]
    exact ⟨State.onlySlot_setSlot (s.rekeyed k) k _, ((s.rekeyed_frame k).then (State.setSlot_frame _ _ _)).mono (by simp)⟩
  · have hdone : s.slotDone k = _ := (State.slotDone_loaded hs ha).trans ((if_pos hbad).trans (State.slotBad_loaded hs ha))
    exact ⟨_, congrArg Host.Outcome.next hdone, State.setSlot_log1_says hd⟩
  · have hdone : s.slotDone k = _ := (State.slotDone_loaded hs ha).trans (if_neg (by simpa using hgood))
    obtain ⟨hset, honly, hlog, hframe⟩ := State.setSlot_log1_says (s := s) (k := k)
      (v := { s.slot k with st := 1, newKind := 0, applied := false, kcv := (s.slot k).checkValue }) (code := 0x0B09) (args := [w16 k.val, w16 (s.slot k).kind]) hd
    refine ⟨_, congrArg Host.Outcome.next hdone, ?_, ?_, ?_, honly, hlog, hframe⟩ <;> rw [hset]

/-- Settles O22: an erase and a load end by the slot they set and the event of it. That an erase takes the place of a pending load (log entry 72) and the kind
word of event 0x0B09 at an erase (log entry 28) are the model's choice. -/
theorem keySlotsApply : Obligations.KeySlotsApply := ⟨slotErases, slotLoadCompletes⟩

end Sys2Proof.Machine

/-!
The admission of a cipher request, refuted in a state in which an onward request bears the number that the admitted one is given: the beat of a line that
fails is sought by number, and ends the earlier request and, with it, another stream.
-/
namespace Sys2Proof.Machine
open Sys2Proof

/-- The FIRST request of stream 0, of one line of two in CTR mode, with slot 0. -/
def firstDesc : CDesc :=
  { cv := true, first := true, last := false, stream := 0, mode := 4, dir := true, slot := 0, du := 0, len := 128, iv := 0, tag := 0, resv := 0 }

/-- A read of the first line with that descriptor, by master 0. -/
def firstRead : QReq :=
  { op := .read, w := { epoch := 0, priv := true, spec := false, lines := 0, tag := 0, tenant := 0, master := 0, addr := 0, dirty := false, rage := 0,
                        desc := some firstDesc } }

/-- The entry of stream 1, which awaits no more than the end of its LAST request (R250). -/
def endingEnt : CEnt :=
  { port := 0, stream := 1, mode := .ctr, dir := true, slot := 1, du := 0, len := 64, addr := 4096, iv := 0, tag := 0, next := 1, master := 0, tenant := 0,
    failed := none, poisoned := false, lns := [], segs := [], lastFrame := 0, hold := 0, lastTx := some 1 }

/-- The LAST request of stream 1, under number 1. -/
def endingRead : Onward :=
  { txid := 1, op := .read, lines := 1, tag := 0, tenant := 0, master := 0, addr := 4096, epoch := 0, home := 0, reserved := 1, cent := some 0 }

/-- A tile in service whose first page is a cipher region that its masters of group 0 may read, and whose next number is that of a request still onward. -/
def numberTwice : State :=
  { pd := { status := 0xA }, phy := { cap := 2 ^ 20 }, dict := { applied := [(wkey 0x3200 5, 1), (wkey 0x3200 7, 0xC000)] },
    cipher := { ents := [(0, endingEnt)] }, ports := [(0, { queue := [firstRead], onward := [endingRead] })] }

/-- Stream 1 loses its entry as stream 0 is admitted to an empty slot. -/
theorem numberTwice_frees_stream1 :
    SMap.look (numberTwice.admitFirst 0).cipher.ents 0 = none ∧ SMap.look numberTwice.cipher.ents 0 = some endingEnt := by
  decide +kernel

/-- The command is that admission. -/
theorem numberTwice_admits : exec (.cipherAdmit 0) numberTwice = .next (numberTwice.admitFirst 0) := by
  have hup : (numberTwice.portsUp && (numberTwice.port 0).flush.isNone) = true := by decide +kernel
  exact congrArg Host.Outcome.next (if_pos hup)

/-- What the statement asks of the port, the request and the queue of the lanes. -/
theorem numberTwice_waits :
    numberTwice.portsUp = true ∧ (numberTwice.port 0).queue = [firstRead] ∧ numberTwice.check 0 .read firstRead.w = .pass true false ∧
      numberTwice.checkHeld = false ∧ numberTwice.underCap 0 = true ∧ numberTwice.room 0 1 = true ∧
      numberTwice.here .read false 0 1 = none ∧ numberTwice.hasShare (numberTwice.serves 0 1) = true ∧
      numberTwice.inLanes 0 firstRead.w = false ∧ numberTwice.canAdmit firstDesc = true ∧ numberTwice.freeEntry = some 1 := by
  decide +kernel

theorem numberTwice_turns : ∀ x ∈ numberTwice.ports, ∀ q ∈ x.2.queue, q.adm = none := by decide +kernel

/-- Refutes O51: the statement ranges over every state, and in one where a read still onward bears the number that the next request is given (numbers come from
a counter that only rises, so no run is expected to reach it) a FIRST read admitted to an empty slot fails at once, its beat is found by that number, and the
read of the other stream ends in its place: the clause that every other entry of the queue stays as it was fails there. That a stream takes the lowest free entry
(`State.freeEntry`) is the model's own choice; the refutation does not turn on it. -/
theorem not_cipherRequests : ¬ Obligations.CipherRequests := by
  unfold Obligations.CipherRequests
  intro h
  obtain ⟨hadmit, -, -⟩ := h
  obtain ⟨hup, hqueue, hcheck, hheld, hcap, hroom, hhere, hshare, hlanes, hcan, hfree⟩ := numberTwice_waits
  obtain ⟨-, hempty⟩ := hadmit numberTwice 0 firstRead firstDesc false 1 hup hqueue rfl rfl rfl rfl rfl hcheck hheld hcap rfl hroom hhere hshare
    (by decide +kernel) hlanes numberTwice_turns hcan hfree (by decide) (by decide +kernel)
  obtain ⟨t, ht, ⟨-, hothers, -⟩, -⟩ := hempty rfl rfl
  have e : numberTwice.admitFirst 0 = t := Host.Outcome.next.inj (numberTwice_admits.symm.trans ht)
  obtain ⟨hnone, hsome⟩ := numberTwice_frees_stream1
  have hkept := hothers 0 (by decide)
  rw [← e, hnone, hsome] at hkept
  cases hkept

end Sys2Proof.Machine

/-!
Housekeeping (R267 to R275, R332): the samples of a round, what its end works out from them, and the records of the sensor chain.
-/
namespace Sys2Proof.Machine
open Sys2Proof

variable {s t u : State} {l m : List Field}

/-! ### Frames -/

theorem OnlyChanges.trans (h : OnlyChanges l s t) (k : OnlyChanges l t u) : OnlyChanges l s u := fun f hf => State.same_trans (h f hf) (k f hf)

theorem OnlyChanges.ite {c : Prop} [Decidable c] {a b : State} (ha : OnlyChanges l s a) (hb : OnlyChanges l s b) :
    OnlyChanges l s (if c then a else b) := by
  split
  · exact ha
  · exact hb

/-! ### What a round's operations keep of housekeeping -/

/-- The round stands where it stood: its samples with their MISSING bits, its channel and number, the reference fault, and the times of Assay. -/
structure Hk.Keeps (h k : Hk) : Prop where
  samples : k.samples = h.samples := by rfl
  missing : k.missing = h.missing := by rfl
  chan : k.chan = h.chan := by rfl
  rounds : k.rounds = h.rounds := by rfl
  refFault : k.refFault = h.refFault := by rfl
  assayAt : k.assayAt = h.assayAt := by rfl

theorem Hk.Keeps.trans {h k j : Hk} (a : h.Keeps k) (b : k.Keeps j) : h.Keeps j :=
  ⟨b.samples.trans a.samples, b.missing.trans a.missing, b.chan.trans a.chan, b.rounds.trans a.rounds, b.refFault.trans a.refFault,
    b.assayAt.trans a.assayAt⟩

/-- The round stands where it stood, and no part of the state differs but those listed. -/
def HkFrame (l : List Field) (s t : State) : Prop := s.hk.Keeps t.hk ∧ OnlyChanges l s t

theorem HkFrame.next (h : HkFrame l s t) (k : HkFrame m t u) (hm : m ⊆ l := by simp) : HkFrame l s u :=
  ⟨h.1.trans k.1, h.2.trans (k.2.mono hm)⟩

theorem HkFrame.off_hk (h : OnlyChanges l s t) (hl : .hk ∉ l := by simp) : HkFrame l s t := by
  have e : t.hk = s.hk := h .hk hl
  exact ⟨by rw [e]; exact {}, h⟩

theorem HkFrame.refl (s : State) : HkFrame l s s := ⟨{}, OnlyChanges.refl s l⟩

theorem HkFrame.foldl {α : Type} (xs : List α) (f : State → α → State) (hf : ∀ z x, HkFrame l z (f z x)) (s : State) : HkFrame l s (xs.foldl f s) := by
  induction xs generalizing s with
  | nil => exact .refl s
  | cons x xs ih => exact (hf s x).next (ih _) (List.Subset.refl l)

theorem HkFrame.ite {c : Prop} [Decidable c] {a b : State} (ha : HkFrame l s a) (hb : HkFrame l s b) : HkFrame l s (if c then a else b) := by
  split
  · exact ha
  · exact hb

/-- Housekeeping changed. -/
def State.withHk (s : State) (h : Hk) : State := { s with hk := h }

theorem State.withHk_frame (s : State) (h : Hk) : OnlyChanges [.hk] s (s.withHk h) := Fr.only (M := 2 ^ 28) (Fr.upd (Fr.refl s) rfl) (by decide)

theorem HkFrame.log1 (s : State) (code : Nat) (args : List Word) : HkFrame [.log, .maint, .out] s (s.log1 code args) := .off_hk (s.log1_frame code args)

theorem State.logRound_frame (s : State) (code key : Nat) (args : List Word) : OnlyChanges [.log, .maint, .out] s (s.logRound code key args) := by
  rw [State.logRound_only]
  exact Fr.only (M := 2 ^ 2 + 2 ^ 9 + 2 ^ 12) (Fr.upd (Fr.refl s) rfl) (by decide)

/-- The parts that the judging of a sample or of a round touches. -/
@[simp] def roundFields : List Field := [.hk, .log, .maint, .out]

theorem HkFrame.withHk (s : State) {h : Hk} (k : s.hk.Keeps h) : HkFrame roundFields s (s.withHk h) := ⟨k, (s.withHk_frame h).mono (by simp)⟩

theorem HkFrame.withHk_log1 (s : State) {h : Hk} (k : s.hk.Keeps h) (code : Nat) (args : List Word) :
    HkFrame roundFields s ((s.withHk h).log1 code args) := (HkFrame.withHk s k).next (.log1 _ _ _)

theorem HkFrame.setHot (s : State) (n : Nat) : HkFrame roundFields s (s.setHot n) := by
  unfold State.setHot
  dsimp only
  split
  · exact .withHk s {}
  · exact .withHk_log1 s (h := { s.hk with hot := n, halfDue := some (n != 0) }) {} _ _

/-! ### One sample -/

theorem HkFrame.judgeSample (s : State) (ch : Nat) : HkFrame roundFields s (s.judgeSample ch) := by
  have h1 (x y : BitVec 32) : HkFrame roundFields s (s.withHk { s.hk with outLim := x, nowOut := y }) := .withHk s {}
  unfold State.judgeSample
  dsimp only
  split
  · exact (h1 _ _).next (.off_hk (State.logRound_frame _ _ _ _))
  · exact h1 _ _

theorem HkFrame.judgeStack (s : State) (ch : Nat) : HkFrame roundFields s (s.judgeStack ch) := by
  unfold State.judgeStack
  split
  · exact .refl s
  · split
    · exact .setHot s 2
    · exact .ite (.setHot s _) (.refl s)

/-- A round goes on to its next channel at the channel's offset (R270). -/
def State.nextChannel (s : State) : State :=
  { s with clk := { s.clk with pt := max s.clk.pt ((2 ^ 23 * s.hk.rounds + 2 ^ 18 * s.hk.chan) * 36) }, hk := { s.hk with chan := s.hk.chan + 1 } }

theorem exec_hkSample (v : Option Word) (powered : Bool) (h : s.hk.chan < 32) :
    exec (.hkSample v powered) s =
      .next (((s.nextChannel.keepSample s.hk.chan (s.sampled s.hk.chan v) (powered && s.sourceOn s.hk.chan)).judgeSample s.hk.chan).judgeStack s.hk.chan) :=
  congrArg Host.Outcome.next (if_neg (Nat.not_le_of_lt h))

theorem State.nextChannel_frame (s : State) : OnlyChanges [.hk, .clk] s s.nextChannel :=
  Fr.only (M := 2 ^ 5 + 2 ^ 28) (Fr.upd (Fr.refl s) rfl) (by decide)

/-- A bit that is set leaves every other bit as it was, those beyond the width too. -/
theorem bit_setBit_ne {n : Nat} (w : BitVec n) {i j : Nat} (b : Bool) (h : j ≠ i) : bit (setBit w i b) j = bit w j := by
  by_cases hj : j < n
  · rw [bit_setBit w i j b hj, if_neg (Ne.symm h)]
  · rw [bit, bit, BitVec.getLsbD_of_ge _ _ (by omega), BitVec.getLsbD_of_ge _ _ (by omega)]

theorem sampleKept : Claims.SampleKept := by
  intro s v powered hc on
  let z := s.nextChannel.keepSample s.hk.chan (s.sampled s.hk.chan v) on
  have hj : HkFrame roundFields z ((z.judgeSample s.hk.chan).judgeStack s.hk.chan) := (HkFrame.judgeSample z _).next (.judgeStack _ _)
  obtain ⟨hk, hf⟩ := hj
  have hz : OnlyChanges [.hk, .clk] s z := (s.nextChannel_frame.then (s.nextChannel.withHk_frame _)).mono (by simp)
  refine ⟨_, exec_hkSample v powered hc, hk.chan, hk.rounds, ?_, ?_, fun c hne => ?_, fun c hne => ?_, congrArg Clock.pt (hf .clk (by simp)),
    (hz.then hf).mono (by simp)⟩
  · rw [hk.samples]
    refine (SMap.getD_put_same _ _ _ _).trans ?_
    cases s.sampled s.hk.chan v <;> cases on <;> rfl
  · rw [hk.missing]
    exact (bit_setBit _ _ _ _ hc).trans (if_pos rfl)
  · rw [hk.samples]
    exact SMap.getD_put_ne _ _ _ hne
  · rw [hk.missing]
    exact bit_setBit_ne _ _ hne

/-! ### Faults, measurements and corrections -/

/-- A fault above the pseudo-channels is a count and an event (R304). -/
theorem State.fault_high {c : FClass} (h : 4 < classNo c) (v : RUnit) :
    s.fault c v = (s.count 0x7820 (4 * classNo c + 1)).log1 0x0E02 [w16 (classNo c), Config.unitCode v] := if_neg (Nat.not_le_of_lt h)

theorem State.setPc_frame (s : State) (c : Nat) (v : PcSt) : OnlyChanges [.pcs] s (s.setPc c v) := (PcFrame.setPc s c v).2

theorem State.fault_frame (s : State) (c : FClass) (v : RUnit) : OnlyChanges [.ctr, .log, .maint, .out, .pcs] s (s.fault c v) := by
  have h : OnlyChanges [.log, .maint, .out, .ctr] s ((s.count 0x7820 (4 * classNo c + 1)).log1 0x0E02 [w16 (classNo c), Config.unitCode v]) :=
    (s.count_frame _ _ _).then (State.log1_frame _ _ _)
  unfold State.fault
  dsimp only
  split
  · exact (h.then (State.setPc_frame _ _ _)).mono (by simp)
  · exact h.mono (by simp)

/-- A fault is counted under its class and nowhere else. -/
theorem State.ctrOf_fault_ne {c : FClass} {i x : Nat} (v : RUnit) (h : wkey i x ≠ wkey 0x7820 (4 * classNo c + 1)) :
    (s.fault c v).ctrOf i x = s.ctrOf i x := by
  have e : (s.fault c v).ctr = (s.count 0x7820 (4 * classNo c + 1)).ctr := by
    unfold State.fault
    dsimp only
    split <;> exact State.log1_ctr _ _ _
  rw [State.ctrOf, e]
  exact State.ctrOf_count_ne h

/-- Repair's state changed. -/
def State.withRepair (s : State) (r : Repair) : State := { s with repair := r }

theorem State.withRepair_frame (s : State) (r : Repair) : OnlyChanges [.repair] s (s.withRepair r) :=
  Fr.only (M := 2 ^ 30) (Fr.upd (Fr.refl s) rfl) (by decide)

theorem State.await_frame (s : State) (rung : Nat) (v : RUnit) (c : FClass) : OnlyChanges [.repair] s (s.await rung v c) := by
  unfold State.await
  exact .ite (s.withRepair_frame _) (s.withRepair_frame _)

theorem State.calFault_frame (s : State) (g : Nat) : OnlyChanges [.repair, .ctr, .log, .maint, .out, .pcs] s (s.calFault g) :=
  (s.fault_frame _ _).then (State.await_frame _ _ _ _)

theorem State.ctrOf_calFault_ne {i x : Nat} (g : Nat) (h : wkey i x ≠ wkey 0x7820 5) : (s.calFault g).ctrOf i x = s.ctrOf i x := by
  have e : (s.calFault g).ctr = (s.fault .calibration ⟨4 * g, 0, 0, 63⟩).ctr := (State.await_frame _ _ _ _) .ctr (by simp)
  rw [State.ctrOf, e]
  exact State.ctrOf_fault_ne _ h

/-- A measurement is recorded with the temperature it was taken at, where one is known (R282). -/
def State.noted (s : State) (kind g : Nat) (m : Word) : State :=
  let h := { s.hk with meas := s.hk.meas.put 0 (coefIdx kind g) m }
  s.withHk (match s.coefTemp kind g with
    | none => h
    | some x => { h with measT := h.measT.put 0 (coefIdx kind g) (ofI16 x) })

/-- A correction lies beyond the limit of R283. -/
def State.tooFar (s : State) (kind g : Nat) (m : Word) (x : Int) : Prop :=
  ((s.reg 0x7000 6).toNat : Int) < i16 m - s.coefAt kind g (some x) ∨ i16 m - s.coefAt kind g (some x) < -((s.reg 0x7000 6).toNat : Int)

/-- A set takes a new value, and the measurement is in force from the next tick (R282). -/
def State.putSet (s : State) (kind g : Nat) (m : Word) (point : Nat) (new : Int) : State :=
  let z := (s.noted kind g m).setReg (coefIdx kind g) (point + 1) (ofI16 new)
  z.withHk { z.hk with forceDue := SMap.set z.hk.forceDue (coefIdx kind g) m, refusals := SMap.del z.hk.refusals (refKey kind g) }

/-- The value that a measurement gives its nearest set (R282). -/
def State.newSet (s : State) (kind g : Nat) (m : Word) (x : Int) : Int :=
  clampKind kind (i16 (s.reg (coefIdx kind g) ((chosen x).1 + 1)) +
    roundDiv ((i16 m - s.coefAt kind g (some x)) * (chosen x).2.1) (chosen x).2.2.toNat)

/-- The nearest set corrected (R282). -/
def State.corrected (s : State) (kind g : Nat) (m : Word) (x : Int) : State := s.putSet kind g m (chosen x).1 (s.newSet kind g m x)

/-- A refusal of a correction, the `n`-th in a row, with its event (R283). -/
def State.refusal (s : State) (kind g : Nat) (m : Word) (x : Int) (n : Nat) : State :=
  let z := s.noted kind g m
  (z.withHk { z.hk with refusals := SMap.put 0 z.hk.refusals (refKey kind g) (if n = 2 then 0 else n) }).log1 0x0C06
    [groupWord kind g, w16 kind, ofI16 (i16 m - s.coefAt kind g (some x))]

/-- Without a temperature, or with Assay frozen, a measurement corrects nothing (R279). -/
theorem State.measure_held {kind g : Nat} (w : Word) (h : s.coefTemp kind g = none ∨ s.frozen = true) : s.measure kind g w = s.noted kind g w := by
  unfold State.measure State.noted
  dsimp only
  cases ht : s.coefTemp kind g with
  | none => rfl
  | some x => exact if_pos (h.resolve_left (by simp [ht]))

theorem State.measure_fits {kind g : Nat} {w : Word} {x : Int} (ht : s.coefTemp kind g = some x) (hz : s.frozen = false) (hf : ¬s.tooFar kind g w x) :
    s.measure kind g w = s.corrected kind g w x := by
  unfold State.measure State.corrected State.putSet State.newSet State.noted
  simp only [ht, hz]
  exact if_neg hf

/-- The second refusal in a row is a calibration fault of the group, or of no group for a tile-wide kind (R283). -/
theorem State.measure_refused {kind g : Nat} {w : Word} {x : Int} (ht : s.coefTemp kind g = some x) (hz : s.frozen = false) (hf : s.tooFar kind g w x) :
    ∃ n, s.measure kind g w =
      if n = 2 then
        (let z := (s.refusal kind g w x n).log1 0x0C07 [groupWord kind g, w16 kind]
         if kind < 4 then z.calFault g else z)
      else s.refusal kind g w x n := by
  refine ⟨s.hk.refusals.getD (refKey kind g) 0 + 1, ?_⟩
  unfold State.measure State.refusal State.noted
  simp only [ht, hz]
  exact if_pos hf

/-- The parts that a measurement touches: one of a group may end in a calibration fault, one of the tile in none (R283). -/
@[simp] def measFields : List Field := [.hk, .dict, .log, .maint, .out, .ctr, .repair, .pcs]
@[simp] def tileMeasFields : List Field := [.dict, .hk, .log, .maint, .out]

/-- What every measurement does, corrected or not: the value is recorded, and nothing moves but what is its own coefficient's. -/
structure State.Measured (s : State) (kind g : Nat) (w : Word) (t : State) : Prop where
  hk : s.hk.Keeps t.hk
  meas : t.hk.meas = s.hk.meas.put 0 (coefIdx kind g) w
  force : ∀ k, k ≠ coefIdx kind g → t.hk.forceDue.getD k 0 = s.hk.forceDue.getD k 0
  reg : ∀ i x, x < 256 → i ≠ coefIdx kind g → t.reg i x = s.reg i x
  ctr : ∀ i x, wkey i x ≠ wkey 0x7820 5 → t.ctrOf i x = s.ctrOf i x
  dict : s.frozen = true → t.dict = s.dict
  frame : OnlyChanges measFields s t
  tile : 4 ≤ kind → OnlyChanges tileMeasFields s t

section
variable {kind g : Nat} {w : Word}

theorem State.noted_keeps (s : State) (kind g : Nat) (w : Word) : s.hk.Keeps (s.noted kind g w).hk := by
  unfold State.noted
  split <;> exact {}

theorem State.noted_meas (s : State) (kind g : Nat) (w : Word) : (s.noted kind g w).hk.meas = s.hk.meas.put 0 (coefIdx kind g) w := by
  unfold State.noted
  split <;> rfl

theorem State.noted_forceDue (s : State) (kind g : Nat) (w : Word) : (s.noted kind g w).hk.forceDue = s.hk.forceDue := by
  unfold State.noted
  split <;> rfl

theorem State.noted_frame (s : State) (kind g : Nat) (w : Word) : OnlyChanges [.hk] s (s.noted kind g w) := s.withHk_frame _

/-- A step of housekeeping alone that leaves the measurements and the values due as they are. -/
theorem State.Measured.withHk (h : s.Measured kind g w t) {k : Hk} (hk : t.hk.Keeps k) (hm : k.meas = t.hk.meas)
    (hf : ∀ i, i ≠ coefIdx kind g → k.forceDue.getD i 0 = t.hk.forceDue.getD i 0) : s.Measured kind g w (t.withHk k) where
  hk := h.hk.trans hk
  meas := hm.trans h.meas
  force i hi := (hf i hi).trans (h.force i hi)
  reg := h.reg
  ctr := h.ctr
  dict := h.dict
  frame := (h.frame.then (t.withHk_frame k)).mono (by simp)
  tile hk := ((h.tile hk).then (t.withHk_frame k)).mono (by simp)

theorem State.Measured.noted (s : State) (kind g : Nat) (w : Word) : s.Measured kind g w (s.noted kind g w) where
  hk := s.noted_keeps kind g w
  meas := s.noted_meas kind g w
  force _ _ := by rw [s.noted_forceDue]
  reg _ _ _ _ := rfl
  ctr _ _ _ := rfl
  dict _ := rfl
  frame := (s.noted_frame kind g w).mono (by simp)
  tile _ := (s.noted_frame kind g w).mono (by simp)

theorem State.Measured.log1 (h : s.Measured kind g w t) (code : Nat) (args : List Word) : s.Measured kind g w (t.log1 code args) where
  hk := by rw [State.log1_hk]; exact h.hk
  meas := by rw [State.log1_hk]; exact h.meas
  force i hi := by rw [State.log1_hk]; exact h.force i hi
  reg i x hx hi := (State.reg_of_frame (t.log1_frame code args) (i := i) (x := x)).trans (h.reg i x hx hi)
  ctr i x hk := by rw [State.ctrOf, State.log1_ctr]; exact h.ctr i x hk
  dict hz := (t.log1_dict code args).trans (h.dict hz)
  frame := (h.frame.then (t.log1_frame code args)).mono (by simp)
  tile hk := ((h.tile hk).then (t.log1_frame code args)).mono (by simp)

theorem State.Measured.calFault (h : s.Measured kind g w t) (hk : kind < 4) : s.Measured kind g w (t.calFault g) := by
  have hf := t.calFault_frame g
  have e : (t.calFault g).hk = t.hk := hf .hk (by simp)
  exact {
    hk := by rw [e]; exact h.hk
    meas := by rw [e]; exact h.meas
    force := by rw [e]; exact h.force
    reg := fun i x hx hi => (State.reg_of_frame hf (i := i) (x := x)).trans (h.reg i x hx hi)
    ctr := fun i x hne => (State.ctrOf_calFault_ne g hne).trans (h.ctr i x hne)
    dict := fun hz => (hf .dict (by simp)).trans (h.dict hz)
    frame := (h.frame.then hf).mono (by simp)
    tile := fun hk' => absurd hk (Nat.not_lt_of_le hk') }

theorem State.Measured.refusal (s : State) (kind g : Nat) (w : Word) (x : Int) (n : Nat) : s.Measured kind g w (s.refusal kind g w x n) := by
  refine .log1 (.withHk (.noted s kind g w) ?_ ?_ ?_) _ _
  · exact {}
  · rfl
  · exact fun _ _ => rfl

theorem segment_lt {x : Int} {i : Nat} (h : segment x = some i) : i < 4 := by
  unfold segment at h
  split at h
  · cases h
  · exact List.mem_range.mp (List.mem_of_find?_eq_some h)

theorem chosen_lt (x : Int) : (chosen x).1 < 5 := by
  unfold chosen
  split
  · dsimp only
    split <;> omega
  · next i hi =>
    have := segment_lt hi
    dsimp only
    split <;> dsimp only <;> omega

theorem wkey_ne {i j x y : Nat} (hx : x < 256) (hy : y < 256) (h : i ≠ j) : wkey i x ≠ wkey j y := by
  unfold wkey
  omega

theorem State.Measured.corrected {x : Int} (hz : s.frozen = false) : s.Measured kind g w (s.corrected kind g w x) := by
  have hn := State.Measured.noted s kind g w
  have hc := chosen_lt x
  have hset (v : Word) : s.Measured kind g w ((s.noted kind g w).setReg (coefIdx kind g) ((chosen x).1 + 1) v) :=
    { hn with
      reg := fun i y hy hi => (State.reg_setReg_ne _ v (wkey_ne hy (by omega) hi)).trans (hn.reg i y hy hi)
      dict := fun h => absurd h (by simp [hz])
      frame := (hn.frame.then (State.setReg_frame _ _ _ v)).mono (by simp)
      tile := fun hk => ((hn.tile hk).then (State.setReg_frame _ _ _ v)).mono (by simp) }
  exact (hset _).withHk {} rfl fun i hi => SMap.getD_set_ne _ _ _ hi

theorem State.measured (s : State) (kind g : Nat) (w : Word) : s.Measured kind g w (s.measure kind g w) := by
  by_cases hheld : s.coefTemp kind g = none ∨ s.frozen = true
  · rw [State.measure_held w hheld]
    exact .noted s kind g w
  · obtain ⟨htemp, hfrozen⟩ := not_or.mp hheld
    obtain ⟨x, ht⟩ := Option.ne_none_iff_exists'.mp htemp
    have hz := Bool.eq_false_of_not_eq_true hfrozen
    by_cases hf : s.tooFar kind g w x
    · obtain ⟨n, e⟩ := State.measure_refused ht hz hf
      have hr := State.Measured.refusal s kind g w x n
      rw [e]
      split
      · dsimp only
        split
        · exact (hr.log1 _ _).calFault ‹_›
        · exact hr.log1 _ _
      · exact hr
    · rw [State.measure_fits ht hz hf]
      exact .corrected hz

end

/-! ### A round's end -/

/-- A channel's fault begins or ends at a round's end (R273): `h` is housekeeping as the round left it, `cnt` the channels that count as missing. -/
def State.faultChannel (z : State) (h : Hk) (cnt : BitVec 32) (ch : Nat) : State :=
  if bit cnt ch && bit h.prevMiss ch && !bit h.chFault ch then
    (z.withHk { z.hk with chFault := setBit z.hk.chFault ch true }).log1 0x0D04 [w16 ch, 0x8000]
  else if !bit h.nowMiss ch then z.withHk { z.hk with chFault := setBit z.hk.chFault ch false }
  else z

/-- A supply beyond its limits in two rounds running is reported once (R273). -/
def State.reportSupply (z : State) (h : Hk) (ch : Nat) : State :=
  let out2 := bit h.nowOut ch && bit h.prevOut ch
  if supplyCh ch then
    let y := if out2 && !bit h.supplyRep ch then z.log1 0x0D04 [w16 ch, z.sample ch] else z
    y.withHk { y.hk with supplyRep := setBit y.hk.supplyRep ch out2 }
  else z

theorem State.channelFaults_eq (s : State) :
    s.channelFaults =
      (let h := s.hk
       let cnt := h.nowMiss &&& ~~~ h.nowOff
       let z := (List.range 32).foldl (fun z ch => (z.faultChannel h cnt ch).reportSupply h ch) s
       z.withHk { z.hk with prevMiss := cnt, prevOut := h.nowOut, nowMiss := 0, nowOut := 0, nowOff := 0 }) := rfl

theorem HkFrame.faultChannel (z : State) (h : Hk) (cnt : BitVec 32) (ch : Nat) : HkFrame roundFields z (z.faultChannel h cnt ch) := by
  unfold State.faultChannel
  refine .ite (.withHk_log1 z ?_ _ _) (.ite (.withHk z ?_) (.refl z)) <;> exact {}

theorem HkFrame.reportSupply (z : State) (h : Hk) (ch : Nat) : HkFrame roundFields z (z.reportSupply h ch) := by
  refine .ite (.next (m := roundFields) (.ite ((HkFrame.refl z).next (.log1 z _ _)) (.refl z)) (.withHk _ ?_)) (.refl z)
  exact {}

theorem HkFrame.channelFaults (s : State) : HkFrame roundFields s s.channelFaults := by
  rw [State.channelFaults_eq]
  refine (HkFrame.foldl (l := roundFields) _ _ (fun z ch => (HkFrame.faultChannel z _ _ ch).next (.reportSupply _ _ ch)) s).next (.withHk _ ?_)
  exact {}

theorem HkFrame.coolCheck (s : State) : HkFrame roundFields s s.coolCheck := by
  refine .ite (.setHot s 0) (.ite (.withHk s ?_) (.refl s))
  exact {}

theorem HkFrame.recompute (s : State) (atStart : Bool) (skip : List Nat) : HkFrame roundFields s (s.recompute atStart skip) := by
  refine .withHk s ?_
  exact {}

/-- One tile-wide kind measured, where it was and its channel is there (R280). -/
def State.measureOne (z : State) (kind : Nat) (v : Option Word) (atStart : Bool) : State := match v with
  | some x => if z.kindHere kind atStart then z.measure kind 0 x else z
  | none => z

theorem State.measureTile_eq (s : State) (m : HkMeas) (atStart : Bool) :
    s.measureTile m atStart = ((s.measureOne 4 m.trim atStart).measureOne 5 m.band0 atStart).measureOne 6 m.band1 atStart := rfl

theorem HkFrame.measureOne (z : State) {kind : Nat} (v : Option Word) (atStart : Bool) (h : 4 ≤ kind) :
    HkFrame tileMeasFields z (z.measureOne kind v atStart) := by
  cases v with
  | none => exact .refl z
  | some x => exact .ite ⟨(z.measured kind 0 x).hk, (z.measured kind 0 x).tile h⟩ (.refl z)

theorem HkFrame.measureTile (s : State) (m : HkMeas) (atStart : Bool) : HkFrame tileMeasFields s (s.measureTile m atStart) := by
  rw [State.measureTile_eq]
  exact ((HkFrame.measureOne s m.trim atStart (by decide)).next (.measureOne _ m.band0 atStart (by decide))).next
    (.measureOne _ m.band1 atStart (by decide))

/-- The witness beyond its limit (R268): the first round of a run logs event 0x0D01. -/
def State.witnessOut (s : State) (x : Int) : State :=
  let z := s.withHk { s.hk with witOut := min (s.hk.witOut + 1) 2, witIn := 0, witLevel := true }
  if s.hk.witOut = 0 then z.log1 0x0D01 [ofI16 x] else z

/-- The reference fault (R268). -/
def State.witnessFault (z : State) (x : Int) : State :=
  ((z.withHk { z.hk with refFault := true }).log1 0x0D02 [ofI16 x]).fault .reference ⟨0, 0, 0, 0⟩

theorem State.witnessCheck_beyond {x : Int} (hx : s.present 12 = some x) (hb : s.witnessBeyond x = true) :
    s.witnessCheck = if s.hk.witOut ≥ 1 ∧ !s.hk.refFault then (s.witnessOut x).witnessFault x else s.witnessOut x := by
  unfold State.witnessCheck
  simp only [hx]
  exact if_pos hb

theorem State.witnessCheck_within (h : ∀ x, s.present 12 = some x → s.witnessBeyond x = false) :
    ∃ k : Hk, k.samples = s.hk.samples ∧ k.missing = s.hk.missing ∧ s.witnessCheck = s.withHk k := by
  unfold State.witnessCheck
  cases hx : s.present 12 with
  | none => exact ⟨{ s.hk with witOut := 0, witIn := 0, witLevel := false }, rfl, rfl, rfl⟩
  | some x =>
    let k : Hk := { s.hk with witOut := 0, witIn := min (s.hk.witIn + 1) 2, witLevel := false, refFault := s.hk.refFault && decide (s.hk.witIn < 1) }
    exact ⟨k, rfl, rfl, if_neg (by simp [h x hx])⟩

theorem State.witnessOut_says (s : State) (x : Int) :
    (s.witnessOut x).hk = { s.hk with witOut := min (s.hk.witOut + 1) 2, witIn := 0, witLevel := true } ∧ OnlyChanges roundFields s (s.witnessOut x) := by
  have hf := s.withHk_frame { s.hk with witOut := min (s.hk.witOut + 1) 2, witIn := 0, witLevel := true }
  unfold State.witnessOut
  dsimp only
  split
  · exact ⟨State.log1_hk _ _ _, (hf.then (State.log1_frame _ _ _)).mono (by simp)⟩
  · exact ⟨rfl, hf.mono (by simp)⟩

theorem State.witnessFault_says (z : State) (x : Int) :
    (z.witnessFault x).hk = { z.hk with refFault := true } ∧ z.counted (z.witnessFault x) 0x7820 33 1 ∧
      OnlyChanges [.hk, .log, .maint, .out, .ctr] z (z.witnessFault x) := by
  let y := (z.withHk { z.hk with refFault := true }).log1 0x0D02 [ofI16 x]
  have e : z.witnessFault x = (y.count 0x7820 33).log1 0x0E02 [w16 8, Config.unitCode ⟨0, 0, 0, 0⟩] := State.fault_high (by decide) _
  have hy : OnlyChanges roundFields z y := ((z.withHk_frame _).then (State.log1_frame _ _ _)).mono (by simp)
  have hk : y.hk = { z.hk with refFault := true } := State.log1_hk _ _ _
  rw [e]
  refine ⟨(State.log1_hk _ _ _).trans hk, ?_, ((hy.then (y.count_frame _ _ _)).then (State.log1_frame _ _ _)).mono (by simp)⟩
  exact State.counted_then (State.counted_of_frame hy (y.counted_count _ _ _)) (State.log1_frame _ _ _)

/-- What the judging of the witness leaves alone, whether or not it is a fault. -/
theorem State.witnessCheck_keeps (s : State) :
    s.witnessCheck.hk.samples = s.hk.samples ∧ s.witnessCheck.hk.missing = s.hk.missing ∧
      OnlyChanges [.hk, .log, .maint, .out, .ctr] s s.witnessCheck := by
  by_cases h : ∀ x, s.present 12 = some x → s.witnessBeyond x = false
  · obtain ⟨k, hs, hm, e⟩ := State.witnessCheck_within h
    rw [e]
    exact ⟨hs, hm, (s.withHk_frame k).mono (by simp)⟩
  · push Not at h
    obtain ⟨x, hx, hb⟩ := h
    obtain ⟨hk, hf⟩ := State.witnessOut_says s x
    rw [State.witnessCheck_beyond hx (by simpa using hb)]
    split
    · obtain ⟨hk', -, hf'⟩ := (s.witnessOut x).witnessFault_says x
      rw [hk', hk]
      exact ⟨rfl, rfl, (hf.then hf').mono (by simp)⟩
    · rw [hk]
      exact ⟨rfl, rfl, hf.mono (by simp)⟩

/-- The second round running beyond the limit is a reference fault, counted as one (R268, R336). -/
theorem State.witnessCheck_faults {x : Int} (hx : s.present 12 = some x) (hb : s.witnessBeyond x = true) (ho : s.hk.witOut ≠ 0)
    (hr : s.hk.refFault = false) : s.witnessCheck.hk.refFault = true ∧ s.counted s.witnessCheck 0x7820 33 1 := by
  obtain ⟨hk, hc, -⟩ := (s.witnessOut x).witnessFault_says x
  rw [State.witnessCheck_beyond hx hb, if_pos ⟨Nat.one_le_iff_ne_zero.mpr ho, by simp [hr]⟩, hk]
  exact ⟨rfl, State.counted_of_frame (State.witnessOut_says s x).2 hc⟩

/-- LIFE_EQ stands at `life`, and no part but repair's and the log's has changed. -/
def State.Ages (s : State) (life : Nat) (t : State) : Prop := t.repair.life = life ∧ OnlyChanges [.log, .maint, .out, .repair] s t

theorem State.Ages.ite {c : Prop} [Decidable c] {n : Nat} {a b : State} (ha : s.Ages n a) (hb : s.Ages n b) : s.Ages n (if c then a else b) := by
  split
  · exact ha
  · exact hb

theorem State.Ages.event {n : Nat} {z : State} (h : s.Ages n z) {r : Repair} (hr : r.life = z.repair.life) (code : Nat) (args : List Word) :
    s.Ages n ((z.withRepair r).log1 code args) := by
  refine ⟨?_, ((h.2.then (z.withRepair_frame r)).then (State.log1_frame _ _ _)).mono (by simp)⟩
  rw [State.log1_repair]
  exact hr.trans h.1

/-- LIFE_EQ gains the round at the weight of TJ, whichever thresholds it passes (R332). -/
theorem State.Ages.ageLife (s : State) : s.Ages (s.repair.life + 2 ^ 23 * lifeWeight s.tj) s.ageLife := by
  have h1 : s.Ages (s.repair.life + 2 ^ 23 * lifeWeight s.tj) (s.withRepair { s.repair with life := s.repair.life + 2 ^ 23 * lifeWeight s.tj }) :=
    ⟨rfl, (s.withRepair_frame _).mono (by simp)⟩
  have h2 (c : Prop) [Decidable c] {z : State} (h : s.Ages (s.repair.life + 2 ^ 23 * lifeWeight s.tj) z) (r : Repair) (hr : r.life = z.repair.life)
      (args : List Word) : s.Ages (s.repair.life + 2 ^ 23 * lifeWeight s.tj) (if c then (z.withRepair r).log1 0x0E16 args else z) :=
    .ite (h.event hr _ _) h
  refine h2 _ (h2 _ h1 _ ?_ _) _ ?_ _ <;> rfl

theorem State.ageLife_frame (s : State) : OnlyChanges [.log, .maint, .out, .repair] s s.ageLife := (State.Ages.ageLife s).2

/-! ### The sensor chain -/

/-- The message that a record is passed on with (R274), where a tile stands on that side. -/
def State.chainMsgs (s : State) (up : Bool) (k : Nat) (samples : List Word) (missing : BitVec 32) : List Out :=
  if (if up then s.t + 1 < s.n else 0 < s.t) then [.ring (.chainRecord up k samples missing (chainCrc samples missing))] else []

theorem State.out_chainSend (s : State) (up : Bool) (k : Nat) (samples : List Word) (missing : BitVec 32) :
    (s.chainSend up k samples missing).out = s.out ++ s.chainMsgs up k samples missing := by
  unfold State.chainSend State.chainMsgs
  by_cases h : if up = true then s.t + 1 < s.n else 0 < s.t
  · rw [if_pos h, if_pos h]
    rfl
  · rw [if_neg h, if_neg h, List.append_nil]

theorem State.chainMsgs_of_ident (e : t.ident = s.ident) (up : Bool) (k : Nat) (samples : List Word) (missing : BitVec 32) :
    t.chainMsgs up k samples missing = s.chainMsgs up k samples missing := by
  unfold State.chainMsgs State.t State.n
  rw [e]

theorem State.chainSend_frame (s : State) (up : Bool) (k : Nat) (samples : List Word) (missing : BitVec 32) :
    OnlyChanges [.out] s (s.chainSend up k samples missing) :=
  .ite (s.emit_frame _) (.refl s _)

/-- Samples put one after another are read back where they were put. -/
theorem getD_puts (m : SMap Word) (base : Nat) (f : Nat → Word) {n k : Nat} (h : k < n) :
    ((List.range n).foldl (fun m j => SMap.put 0x8000 m (base + j) (f j)) m).getD (base + k) 0x8000 = f k := by
  induction n with
  | zero => cases h
  | succ n ih =>
    rw [List.range_succ, List.foldl_append, List.foldl_cons, List.foldl_nil]
    by_cases e : k = n
    · rw [e, SMap.getD_put_same]
    · rw [SMap.getD_put_ne _ _ _ (by omega), ih (by omega)]

/-- Samples deleted one after another read as missing. -/
theorem getD_dels (m : SMap Word) (base : Nat) {n k : Nat} (h : k < n) :
    ((List.range n).foldl (fun m j => SMap.del m (base + j)) m).getD (base + k) 0x8000 = 0x8000 := by
  induction n with
  | zero => cases h
  | succ n ih =>
    rw [List.range_succ, List.foldl_append, List.foldl_cons, List.foldl_nil]
    by_cases e : k = n
    · rw [e, SMap.getD_del_same]
    · rw [SMap.getD_del_ne _ _ (by omega), ih (by omega)]

/-- The samples of a tile's own record (R274). -/
def State.ownSamples (s : State) : List Word := (List.range 32).map s.sample

/-- The package view with the tile's own record in it (R274). -/
def State.ownView (s : State) : SMap Word := (List.range 32).foldl (fun m c => SMap.put 0x8000 m (s.t * 32 + c) (s.sample c)) s.hk.chain

theorem State.chainStart_eq (s : State) :
    s.chainStart = ((s.withHk { s.hk with chain := s.ownView, chainGot := setBit (0 : BitVec 8) s.t true, chainNew := false }).chainSend true s.t
      s.ownSamples s.hk.missing).chainSend false s.t s.ownSamples s.hk.missing := rfl

theorem State.chainStart_says (s : State) :
    s.hk.Keeps s.chainStart.hk ∧ s.chainStart.hk.chain = s.ownView ∧
      s.chainStart.out = s.out ++ s.chainMsgs true s.t s.ownSamples s.hk.missing ++ s.chainMsgs false s.t s.ownSamples s.hk.missing ∧
      OnlyChanges [.hk, .out] s s.chainStart := by
  let z := s.withHk { s.hk with chain := s.ownView, chainGot := setBit (0 : BitVec 8) s.t true, chainNew := false }
  let y := z.chainSend true s.t s.ownSamples s.hk.missing
  have hz : OnlyChanges [.hk] s z := s.withHk_frame _
  have hy : OnlyChanges [.out] z y := z.chainSend_frame _ _ _ _
  have ht : OnlyChanges [.out] y s.chainStart := y.chainSend_frame _ _ _ _
  have hk : s.chainStart.hk = z.hk := (ht .hk (by simp)).trans (hy .hk (by simp))
  have hi : y.ident = s.ident := (hy .ident (by simp)).trans (hz .ident (by simp))
  refine ⟨by rw [hk]; exact {}, by rw [hk]; rfl, ?_, ((hz.then hy).then ht).mono (by simp)⟩
  rw [State.chainStart_eq, State.out_chainSend, State.out_chainSend]
  exact congrArg₂ (· ++ ·) rfl (State.chainMsgs_of_ident hi _ _ _ _)

/-- The time to which a round's end moves powered time on (R270). -/
def State.roundTime (s : State) : State := s.toTime (2 ^ 23 * (s.hk.rounds + 1))

/-- What a round's end judges, before it is counted and sent. -/
def State.judged (s : State) (m : HkMeas) : State :=
  (s.roundTime.witnessCheck.channelFaults.coolCheck.recompute false []).measureTile m false

theorem State.roundTime_frame (s : State) : OnlyChanges [.clk] s s.roundTime := Fr.only (M := 2 ^ 5) (Fr.upd (Fr.refl s) rfl) (by decide)

/-- After the witness nothing that a round's end judges touches its samples, the reference fault or a counter. -/
theorem State.judged_says (s : State) (m : HkMeas) :
    (s.judged m).hk.samples = s.hk.samples ∧ (s.judged m).hk.missing = s.hk.missing ∧
      (∀ x, s.present 12 = some x → s.witnessBeyond x = true → s.hk.witOut ≠ 0 → s.hk.refFault = false →
        (s.judged m).hk.refFault = true ∧ s.counted (s.judged m) 0x7820 33 1) ∧
      OnlyChanges [.hk, .clk, .log, .maint, .out, .dict, .ctr] s (s.judged m) := by
  have hafter : HkFrame tileMeasFields s.roundTime.witnessCheck (s.judged m) :=
    ((((HkFrame.refl _).next (.channelFaults _)).next (.coolCheck _)).next (.recompute _ false [])).next (.measureTile _ m false)
  obtain ⟨hs, hm, hw⟩ := s.roundTime.witnessCheck_keeps
  refine ⟨hafter.1.samples.trans hs, hafter.1.missing.trans hm, fun x hx hb ho hr => ?_, ((s.roundTime_frame.then hw).then hafter.2).mono (by simp)⟩
  obtain ⟨hfault, hcount⟩ := State.witnessCheck_faults (s := s.roundTime) hx hb ho hr
  exact ⟨hafter.1.refFault.trans hfault, State.counted_then hcount hafter.2⟩

theorem State.tj_of_samples (h : t.hk.samples = s.hk.samples) : t.tj = s.tj := by
  have hp : t.present = s.present := funext fun c => by rw [State.present, State.present, State.sample, State.sample, h]
  simp only [State.tj, State.highest, hp]

theorem State.mem_chainMsgs {up : Bool} (h : if up then s.t + 1 < s.n else 0 < s.t) (k : Nat) (samples : List Word) (missing : BitVec 32) :
    Out.ring (.chainRecord up k samples missing (chainCrc samples missing)) ∈ s.chainMsgs up k samples missing := by
  unfold State.chainMsgs
  rw [if_pos h]
  exact List.mem_cons_self

/-- A round's end, but for its number: judged, aged and sent. -/
def State.roundSent (s : State) (m : HkMeas) : State := (s.judged m).ageLife.chainStart

theorem exec_hkRoundEnd (m : HkMeas) (h : s.hk.chan = 32) :
    exec (.hkRoundEnd m) s =
      .next ((s.roundSent m).withHk { (s.roundSent m).hk with rounds := s.hk.rounds + 1, chan := 0, untrimmed := !m.refclk }) :=
  congrArg Host.Outcome.next (if_neg (by omega))

theorem State.ownSamples_of_hk (h : t.hk.samples = s.hk.samples) : t.ownSamples = s.ownSamples := by
  unfold State.ownSamples State.sample
  rw [h]

/-- The aged state from which the tile's own record goes out, as far as the record is made of it (R274). -/
theorem State.aged_says (s : State) (m : HkMeas) :
    (s.judged m).ageLife.hk = (s.judged m).hk ∧ (s.judged m).ageLife.ident = s.ident ∧ (s.judged m).ageLife.ownSamples = s.ownSamples ∧
      (s.judged m).ageLife.hk.missing = s.hk.missing ∧ (s.judged m).ageLife.repair.life = s.repair.life + 2 ^ 23 * lifeWeight s.tj ∧
      OnlyChanges [.clk, .hk, .log, .maint, .out, .dict, .ctr, .repair] s (s.judged m).ageLife := by
  obtain ⟨hs, hm, -, hj⟩ := s.judged_says m
  obtain ⟨hlife, ha⟩ := State.Ages.ageLife (s.judged m)
  have hk : (s.judged m).ageLife.hk = (s.judged m).hk := ha .hk (by simp)
  have hr : (s.judged m).repair = s.repair := hj .repair (by simp)
  refine ⟨hk, (ha .ident (by simp)).trans (hj .ident (by simp)), State.ownSamples_of_hk (by rw [hk, hs]), by rw [hk, hm], ?_,
    (hj.then ha).mono (by simp)⟩
  rw [hlife, State.tj_of_samples hs, hr]

/-- The tile's own record goes out both ways (R274). -/
theorem State.roundSent_sends (s : State) (m : HkMeas) :
    let own := (List.range 32).map fun c => s.hk.samples.getD c 0x8000
    (s.t + 1 < s.n → Out.ring (.chainRecord true s.t own s.hk.missing (chainCrc own s.hk.missing)) ∈ (s.roundSent m).out) ∧
      (0 < s.t → Out.ring (.chainRecord false s.t own s.hk.missing (chainCrc own s.hk.missing)) ∈ (s.roundSent m).out) := by
  obtain ⟨-, hi, ho, hm, -, -⟩ := s.aged_says m
  obtain ⟨-, -, hout, -⟩ := (s.judged m).ageLife.chainStart_says
  have ht : (s.judged m).ageLife.t = s.t := congrArg Ident.t hi
  rw [State.chainMsgs_of_ident hi, State.chainMsgs_of_ident hi, ho, hm, ht] at hout
  intro own
  rw [State.roundSent, hout, show own = s.ownSamples from rfl]
  exact ⟨fun h => List.mem_append_left _ (List.mem_append_right _ (State.mem_chainMsgs (up := true) h _ _ _)),
    fun h => List.mem_append_right _ (State.mem_chainMsgs (up := false) (by simpa using h) _ _ _)⟩

/-- The tile's own record enters the package view (R274). -/
theorem State.roundSent_view (s : State) (m : HkMeas) {c : Nat} (h : c < 32) :
    (s.roundSent m).hk.chain.getD (s.t * 32 + c) 0x8000 = s.hk.samples.getD c 0x8000 := by
  obtain ⟨hk, hi, -, -, -, -⟩ := s.aged_says m
  obtain ⟨hs, -, -, -⟩ := s.judged_says m
  obtain ⟨-, hchain, -, -⟩ := (s.judged m).ageLife.chainStart_says
  have ht : (s.judged m).ageLife.t = s.t := congrArg Ident.t hi
  rw [State.roundSent, hchain, State.ownView, ht, getD_puts _ _ _ h, State.sample, hk, hs]

theorem State.roundSent_says (s : State) (m : HkMeas) :
    (s.roundSent m).hk.samples = s.hk.samples ∧ (s.roundSent m).repair.life = s.repair.life + 2 ^ 23 * lifeWeight s.tj ∧
      (∀ x, s.present 12 = some x → s.witnessBeyond x = true → s.hk.witOut ≠ 0 → s.hk.refFault = false →
        (s.roundSent m).hk.refFault = true ∧ s.counted (s.roundSent m) 0x7820 33 1) ∧
      OnlyChanges [.hk, .clk, .log, .maint, .out, .repair, .dict, .ctr] s (s.roundSent m) := by
  obtain ⟨hs, -, hfault, -⟩ := s.judged_says m
  obtain ⟨hk, -, -, -, hlife, ha⟩ := s.aged_says m
  obtain ⟨hkeeps, -, -, hcf⟩ := (s.judged m).ageLife.chainStart_says
  have hr : (s.roundSent m).repair = (s.judged m).ageLife.repair := hcf .repair (by simp)
  refine ⟨(hkeeps.samples.trans (congrArg Hk.samples hk)).trans hs, hr ▸ hlife, fun x hx hb ho hr => ?_, (ha.then hcf).mono (by simp)⟩
  obtain ⟨hfaulty, hcount⟩ := hfault x hx hb ho hr
  exact ⟨(hkeeps.refFault.trans (congrArg Hk.refFault hk)).trans hfaulty, State.counted_then hcount ((State.ageLife_frame _).then hcf)⟩

theorem roundEnds : Claims.RoundEnds := by
  intro s m hc _
  have hx := exec_hkRoundEnd m hc
  have hsends := s.roundSent_sends m
  have hview := fun c => s.roundSent_view m (c := c)
  obtain ⟨hs, hlife, hfault, hf⟩ := s.roundSent_says m
  generalize s.roundSent m = z at hx hsends hview hs hlife hfault hf
  exact ⟨_, hx, rfl, rfl, hs, hsends, hview, hlife, hfault, (hf.then (z.withHk_frame _)).mono (by simp)⟩

/-! ### Records of other tiles -/

/-- The package view with another tile's record in it (R274, R275). -/
def State.received (s : State) (k : Nat) (samples : List Word) : State :=
  s.withHk { s.hk with chain := (List.range 32).foldl (fun m j => SMap.put 0x8000 m (k * 32 + j) (nth samples j 0x8000)) s.hk.chain,
                       chainGot := setBit s.hk.chainGot k true, chainMissing := setBit s.hk.chainMissing k false,
                       chainFault := setBit s.hk.chainFault k false }

/-- A tile whose record is still awaited this round (R275). -/
def State.awaitsRecord (s : State) (k : TileNo) : Prop := k.val < s.n ∧ k.val ≠ s.t ∧ bit s.hk.chainGot k = false

theorem exec_chainRecordReceive {k : TileNo} (h : s.awaitsRecord k) (samples : List Word) (missing : BitVec 32) :
    exec (.chainRecordReceive k samples ⟨missing, chainCrc samples missing⟩) s =
      .next ((s.received k samples).chainSend (decide (k.val < s.t)) k samples missing) := by
  obtain ⟨hn, ht, hg⟩ := h
  refine congrArg Host.Outcome.next (if_neg ?_)
  simp [Nat.not_le_of_lt hn, ht, hg]

theorem exec_chainRecordReceive_bad (k : TileNo) (samples : List Word) {missing crc : BitVec 32} (h : crc ≠ chainCrc samples missing) :
    exec (.chainRecordReceive k samples ⟨missing, crc⟩) s = .next s :=
  congrArg Host.Outcome.next (if_pos (.inr (.inr (.inr h))))

/-- The package view without a tile's samples: they read as missing (R275). -/
def State.viewWithout (s : State) (k : Nat) : SMap Word := (List.range 32).foldl (fun (m : SMap Word) j => SMap.del m (k * 32 + j)) s.hk.chain

theorem State.getD_viewWithout (s : State) (k : Nat) {j : Nat} (h : j < 32) : (s.viewWithout k).getD (k * 32 + j) 0x8000 = 0x8000 := getD_dels _ _ h

/-- The record of a tile has not come: its samples read as missing, and a second round running is its fault (R275). -/
def State.missed (s : State) (k : Nat) : State :=
  let z := s.toTime (2 ^ 23 * s.hk.rounds + 1000000)
  let again := bit s.hk.chainMissing k
  z.withHk { s.hk with chain := s.viewWithout k,
                       chainGot := setBit s.hk.chainGot k true, chainMissing := setBit s.hk.chainMissing k true,
                       chainFault := setBit s.hk.chainFault k again, chainNew := s.hk.chainNew || (again && !bit s.hk.chainFault k) }

/-- The anchor reports the new faults of a round once every record of it is decided (R275). -/
def State.chainReport (s : State) : State :=
  if s.chainDone && s.hk.chainNew then
    let z := s.withHk { s.hk with chainNew := false }
    if z.isAnchor then z.log1 0x0D05 [z.hk.chainFault.setWidth 16] else z
  else s

theorem exec_chainRecordTimeout {k : TileNo} (h : s.awaitsRecord k) : exec (.chainRecordTimeout k) s = .next (s.missed k).chainReport := by
  obtain ⟨hn, ht, hg⟩ := h
  refine congrArg Host.Outcome.next (if_neg ?_)
  simp [Nat.not_le_of_lt hn, ht, hg]

/-- The view of the chain stands as it stood, and no part of the state differs but those a round touches. -/
theorem State.chainReport_says (s : State) :
    s.chainReport.hk.chain = s.hk.chain ∧ s.chainReport.hk.chainMissing = s.hk.chainMissing ∧ s.chainReport.hk.chainFault = s.hk.chainFault ∧
      s.chainReport.hk.samples = s.hk.samples ∧ OnlyChanges roundFields s s.chainReport := by
  have hf : OnlyChanges [.hk] s (s.withHk { s.hk with chainNew := false }) := s.withHk_frame _
  unfold State.chainReport
  dsimp only
  split
  · split
    · rw [State.log1_hk]
      exact ⟨rfl, rfl, rfl, rfl, (hf.then (State.log1_frame _ _ _)).mono (by simp)⟩
    · exact ⟨rfl, rfl, rfl, rfl, hf.mono (by simp)⟩
  · exact ⟨rfl, rfl, rfl, rfl, .refl s _⟩

theorem State.missed_says (s : State) (k : Nat) :
    (s.missed k).hk.chain = s.viewWithout k ∧ (s.missed k).hk.chainMissing = setBit s.hk.chainMissing k true ∧
      (s.missed k).hk.chainFault = setBit s.hk.chainFault k (bit s.hk.chainMissing k) ∧ (s.missed k).hk.samples = s.hk.samples := by
  unfold State.missed State.withHk
  exact ⟨by with_reducible rfl, rfl, rfl, rfl⟩

theorem State.missed_frame (s : State) (k : Nat) : OnlyChanges [.hk, .clk] s (s.missed k) := Fr.only (M := 2 ^ 5 + 2 ^ 28) (Fr.upd (Fr.refl s) rfl) (by decide)

theorem bit_setBit_tile (w : BitVec 8) (k : TileNo) (b : Bool) : bit (setBit w k b) k = b := by rw [bit_setBit w k k b k.isLt, if_pos rfl]

theorem chainRecords : Claims.ChainRecords := by
  intro s k hn ht hg
  have hw : s.awaitsRecord k := ⟨hn, ht, hg⟩
  refine ⟨fun samples missing hlen => ?_, fun samples missing crc hcrc => ⟨s, exec_chainRecordReceive_bad k samples hcrc, rfl⟩, ?_⟩
  · have hr : OnlyChanges [.hk] s (s.received k samples) := s.withHk_frame _
    have hs := (s.received k samples).chainSend_frame (decide (k.val < s.t)) k samples missing
    have hk := hs .hk (by simp)
    refine ⟨_, exec_chainRecordReceive hw samples missing, fun j hj => ?_, ?_, ?_, ?_, ?_, (hr.then hs).mono (by simp)⟩
    · rw [hk]
      exact getD_puts s.hk.chain (k * 32) (fun j => samples.getD j 0x8000) hj
    · rw [hk]
      exact bit_setBit_tile _ _ _
    · rw [hk]
      exact bit_setBit_tile _ _ _
    · rw [State.out_chainSend, State.chainMsgs_of_ident (hr .ident (by simp))]
      refine congrArg (s.out ++ ·) ?_
      by_cases hu : k.val < s.t <;> simp [State.chainMsgs, hu]
    · rw [hk]
      rfl
  · obtain ⟨hc, hm, hfault, hs, hf⟩ := (s.missed k).chainReport_says
    obtain ⟨hc', hm', hfault', hs'⟩ := s.missed_says k
    refine ⟨_, exec_chainRecordTimeout hw, fun j hj => ?_, ?_, ?_, hs.trans hs', ((s.missed_frame k).then hf).mono (by simp)⟩
    · rw [hc, hc', s.getD_viewWithout k hj]
    · rw [hm, hm', bit_setBit_tile]
    · rw [hfault, hfault', bit_setBit_tile]

/-- Settles O52: one sample, the end of a round part by part, and the records of the sensor chain. That a channel whose source is not powered reads as missing
(log entry 65) and that its MISSING bit is set as it is sampled (log entry 55) are the model's choice. -/
theorem housekeepingRounds : Obligations.HousekeepingRounds := ⟨sampleKept, roundEnds, chainRecords⟩

end Sys2Proof.Machine

/-!
Calibration in service (R279 to R289): the steps of Assay and Planish, the loss of a clock multiplier's lock, and the Anneal of a recovery.
-/
namespace Sys2Proof.Machine
open Sys2Proof

variable {s t : State}

/-! ### Corrections at 105 °C and above -/

theorem roundDiv_one (y : Int) : roundDiv y 1 = y := by
  unfold roundDiv
  split <;> omega

theorem clampKind_drive (y : Int) : clampKind 0 y = clampI 0 127 y := rfl

/-- At and beyond the last point the last set is the one that a measurement corrects, with its whole weight (R282). -/
theorem chosen_hot {x : Int} (h : 1680 ≤ x) : chosen x = (4, 1, 1) := by
  have hs : segment x = none := if_pos (.inr h)
  unfold chosen
  rw [hs]
  exact congrArg (·, (1 : Int), (1 : Int)) (if_neg (by omega))

/-- At and beyond the last point a coefficient is its last set (R277). -/
theorem State.coefAt_hot {g : Nat} {x : Int} (h : 1680 ≤ x) : s.coefAt 0 g (some x) = clampI 0 127 (i16 (s.reg (coefIdx 0 g) 5)) := by
  have hs : segment x = none := if_pos (.inr h)
  have hi : interp (s.sets (coefIdx 0 g)) x = i16 (s.reg (coefIdx 0 g) 5) := by
    unfold interp
    rw [hs]
    exact if_neg (by omega)
  exact congrArg (clampI 0 127) hi

theorem clampI_within {lo hi y : Int} (hlo : lo ≤ y) (hhi : y ≤ hi) : clampI lo hi y = y := by
  unfold clampI
  rw [if_neg (by omega), if_neg (by omega)]

/-- A measurement of DRV_PU at 105 °C or more, within the limit of its set, becomes that set and is in force from the next tick (R282). -/
theorem State.measure_hot {g : Nat} {w : Word} {x : Int} (ht : s.coefTemp 0 g = some x) (hz : s.frozen = false) (hx : 1680 ≤ x)
    (h0 : 0 ≤ i16 (s.reg (coefIdx 0 g) 5)) (h1 : i16 (s.reg (coefIdx 0 g) 5) ≤ 127)
    (hup : i16 w - i16 (s.reg (coefIdx 0 g) 5) ≤ (s.reg 0x7000 6).toNat) (hdown : i16 (s.reg (coefIdx 0 g) 5) - i16 w ≤ (s.reg 0x7000 6).toNat) :
    (s.measure 0 g w).reg (coefIdx 0 g) 5 = ofI16 (clampI 0 127 (i16 w)) ∧ (s.measure 0 g w).hk.forceDue.getD (coefIdx 0 g) 0 = w ∧
      ∀ j, j < 5 → j ≠ 4 → (s.measure 0 g w).reg (coefIdx 0 g) (j + 1) = s.reg (coefIdx 0 g) (j + 1) := by
  have hold : s.coefAt 0 g (some x) = i16 (s.reg (coefIdx 0 g) 5) := (State.coefAt_hot hx).trans (clampI_within h0 h1)
  have hfits : ¬s.tooFar 0 g w x := by
    unfold State.tooFar
    rw [hold]
    omega
  have hnew : s.newSet 0 g w x = clampI 0 127 (i16 w) := by
    unfold State.newSet
    simp only [chosen_hot hx, hold, clampKind_drive, Int.toNat_one, roundDiv_one, mul_one, add_sub_cancel]
  rw [State.measure_fits ht hz hfits, State.corrected, hnew, chosen_hot hx]
  refine ⟨State.reg_setReg_same _ _ _ _, SMap.getD_set_same _ _ _ _, fun j hj hne => ?_⟩
  exact State.reg_setReg_ne (s.noted 0 g w) _ (by unfold wkey; omega)

/-! ### An Assay step -/

theorem State.frozen_of_keeps (h : s.hk.Keeps t.hk) : t.frozen = s.frozen := by
  unfold State.frozen
  rw [h.refFault, State.tj_of_samples h.samples]

theorem coefIdx_ne (g : Nat) {j k : Nat} (hj : j < 4) (hk : k < 4) (h : j ≠ k) : coefIdx j g ≠ coefIdx k g := by
  unfold coefIdx
  rw [if_pos hj, if_pos hk]
  omega

/-- What the four measurements of a group do (R279): each is recorded, and the first is not disturbed by the others. -/
structure State.GroupMeasured (s : State) (g : Nat) (m : AssayMeas) (t : State) : Prop where
  hk : s.hk.Keeps t.hk
  drvPu : t.hk.meas.getD (coefIdx 0 g) 0 = m.drvPu
  drvPd : t.hk.meas.getD (coefIdx 1 g) 0 = m.drvPd
  odt : t.hk.meas.getD (coefIdx 2 g) 0 = m.odt
  dlyGain : t.hk.meas.getD (coefIdx 3 g) 0 = m.dlyGain
  force : t.hk.forceDue.getD (coefIdx 0 g) 0 = (s.measure 0 g m.drvPu).hk.forceDue.getD (coefIdx 0 g) 0
  reg : ∀ x, x < 256 → t.reg (coefIdx 0 g) x = (s.measure 0 g m.drvPu).reg (coefIdx 0 g) x
  ctr : ∀ i x, wkey i x ≠ wkey 0x7820 5 → t.ctrOf i x = s.ctrOf i x
  dict : s.frozen = true → t.dict = s.dict
  frame : OnlyChanges measFields s t

theorem State.GroupMeasured.of_four {g : Nat} {m : AssayMeas} {a b c d : State} (ha : s.Measured 0 g m.drvPu a) (he : a = s.measure 0 g m.drvPu)
    (hb : a.Measured 1 g m.drvPd b) (hc : b.Measured 2 g m.odt c) (hd : c.Measured 3 g m.dlyGain d) : s.GroupMeasured g m d := by
  have hab := ha.hk.trans hb.hk
  have hac := hab.trans hc.hk
  have hmeas : d.hk.meas =
      (((s.hk.meas.put 0 (coefIdx 0 g) m.drvPu).put 0 (coefIdx 1 g) m.drvPd).put 0 (coefIdx 2 g) m.odt).put 0 (coefIdx 3 g) m.dlyGain := by
    rw [hd.meas, hc.meas, hb.meas, ha.meas]
  have h01 := coefIdx_ne g (j := 0) (k := 1) (by decide) (by decide) (by decide)
  have h02 := coefIdx_ne g (j := 0) (k := 2) (by decide) (by decide) (by decide)
  have h03 := coefIdx_ne g (j := 0) (k := 3) (by decide) (by decide) (by decide)
  have h12 := coefIdx_ne g (j := 1) (k := 2) (by decide) (by decide) (by decide)
  have h13 := coefIdx_ne g (j := 1) (k := 3) (by decide) (by decide) (by decide)
  have h23 := coefIdx_ne g (j := 2) (k := 3) (by decide) (by decide) (by decide)
  exact {
    hk := hac.trans hd.hk
    drvPu := by rw [hmeas, SMap.getD_put_ne _ _ _ h03, SMap.getD_put_ne _ _ _ h02, SMap.getD_put_ne _ _ _ h01, SMap.getD_put_same]
    drvPd := by rw [hmeas, SMap.getD_put_ne _ _ _ h13, SMap.getD_put_ne _ _ _ h12, SMap.getD_put_same]
    odt := by rw [hmeas, SMap.getD_put_ne _ _ _ h23, SMap.getD_put_same]
    dlyGain := by rw [hmeas, SMap.getD_put_same]
    force := he ▸ ((hd.force _ h03).trans (hc.force _ h02)).trans (hb.force _ h01)
    reg := fun x hx => he ▸ ((hd.reg _ x hx h03).trans (hc.reg _ x hx h02)).trans (hb.reg _ x hx h01)
    ctr := fun i x h => (((hd.ctr i x h).trans (hc.ctr i x h)).trans (hb.ctr i x h)).trans (ha.ctr i x h)
    dict := fun hz => (((hd.dict ((State.frozen_of_keeps hac).trans hz)).trans (hc.dict ((State.frozen_of_keeps hab).trans hz))).trans
      (hb.dict ((State.frozen_of_keeps ha.hk).trans hz))).trans (ha.dict hz)
    frame := ((ha.frame.trans hb.frame).trans hc.frame).trans hd.frame }

theorem State.groupMeasured (s : State) (g : Nat) (m : AssayMeas) : s.GroupMeasured g m (s.measureGroup g m) :=
  .of_four (s.measured 0 g m.drvPu) rfl (State.measured _ 1 g m.drvPd) (State.measured _ 2 g m.odt) (State.measured _ 3 g m.dlyGain)

/-- The Assay step on a group is over, its moment recorded, and counted (R279, R302). -/
def State.stepOver (s : State) (g : Nat) : State :=
  ({ s with anvil := { s.anvil with stopped := none }, hk := { s.hk with assayAt := SMap.set s.hk.assayAt g s.ns } } : State).count 0x7001 1

theorem exec_assayStepDone {g : Fin 16} (m : AssayMeas) (hq : s.quench.on = false) (hs : s.anvil.stopped = some (g.val, false)) :
    exec (.assayStepDone g m) s = .next ((s.stepOver g).measureGroup g m) := by
  refine congrArg Host.Outcome.next ((if_neg ?_).trans (if_pos hs))
  rw [hq]
  exact Bool.false_ne_true

theorem State.stepOver_frame (s : State) (g : Nat) : OnlyChanges [.anvil, .hk, .ctr] s (s.stepOver g) :=
  Fr.only (M := 2 ^ 7 + 2 ^ 13 + 2 ^ 28) (Fr.upd (Fr.upd (Fr.refl s) rfl) rfl) (by decide)

theorem State.counted_stepOver (s : State) (g : Nat) : s.counted (s.stepOver g) 0x7001 1 1 := State.counted_count _ _ _ _

theorem assayStepEnds : Claims.AssayStepEnds := by
  intro s g m hq hs
  have h := (s.stepOver g).groupMeasured g m
  have hf := s.stepOver_frame g
  have hx := exec_assayStepDone m hq hs
  generalize (s.stepOver g).measureGroup g m = t at hx h
  refine ⟨t, hx, h.frame .anvil (by simp), ?_, h.drvPu, h.drvPd, h.odt, h.dlyGain, ?_, h.dict, fun x hz hg ht => ?_,
    (hf.then h.frame).mono (by simp)⟩
  · exact (h.ctr 0x7001 1 (by decide)).trans (s.counted_stepOver g)
  · rw [h.hk.assayAt]
    exact SMap.getD_set_same _ _ _ _
  · intro old h0 h1 hup hdown
    obtain ⟨hset, hdue, hothers⟩ := State.measure_hot (s := s.stepOver g) (w := m.drvPu) hg hz ht h0 h1 hup hdown
    exact ⟨(h.reg 5 (by decide)).trans hset, h.force.trans hdue, fun j hj hne => (h.reg (j + 1) (by omega)).trans (hothers j hj hne)⟩

/-! ### A Planish step -/

/-- A lane whose centre lies more than 2 taps off (R286). -/
def LaneEye.far (e : LaneEye) : Bool := decide (2 < e.off) || decide (e.off < -2) || decide (2 < e.writeOff) || decide (e.writeOff < -2)

/-- A pseudo-channel after a step that swept one lane (R286). -/
def State.swept (s : State) (c : Nat) (e : LaneEye) : PcSt :=
  { s.pc c with planAt := s.ns, offCentre := [e].any LaneEye.far, dlyDue := [(e.lane, clampI (-2) 2 e.off, clampI (-2) 2 e.writeOff)],
                readEye := w16 (e.readEye % 256 * 256 + e.lane % 64), writeEye := w16 (e.writeEye % 256 * 256 + e.lane % 64) }

/-- An eye as wide as EYE_MIN is no fault (R287). -/
theorem State.narrowEye_wide {c : Nat} {e : LaneEye} (hr : (s.reg 0x7000 8).toNat ≤ e.readEye) (hw : (s.reg 0x7000 8).toNat ≤ e.writeEye) :
    s.narrowEye c e = s := by
  unfold State.narrowEye
  simp only [Nat.not_lt.mpr hr, Nat.not_lt.mpr hw, if_false, or_self, ite_self]

/-- The settings of a step that swept one lane, and its count (R286). -/
def State.moved (s : State) (c : Nat) (e : LaneEye) : State :=
  (s.setPc c { s.pc c with planAt := s.ns, offCentre := [e].any LaneEye.far, dlyDue := planMoves [e] }).count 0x7001 5

theorem PcFrame.moved (s : State) (c : Nat) (e : LaneEye) : PcFrame [.pcs, .ctr] c s (s.moved c e) :=
  ((PcFrame.refl s).next (.setPc s c _)).next (.off_pcs (State.count_frame _ _ _ _))

theorem PcFrame.stepSwept (s : State) (c : Nat) (e : LaneEye) : PcFrame [.pcs, .ctr] c s ((s.moved c e).setEyes c [e]) :=
  (PcFrame.moved s c e).next (.setPc _ c _)

theorem exec_planishStepDone {c : Pc} {e : LaneEye} (hq : s.quench.on = false) (hs : s.anvil.stopped = some (c.val / 4, true))
    (hd : s.planDueAt c s.tickNs = true) (hr : (s.pc c).recov = false) (h1 : (s.reg 0x7000 8).toNat ≤ e.readEye)
    (h2 : (s.reg 0x7000 8).toNat ≤ e.writeEye) : exec (.planishStepDone c [e]) s = .next ((s.moved c e).setEyes c [e]) := by
  have hreg : ((s.moved c e).setEyes c [e]).reg 0x7000 8 = s.reg 0x7000 8 := State.reg_of_frame (PcFrame.stepSwept s c e).2 (i := 0x7000) (x := 8)
  rw [← hreg] at h1 h2
  have hwide := State.narrowEye_wide (c := c) h1 h2
  exact congrArg Host.Outcome.next ((if_neg (by simp [hq, hs, hd, hr])).trans hwide)

theorem State.pc_swept (s : State) (c : Nat) (e : LaneEye) : ((s.moved c e).setEyes c [e]).pc c = s.swept c e := by
  have hm : (s.moved c e).pc c = { s.pc c with planAt := s.ns, offCentre := [e].any LaneEye.far, dlyDue := planMoves [e] } := s.pc_setPc_same c _
  refine (State.pc_setPc_same _ c _).trans ?_
  rw [hm]
  rfl

theorem planishStepEnds : Claims.PlanishStepEnds := by
  intro s c e hq hs hd hr h1 h2
  have hpc := s.pc_swept c e
  obtain ⟨honly, hf⟩ := PcFrame.stepSwept s c e
  have hcount : s.counted ((s.moved c e).setEyes c [e]) 0x7001 5 1 :=
    State.counted_of_frame (s.setPc_frame c _) (State.counted_count _ _ _ _)
  refine ⟨_, exec_planishStepDone hq hs hd hr h1 h2, ?_, ?_, ?_, ?_, ?_, hcount, honly, hf⟩ <;> rw [hpc]
  · rfl
  · simp [State.swept, LaneEye.far, or_assoc]
  · rfl
  · rfl
  · rfl

/-! ### The loss of a clock's lock -/

/-- A clock multiplier unlocked. -/
def State.unlocked (s : State) (k : Fin 2) : State := { s with phy := if k = 0 then { s.phy with pll0 := false } else { s.phy with pll1 := false } }

theorem exec_pllLockLoss (k : Fin 2) (s : State) : exec (.pllLockLoss k) s = .next (((s.unlocked k).log1 0x0C09 [w16 k]).tileFault .clock) := rfl

theorem State.unlocked_frame (s : State) (k : Fin 2) : OnlyChanges [.phy] s (s.unlocked k) := Fr.only (M := 2 ^ 27) (Fr.upd (Fr.refl s) rfl) (by decide)

/-- A tile fault of a tile that stands is counted, logged with the tile, and fences it at the next tick (R304, R308). -/
theorem State.tileFault_first {c : FenceCause} (h : s.repair.fenced = none) (hd : RungAct.fence c ∉ s.repair.due) :
    s.tileFault c = ((s.count 0x7820 25).log1 0x0E02 [6, Config.unitCode ⟨s.t, 0, 0, 0⟩]).dueAct (.fence c) :=
  if_neg (by simp [h, hd])

theorem State.dueAct_frame (s : State) (a : RungAct) : OnlyChanges [.repair] s (s.dueAct a) := s.withRepair_frame _

/-- An event at a state that no command has moved on in time. -/
theorem State.event_of_frame {l : List Field} (h : OnlyChanges l s t) (code : Nat) (args : List Word) (hi : .ident ∉ l := by simp) (hc : .clk ∉ l := by simp)
    (hb : .boot ∉ l := by simp) : t.event code args = s.event code args := by
  have ei : t.ident = s.ident := h .ident hi
  have ec : t.clk = s.clk := h .clk hc
  have eb : t.boot = s.boot := h .boot hb
  rw [State.event, State.event, State.t, State.t, State.ns, State.ns, ei, ec, eb]

theorem State.tileFault_says {c : FenceCause} (hd : s.dom 1 = true) (h : s.repair.fenced = none) (hdue : RungAct.fence c ∉ s.repair.due) :
    LogsOne s (s.tileFault c) 0x0E02 [6, Config.unitCode ⟨s.t, 0, 0, 0⟩] ∧ s.counted (s.tileFault c) 0x7820 25 1 ∧
      (s.tileFault c).repair = { s.repair with due := s.repair.due ++ [.fence c] } ∧ OnlyChanges [.repair, .log, .maint, .out, .ctr] s (s.tileFault c) := by
  let y := s.count 0x7820 25
  let z := y.log1 0x0E02 [6, Config.unitCode ⟨s.t, 0, 0, 0⟩]
  have hy : OnlyChanges [.ctr] s y := s.count_frame _ _ _
  have hz : OnlyChanges [.log, .maint, .out] y z := y.log1_frame _ _
  have ht : OnlyChanges [.repair] z (z.dueAct (.fence c)) := z.dueAct_frame _
  have hr : z.repair = s.repair := (hz .repair (by simp)).trans (hy .repair (by simp))
  rw [State.tileFault_first h hdue]
  refine ⟨.then (.of_frame hy (State.log1_logs (s := y) hd)) ht, State.counted_then (State.counted_count s _ _ _) (hz.then ht), ?_,
    ((hy.then hz).then ht).mono (by simp)⟩
  exact congrArg (fun r : Repair => { r with due := r.due ++ [RungAct.fence c] }) hr

theorem lockLossFences : Claims.LockLossFences := by
  intro s k hd hfence hdue
  let z := (s.unlocked k).log1 0x0C09 [w16 k]
  have hu := s.unlocked_frame k
  have hz : OnlyChanges [.log, .maint, .out, .phy] s z := hu.then (State.log1_frame _ _ _)
  have hlog : LogsOne s z 0x0C09 [w16 k] := .of_frame hu (State.log1_logs (s := s.unlocked k) hd)
  have hr : z.repair = s.repair := hz .repair (by simp)
  have ht : z.t = s.t := congrArg Ident.t (hz .ident (by simp))
  obtain ⟨hlog', hcount, hrep, hf⟩ := State.tileFault_says (s := z) (c := .clock) (State.dom_of_frame hz hd) (by rw [hr]; exact hfence) (by rw [hr]; exact hdue)
  have hphy : (z.tileFault .clock).phy = (s.unlocked k).phy := (hf .phy (by simp)).trans (State.log1_phy _ _ _)
  refine ⟨_, exec_pllLockLoss k s, ?_, ?_, State.counted_of_frame hz hcount, ?_, (hz.then hf).mono (by simp)⟩
  · rw [hphy]
    fin_cases k
    · exact ⟨rfl, rfl⟩
    · exact ⟨rfl, rfl⟩
  · exact hlog'.trans (by rw [State.event_of_frame hz, hlog, ht])
  · exact hrep.trans (by rw [hr])

/-! ### The Anneal of a recovery -/

/-- A pseudo-channel where Anneal left its delays (R286, R289). -/
def PcSt.annealed (q : PcSt) : PcSt := { q with rdDly := [], wrDly := [], dlyDue := [], offCentre := false }

/-- The pseudo-channels of a list where Anneal left their delays. -/
def State.annealPcs (s : State) (l : List Nat) : State := l.foldl (fun z c => z.setPc c (z.pc c).annealed) s

theorem State.pc_annealPcs (s : State) (l : List Nat) (k : Nat) : (s.annealPcs l).pc k = if k ∈ l then (s.pc k).annealed else s.pc k := by
  induction l generalizing s with
  | nil => rfl
  | cons a l ih =>
    have hcons : s.annealPcs (a :: l) = (s.setPc a (s.pc a).annealed).annealPcs l := rfl
    rw [hcons, ih]
    by_cases hk : k = a
    · subst hk
      rw [if_pos List.mem_cons_self, State.pc_setPc_same]
      split <;> rfl
    · have hpc : (s.setPc a (s.pc a).annealed).pc k = s.pc k := (PcFrame.setPc s a _).1 k hk
      simp only [List.mem_cons, hk, false_or, hpc]

theorem State.annealPcs_frame (s : State) (l : List Nat) : OnlyChanges [.pcs] s (s.annealPcs l) :=
  Fr.only (M := 2 ^ 20) (Fr.foldl l _ (Fr.refl s) fun _ _ h => Fr.upd h rfl) (by decide)

theorem mem_groupPcs {g k : Nat} : k ∈ groupPcs g ↔ k / 4 = g := by
  simp only [groupPcs, List.mem_cons, List.not_mem_nil, or_false]
  omega

/-- The group after its Anneal, which the recovery keeps with what it found (R310). -/
def State.annealed (s : State) (r : Recov) (g : Nat) (fails : BitVec 4) : State :=
  ((s.withRepair { s.repair with recov := some { r with annealed := true, fails := fails } }).annealPcs (groupPcs g)).count 0x7001 9

theorem exec_annealDone_early {g : Fin 16} {r : Recov} (fails : BitVec 4) (hr : s.repair.recov = some r) (h : s.frame < r.opened.toNat + 24) :
    exec (.annealDone g fails []) s = .next s := by
  show execAnnealDone g fails [] s = _
  unfold execAnnealDone
  rw [hr]
  exact congrArg Host.Outcome.next (if_pos (.inr (.inr (.inr h))))

theorem exec_annealDone {g : Fin 16} {r : Recov} (fails : BitVec 4) (hr : s.repair.recov = some r) (h1 : r.rung = 1) (hu : r.u.pc / 4 = g.val)
    (ha : r.annealed = false) (h : r.opened.toNat + 24 ≤ s.frame) :
    exec (.annealDone g fails []) s =
      .next ((s.annealed r g fails).log1 0x0C0A [w16 g, Config.resultCode (if fails = 0 then .passed else .failed)]) := by
  show execAnnealDone g fails [] s = _
  unfold execAnnealDone
  rw [hr]
  exact congrArg Host.Outcome.next (if_neg (by simp [h1, hu, ha, h]))

/-- The Anneal of a group: the recovery, the count, the pseudo-channels and the frame. -/
theorem State.annealed_says (s : State) (r : Recov) (g : Nat) (fails : BitVec 4) :
    (s.annealed r g fails).repair = { s.repair with recov := some { r with annealed := true, fails := fails } } ∧
      s.counted (s.annealed r g fails) 0x7001 9 1 ∧ (∀ c, (s.annealed r g fails).pc c = if c / 4 = g then (s.pc c).annealed else s.pc c) ∧
      OnlyChanges [.ctr, .pcs, .repair] s (s.annealed r g fails) := by
  let y := s.withRepair { s.repair with recov := some { r with annealed := true, fails := fails } }
  let z := y.annealPcs (groupPcs g)
  have hy : OnlyChanges [.repair] s y := s.withRepair_frame _
  have hz : OnlyChanges [.pcs] y z := y.annealPcs_frame _
  have ht : OnlyChanges [.ctr] z (s.annealed r g fails) := z.count_frame _ _ _
  refine ⟨(ht .repair (by simp)).trans (hz .repair (by simp)), State.counted_of_frame (hy.then hz) (z.counted_count _ _ _), fun c => ?_,
    (hy.then hz).then ht⟩
  have hpc : (s.annealed r g fails).pc c = z.pc c := by rw [State.pc, ht .pcs (by simp), State.pc]
  rw [hpc, y.pc_annealPcs]
  exact if_congr mem_groupPcs rfl rfl

theorem annealVerified : Claims.AnnealVerified := by
  intro s g fails r hr h1 hu ha hd
  refine ⟨fun hlt => ⟨s, exec_annealDone_early fails hr hlt, rfl⟩, fun hle => ?_⟩
  obtain ⟨hrep, hcount, hpc, hf⟩ := s.annealed_says r g fails
  have hx := exec_annealDone fails hr h1 hu ha hle
  generalize s.annealed r g fails = z at hx hrep hcount hpc hf
  have hl := z.log1_frame 0x0C0A [w16 g, Config.resultCode (if fails = 0 then .passed else .failed)]
  have hpcs (c : Nat) : (z.log1 0x0C0A [w16 g, Config.resultCode (if fails = 0 then .passed else .failed)]).pc c = z.pc c := by
    rw [State.pc, State.log1_pcs, State.pc]
  refine ⟨_, hx, (hl .repair (by simp)).trans hrep, State.counted_then hcount hl, fun c hc => ?_, fun c hc => ?_,
    .of_frame hf (State.log1_logs (State.dom_of_frame hf hd)), (hf.then hl).mono (by simp)⟩
  · rw [hpcs, hpc, if_pos hc]
    exact ⟨rfl, rfl, rfl, rfl⟩
  · rw [hpcs, hpc, if_neg hc]

/-- Settles O53: a step of Assay, one of Planish, the loss of a clock's lock, and the verified Anneal of a recovery. -/
theorem calibrationSteps : Obligations.CalibrationSteps := ⟨assayStepEnds, planishStepEnds, lockLossFences, annealVerified⟩

end Sys2Proof.Machine

/-!
The end of a restart after Quench, refuted in a state whose PHASE depends on the cycle: the anchor's marker sets the tile back within its frame, to before a
write of PHASE that its stored words hold, and the restart then finds the tile in shutdown.
-/
namespace Sys2Proof.Machine
open Sys2Proof

/-- A restarted tile in cycle 10 of its frame, whose anchor is tile 1. PHASE reads 1, written in cycle 5, and read 4 until then; its stack is in self-refresh. -/
def phaseAhead : State :=
  { pd := { status := 2 }, clk := { now := 10 }, dict := { phase := 4, phaseNew := some (5, 1) }, boot := { st := 2 }, repair := { anchor := 1 },
    store := { selfRef := true }, quench := { on := true, restart := true, assayed := List.range 16 } }

/-- The anchor's marker, in cycle 3 of the frame. -/
def earlyMarker : Marker := ⟨0, 3⟩

/-- Measurements of 16 groups. -/
def anyAssay : List AssayMeas := List.replicate 16 ⟨0, 0, 0, 0⟩

/-- What the statement asks of the tile. -/
theorem phaseAhead_restarts :
    phaseAhead.quench.restart = true ∧ phaseAhead.boot.st = 2 ∧ phaseAhead.dom 1 = true ∧ phaseAhead.repair.fenced = none ∧ phaseAhead.phase ≠ 4 ∧
      phaseAhead.repair.stackRetired = false ∧ anyAssay.length = 16 ∧ ∀ g, g < 16 → g ∈ phaseAhead.quench.assayed := by
  decide +kernel

/-- PHASE reads 4 once the marker is taken, and the stack stays in self-refresh, as in a shutdown (R74). -/
theorem phaseAhead_stays :
    ∃ t, exec (.quenchRestartDone { assay := anyAssay, tile := ⟨none, none, none, true⟩, mark := earlyMarker }) phaseAhead = .next t ∧
      t.store.selfRef = true :=
  ⟨_, rfl, by decide +kernel⟩

/-- Refutes O54: the statement ranges over every state, and in one whose PHASE read 4 before a write of the frame at hand (firmware writes PHASE only while it
reads 1 to 3, so no run is expected to reach it) the marker that the restart takes moves the tile back to before that write: the restart finds PHASE 4 and, as
in a shutdown, leaves the stack in self-refresh, where the statement has it out. The counterexample turns on the marker's cycle within the frame (R76, log entry
72: the model's choice), and on nothing that the trip or the start before it does (log entries 56 and 61). -/
theorem not_quenchCycle : ¬ Obligations.QuenchCycle := by
  unfold Obligations.QuenchCycle
  intro h
  obtain ⟨-, -, hends⟩ := h
  obtain ⟨hrestart, hst, hdom, hfence, hphase, hstack, hlen, hassayed⟩ := phaseAhead_restarts
  obtain ⟨t, ht, -, -, hstore, -⟩ := hends phaseAhead anyAssay earlyMarker true hrestart hst hdom hfence hphase hstack hlen hassayed
  obtain ⟨u, hu, hself⟩ := phaseAhead_stays
  have e : u = t := Host.Outcome.next.inj (hu.symm.trans ht)
  rw [e, hstore] at hself
  cases hself

end Sys2Proof.Machine

/-!
REPAIR_CMD (R334): one guarded word, judged by its code and its unit, and what each code that is let through leaves due.
-/
namespace Sys2Proof.Machine
open Sys2Proof

variable {s t : State} {h : Path}

/-! ### The write -/

/-- The row of REPAIR_CMD. -/
def repairRow : RegRow := { i0 := 0x7801, i1 := 0x7801, s0 := 1, s1 := 1, acc := .guarded }

theorem regRow_repairCmd : regRow 0x7801 1 = some repairRow := by decide

/-- REPAIR_CMD acts in every phase, at every tile, and holds every bit that is written. -/
theorem State.writeRw_repairCmd (s : State) (h : Path) (v : Word) :
    (s.writeRw (some h) false State.rwCmd (onePart repairRow 0x7801 1 v)).1 = ((s.setAsm (some h) none).repairCmd v).1 := by
  have hkept : v &&& keptBits 0x7801 1 = v := BitVec.and_allOnes
  have hcmd (z : State) : z.rwCmd 0x7801 1 v.toNat = some (z.repairCmd v) := by
    rw [← w16_toNat v]
    exact congrArg (fun w => some (z.repairCmd w)) (w16_toNat _)
  rw [State.writeRw_one _ _ _ _ _ _ _ rfl rfl (by simp [State.toStage, onePart, repairRow, actsAtOnce]), hkept]
  dsimp only
  rw [hcmd]

/-- REPAIR_CMD written on a path whose latch is armed (R376, R379). -/
theorem State.write_repairCmd (v : Word) (hd : s.dictOn = true) (hg : s.guardOk h = true) : s.write h 0x7801 1 [v] = ((s.spent h).repairCmd v).1 := by
  refine (State.write_guarded (w := v) (r := []) hd hg regRow_repairCmd rfl rfl rfl).trans ((State.writeRw_repairCmd _ h v).trans ?_)
  rw [State.setAsm_forgetAsm, State.path_setPath, State.setPath_setPath]
  rfl

@[simp] theorem State.spent_repair (s : State) (h : Path) : (s.spent h).repair = s.repair := s.setPath_repair h _

/-- Whether a command is refused does not depend on what a path keeps. -/
theorem State.spent_repairRefusal (s : State) (h : Path) (code u : Nat) : (s.spent h).repairRefusal code u = s.repairRefusal code u := by cases h <;> rfl

/-- A command that is not refused acts. -/
theorem State.write_repairAct {v : Word} {code u : Nat} (hd : s.dictOn = true) (hg : s.guardOk h = true) (hc : fld v 15 12 = code) (hu : fld v 11 8 = u)
    (hr : s.repairRefusal code u = 0) : s.write h 0x7801 1 [v] = (s.spent h).repairAct code u := by
  rw [State.write_repairCmd v hd hg, State.repairCmd, hc, hu, State.spent_repairRefusal]
  simp only [hr, if_true]

/-- A command that writes REPAIR_CMD with a code that is not refused completes with what the code does. -/
theorem completes_repairAct {c : Instr} {v : Word} {P : State → Prop} (code u : Nat) (hx : exec c s = .next (s.write h 0x7801 1 [v])) (hd : s.dictOn = true)
    (hg : s.guardOk h = true) (hc : fld v 15 12 = code) (hu : fld v 11 8 = u) (hr : s.repairRefusal code u = 0) (he : (s.spent h).repairAct code u = t)
    (hP : P t) : Completes c s P :=
  ⟨t, hx.trans (congrArg _ ((State.write_repairAct hd hg hc hu hr).trans he)), hP⟩

/-! ### What is left due -/

/-- A command that changes the state of repair alone, beside the latch it has used. -/
theorem State.spent_withRepair_says (s : State) (h : Path) (r : Repair) :
    ((s.spent h).withRepair r).repair = r ∧ (((s.spent h).withRepair r).path h).armedAt = none ∧
      OnlyChanges [.repair, pathField h] s ((s.spent h).withRepair r) :=
  ⟨rfl, by cases h <;> rfl, (s.spent_frame h).then ((s.spent h).withRepair_frame r)⟩

/-- The state of repair with one more action due. -/
def Repair.withDue (r : Repair) (a : RungAct) : Repair := { r with due := r.due ++ [a] }

/-- A fault as it begins to wait (R307). -/
def State.newFault (s : State) (rung : Nat) (u : RUnit) (c : FClass) : FaultW :=
  { rung := rung, u := u, cls := c, found := s.anvil.frameNo, behind := s.repair.recov.isSome, lanes := if rung = 1 ∧ u.lane < 36 then [(u.pc, u.lane)] else [],
    at_ := s.clk.now, rows := if rung = 2 then [(u.bank, u.row)] else [] }

/-- With no fault waiting, one that comes is the only one that waits. -/
theorem State.await_first (hw : s.repair.waiting = []) (rung : Nat) (u : RUnit) (c : FClass) :
    s.await rung u c = s.withRepair { s.repair with waiting := [s.newFault rung u c] } := by
  simp only [State.await, hw, List.any_nil, Bool.false_eq_true, if_false, List.take_nil, List.drop_nil, List.nil_append, List.append_nil]
  rfl

/-! ### Units of this tile -/

/-- The pseudo-channel that the operand of REPAIR_CMD names. -/
def State.repairPc (s : State) : Nat := fld (s.reg 0x7801 2) 11 6

/-- The bank that it names. -/
def State.repairBank (s : State) : Nat := fld (s.reg 0x7801 2) 5 0

section
variable (hs : s.repair.stackRetired = false)
include hs

/-- The stack is retired once. -/
theorem State.repairRefusal_stack : s.repairRefusal 5 0 = 0 := by
  simp [State.repairRefusal, hs]

/-- Codes 1 and 4 are let through on a pseudo-channel that is in service. -/
theorem State.repairRefusal_pc {code : Nat} (h : code = 1 ∨ code = 4) (hc : (s.pc s.repairPc).retired = false) : s.repairRefusal code 0 = 0 := by
  have hc' : (s.pc (fld (s.reg 0x7801 2) 11 6)).retired = false := hc
  rcases h with rfl | rfl <;> simp [State.repairRefusal, hs, hc']

/-- Code 3 is let through on a bank that is in service. -/
theorem State.repairRefusal_bank (hc : (s.pc s.repairPc).retired = false) (hb : s.repairBank ∉ (s.pc s.repairPc).rbanks) : s.repairRefusal 3 0 = 0 := by
  have hc' : (s.pc (fld (s.reg 0x7801 2) 11 6)).retired = false := hc
  have hb' : fld (s.reg 0x7801 2) 5 0 ∉ (s.pc (fld (s.reg 0x7801 2) 11 6)).rbanks := hb
  simp [State.repairRefusal, hs, hc', hb']
end

theorem repairCommandsAwaitTick : Claims.RepairCommandsAwaitTick := by
  intro s h hd hg hs c b hc
  have hrep := s.spent_withRepair_says h
  refine ⟨fun hw => ?_, fun hb => ?_, ?_, ?_⟩
  · let w := (s.spent h).newFault 1 ⟨c, b, 0, 63⟩ .calibration
    have hact : (s.spent h).repairAct 1 0 = (s.spent h).withRepair { s.repair with waiting := [w] } := by
      have hwait : (s.spent h).repair.waiting = [] := by rw [State.spent_repair, hw]
      have hc1 : (s.spent h).repairAct 1 0 = (s.spent h).await 1 ⟨c, b, 0, 63⟩ .calibration := by cases h <;> rfl
      rw [hc1, State.await_first hwait, State.spent_repair]
    obtain ⟨hr, harm, hf⟩ := hrep { s.repair with waiting := [w] }
    exact completes_repairAct 1 0 rfl hd hg rfl rfl (State.repairRefusal_pc hs (.inl rfl) hc) hact ⟨⟨w, hr, rfl, rfl⟩, harm, hf⟩
  · have hact : (s.spent h).repairAct 3 0 = (s.spent h).withRepair (s.repair.withDue (.bank c b)) := by cases h <;> rfl
    exact completes_repairAct 3 0 rfl hd hg rfl rfl (State.repairRefusal_bank hs hc hb) hact (hrep _)
  · have hact : (s.spent h).repairAct 4 0 = (s.spent h).withRepair (s.repair.withDue (.pc c .pc)) := by cases h <;> rfl
    exact completes_repairAct 4 0 rfl hd hg rfl rfl (State.repairRefusal_pc hs (.inr rfl) hc) hact (hrep _)
  · have hact : (s.spent h).repairAct 5 0 = (s.spent h).withRepair (s.repair.withDue (.stack .stack)) := by cases h <;> rfl
    exact completes_repairAct 5 0 rfl hd hg rfl rfl (State.repairRefusal_stack hs) hact (hrep _)

/-! ### Codes of the anchor -/

/-- The fields of codes 6 and 7. -/
theorem repairWord_fields : ∀ u : BitVec 4, (fld (0x6000 ||| (u.setWidth 16 <<< 8) : Word) 15 12 = 6 ∧ fld (0x6000 ||| (u.setWidth 16 <<< 8) : Word) 11 8 = u.toNat) ∧
    fld (0x7000 ||| (u.setWidth 16 <<< 8) : Word) 15 12 = 7 ∧ fld (0x7000 ||| (u.setWidth 16 <<< 8) : Word) 11 8 = u.toNat := by decide

section
variable (ha : s.isAnchor = true)
include ha

/-- Code 6 is let through for a tile of the view. -/
theorem State.repairRefusal_fence {u : Nat} (hu : u < s.n) (hv : bit s.repair.view u = true) : s.repairRefusal 6 u = 0 := by
  simp [State.repairRefusal, ha, hv, hu]

/-- Code 7 is let through for every tile of the package, in the view or not. -/
theorem State.repairRefusal_restart {u : Nat} (hu : u < s.n) : s.repairRefusal 7 u = 0 := by
  simp [State.repairRefusal, ha, hu]

/-- Code 8 is let through while a split stands. -/
theorem State.repairRefusal_fosterSplit (hsp : s.repair.split.isSome = true) : s.repairRefusal 8 0 = 0 := by
  obtain ⟨d, hd⟩ := Option.isSome_iff_exists.mp hsp
  simp [State.repairRefusal, ha, hd]
end

/-- What code 6 leaves due: this tile's fence, or the fostering of another tile. -/
def State.fenceAct (s : State) (u : Nat) : RungAct := if u = s.t then .fence .command else .foster u

theorem State.repairAct_fence (s : State) (u : Nat) : s.repairAct 6 u = (s.ring (.fence u)).dueAct (s.fenceAct u) := (apply_ite _ _ _ _).symm

/-- Tiles announced over the ring and fostered at the next tick, one after the other. -/
def State.fosterEach (s : State) (ks : List Nat) : State := ks.foldl (fun z k => (z.ring (.foster k)).dueAct (.foster k)) s

theorem State.fosterEach_says (ks : List Nat) (s : State) :
    (s.fosterEach ks).repair.due = s.repair.due ++ ks.map RungAct.foster ∧ (s.fosterEach ks).out = s.out ++ ks.map (fun k => Out.ring (.foster k)) ∧
      OnlyChanges [.repair, .out] s (s.fosterEach ks) := by
  induction ks generalizing s with
  | nil => exact ⟨(List.append_nil _).symm, (List.append_nil _).symm, OnlyChanges.refl s _⟩
  | cons k ks ih =>
    obtain ⟨hdue, hout, hf⟩ := ih ((s.ring (.foster k)).dueAct (.foster k))
    refine ⟨hdue.trans (List.append_assoc _ _ _), hout.trans (List.append_assoc _ _ _), ?_⟩
    exact ((State.emit_frame s _).then (State.dueAct_frame _ _)).trans hf

theorem repairCommandsOfAnchor : Claims.RepairCommandsOfAnchor := by
  intro s h u hd hg ha
  obtain ⟨⟨hc6, hu6⟩, hc7, hu7⟩ := repairWord_fields u
  have hspent := s.spent_frame h
  refine ⟨fun hu hv => ?_, fun hu => ?_, fun hsp => ?_, ?_⟩
  · have hact : (s.spent h).repairAct 6 u.toNat = ((s.spent h).ring (.fence u.toNat)).dueAct (s.fenceAct u.toNat) := by
      cases h <;> exact State.repairAct_fence _ _
    refine completes_repairAct 6 u.toNat rfl hd hg hc6 hu6 (State.repairRefusal_fence ha hu hv) hact ⟨?_, ?_, ?_⟩
    · exact congrArg (Repair.withDue · (s.fenceAct u.toNat)) (s.spent_repair h)
    · exact congrArg (· ++ [Out.ring (.fence u.toNat)]) (s.setPath_out h _)
    · exact hspent.then ((State.emit_frame _ _).then (State.dueAct_frame _ _))
  · have hact : (s.spent h).repairAct 7 u.toNat = (s.spent h).withRepair (s.repair.withDue (.restart u.toNat)) := by cases h <;> rfl
    obtain ⟨hr, -, hf⟩ := s.spent_withRepair_says h (s.repair.withDue (.restart u.toNat))
    exact completes_repairAct 7 u.toNat rfl hd hg hc7 hu7 (State.repairRefusal_restart ha hu) hact ⟨hr, hf⟩
  · set ks := (List.range s.n).filter (fun k => s.across k && bit s.repair.view k) with hks
    have hact : (s.spent h).repairAct 8 0 = (s.spent h).fosterEach ks := by cases h <;> rfl
    obtain ⟨hdue, hout, hf⟩ := State.fosterEach_says ks (s.spent h)
    refine completes_repairAct 8 0 rfl hd hg rfl rfl (State.repairRefusal_fosterSplit ha hsp) hact ⟨fun k hk hacross hview => ?_, hspent.then hf⟩
    have hmem : k ∈ ks := List.mem_filter.mpr ⟨List.mem_range.mpr hk, by rw [hacross, hview]; rfl⟩
    rw [hdue, hout]
    exact ⟨List.mem_append_right _ (List.mem_map_of_mem hmem), List.mem_append_right _ (List.mem_map_of_mem hmem)⟩
  · have hact : (s.spent h).repairAct 14 0 = (s.spent h).withRepair { s.repair with clearDue := true } := by cases h <;> rfl
    exact completes_repairAct 14 0 rfl hd hg rfl rfl rfl hact (s.spent_withRepair_says h _)

/-! ### The restart of a fenced tile -/

/-- A tile starts anew (R323): with no work of the store under way the store's bytes stand. -/
theorem State.beginStart_says (hp : s.boot.prog = none) (he : s.boot.hmErasing = false) (cause : Nat) :
    let t := s.beginStart cause
    t.boot.st = 1 ∧ t.boot.cause = cause ∧ t.repair.fenced = none ∧ t.phase = 0 ∧ t.clk = s.clk ∧ t.nor = s.nor := by
  have hnor : s.cutStore.nor = s.nor := by
    unfold State.cutStore
    simp [hp, he]
  have hclk : s.cutStore.clk = s.clk := by
    unfold State.cutStore
    simp [hp, he]
  exact ⟨rfl, rfl, rfl, rfl, hclk, hnor⟩

theorem fencedTileRestarts : Claims.FencedTileRestarts := by
  intro s h u hf hp he
  exact ⟨_, congrArg Host.Outcome.next (if_pos hf : s.restartFenced = _), State.beginStart_says hp he 3⟩

/-- Settles O23: REPAIR_CMD is one guarded word; a code that is let through leaves a fault waiting, an action due at the tick, a message on the ring, or the
map's clearing noted, and a fenced tile that is told to begins a start. That code 7 is let through for a tile outside the view, and that its restart is carried to
the tile, is the model's choice (log entry 20; R334 refuses a tile outside the view). -/
theorem repairCommands : Obligations.RepairCommands := ⟨repairCommandsAwaitTick, repairCommandsOfAnchor, fencedTileRestarts⟩

end Sys2Proof.Machine

/-!
The close of a rung 2 recovery (R307, R311) whose one row was replaced and verified: the row is counted and mapped, the recovery ends, and nothing is left due.
-/
namespace Sys2Proof.Machine
open Sys2Proof

variable {s t : State} {r : Recov}

/-! ### Frames and events -/

/-- An event logged after steps that leave the clock, the starts, the identity and the power as they were. -/
theorem State.log1_after {l : List Field} (k : OnlyChanges l s t) (hd : s.dom 1 = true) (hl : ∀ f ∈ [Field.ident, .clk, .boot, .pd], f ∉ l) (code : Nat)
    (args : List Word) : (t.log1 code args).log = t.log.push (s.event code args) := by
  have hid : Field.ident ∉ l := hl _ (by simp)
  have hclk : Field.clk ∉ l := hl _ (by simp)
  have hboot : Field.boot ∉ l := hl _ (by simp)
  rw [State.log1_logs (State.dom_of_frame k hd (hl _ (by simp))), State.event_of_frame k code args hid hclk hboot]

theorem PcFrame.andThen {l m : List Field} {c : Nat} {u : State} (h : PcFrame l c s t) (k : PcFrame m c t u) : PcFrame (m ++ l) c s u :=
  ⟨fun j hj => (k.1 j hj).trans (h.1 j hj), h.2.then k.2⟩

theorem PcFrame.mono {l m : List Field} {c : Nat} (h : PcFrame l c s t) (hl : l ⊆ m) : PcFrame m c s t := ⟨h.1, h.2.mono hl⟩

/-! ### The row -/

theorem PcFrame.useRow (s : State) (c : Nat) (x : Nat × Nat) : PcFrame [.pcs] c s (s.useRow c x) := .setPc s c _

/-- One repair row of the bank's group is used up, and its count is all that changes (R305). -/
theorem State.pc_useRow (s : State) (c : Nat) (x : Nat × Nat) :
    (s.useRow c x).pc c = { s.pc c with rowSp := SMap.put 0 (s.pc c).rowSp (x.1 / 4) ((s.pc c).rowSp.getD (x.1 / 4) 0 - 1) } := s.pc_setPc_same c _

/-- An entry of the repair map stands here at once; another tile's anchor is told (R330). -/
theorem State.addMap_says (s : State) (kind c b d : Nat) :
    (s.addMap kind c b d).repair = { s.repair with map := s.repair.map ++ [⟨kind, s.t, c, b, d⟩], mapDue := true } ∧
      OnlyChanges [.repair, .out] s (s.addMap kind c b d) := by
  set r : Repair := { s.repair with map := s.repair.map ++ [⟨kind, s.t, c, b, d⟩], mapDue := true } with hr
  have hx : s.addMap kind c b d = if (s.withRepair r).isAnchor || (s.withRepair r).across s.repair.anchor then s.withRepair r else
      (s.withRepair r).ring (.repairEntries [⟨kind, s.t, c, b, d⟩]) := rfl
  rw [hx]
  split
  · exact ⟨rfl, (s.withRepair_frame r).mono (by simp)⟩
  · exact ⟨rfl, ((s.withRepair_frame r).then (State.emit_frame _ _)).mono (by simp)⟩

/-- A row as it counts once it is replaced. -/
def PcSt.rowReplaced (q : PcSt) (x : Nat × Nat) : PcSt := { q with rowsSoft := min (q.rowsSoft + 1) 255, rowBad := SMap.del q.rowBad (65536 * x.1 + x.2) }

theorem State.rowDone_says (hd : s.dom 1 = true) (c : Nat) (x : Nat × Nat) :
    (s.rowDone c x).pc c = (s.pc c).rowReplaced x ∧
      (s.rowDone c x).repair = { s.repair with map := s.repair.map ++ [⟨3, s.t, c, x.1, s.deepOf x.1 x.2⟩], mapDue := true } ∧
      LogsOne s (s.rowDone c x) 0x0E07 [w16 c, w16 x.1, w16 x.2, Config.formCode false] ∧
      PcFrame [.pcs, .repair, .log, .maint, .out] c s (s.rowDone c x) := by
  set z := s.setPc c ((s.pc c).rowReplaced x) with hz
  obtain ⟨hrep, hmf⟩ := z.addMap_says 3 c x.1 (z.deepOf x.1 x.2)
  have hzf : PcFrame [.pcs] c s z := .setPc s c _
  have htf : OnlyChanges [.log, .maint, .out] (z.addMap 3 c x.1 (z.deepOf x.1 x.2)) (s.rowDone c x) := State.log1_frame _ _ _
  have hlater : OnlyChanges [.log, .maint, .out, .repair, .out] z (s.rowDone c x) := hmf.then htf
  refine ⟨?_, (htf .repair (by simp)).trans hrep, ?_, (hzf.andThen (.off_pcs hlater (by simp))).mono (by simp)⟩
  · rw [State.pc, show (s.rowDone c x).pcs = z.pcs from hlater .pcs (by simp)]
    exact s.pc_setPc_same c _
  · rw [LogsOne, ← show (z.addMap 3 c x.1 (z.deepOf x.1 x.2)).log = s.log from (hzf.2.then hmf) .log (by simp)]
    exact State.log1_after (hzf.2.then hmf) hd (by simp) _ _

/-! ### The end of the recovery -/

/-- Within its bound a recovery is measured and no event tells of it (R309). -/
theorem State.measureBound_within (h : s.frame ≤ r.found.toNat + 33) :
    s.measureBound r = s.withRepair { s.repair with longest := max s.repair.longest (min (s.frame - (r.found.toNat + 1)) 0xFFFF) } := by
  refine if_neg ?_
  split <;> omega

/-- A pseudo-channel that returns to the slot words, its idle timer anew (R167, R307). -/
def State.returned (s : State) (c : Nat) : PcSt := { s.pc c with recov := false, idleFrom := max (s.pc c).idleFrom s.clk.now }

/-- The pseudo-channel of a row recovery returned, its row's accesses gone, and the recovery counted. -/
def State.rowsEnded (s : State) (c : Nat) : State :=
  let z := (s.withRepair { s.repair with recov := none }).dropRowParts
  (z.setPc c (z.returned c)).count 0x7821 1

theorem State.rowsEnded_says (s : State) (c : Nat) :
    (s.rowsEnded c).pc c = s.returned c ∧ (s.rowsEnded c).repair = { s.repair with recov := none } ∧
      (s.rowsEnded c).sched.parts = s.sched.parts.filter (fun p => p.origin != .row) ∧ s.counted (s.rowsEnded c) 0x7821 1 1 ∧
      PcFrame [.repair, .sched, .pcs, .ctr] c s (s.rowsEnded c) := by
  set z := (s.withRepair { s.repair with recov := none }).dropRowParts with hz
  have hzf : OnlyChanges [.sched, .repair] s z := (s.withRepair_frame _).then (State.sched_frame _ _)
  have hy : PcFrame [.pcs] c z (z.setPc c (z.returned c)) := .setPc z c _
  refine ⟨z.pc_setPc_same c _, rfl, rfl, ?_, (((PcFrame.off_pcs hzf (by simp)).andThen hy).andThen (.off_pcs (State.count_frame _ _ _ _) (by simp))).mono (by simp)⟩
  exact State.counted_of_frame (hzf.then hy.2) (State.counted_count _ _ _ _) (by simp) (by simp)

/-- A rung 2 recovery with no lane spared that ends within its bound (R307, R309). -/
theorem State.endRecovery_rows (hr : r.rung = 2) (hs : r.spared = []) (hin : s.frame ≤ r.found.toNat + 33) (res : RecResult) :
    s.endRecovery r res =
      ((s.rowsEnded r.u.pc).withRepair { s.repair with recov := none, longest := max s.repair.longest (min (s.frame - (r.found.toNat + 1)) 0xFFFF) }).log1 0x0E04
        [w16 r.rung, Config.unitCode r.u, sat16 (s.frame - r.opened.toNat), Config.resultCode res] := by
  have hm : (s.rowsEnded r.u.pc).measureBound r = _ := State.measureBound_within (s := s.rowsEnded r.u.pc) (r := r) hin
  have hx : s.endRecovery r res = ((s.rowsEnded r.u.pc).measureBound r).log1 0x0E04
      [w16 r.rung, Config.unitCode r.u, sat16 (s.frame - r.opened.toNat), Config.resultCode res] := by
    rw [State.endRecovery, hr, hs]
    rfl
  rw [hx, hm]
  rfl

theorem State.endRecovery_says (hd : s.dom 1 = true) (hr : r.rung = 2) (hs : r.spared = []) (hin : s.frame ≤ r.found.toNat + 33) (res : RecResult) :
    (s.endRecovery r res).pc r.u.pc = s.returned r.u.pc ∧
      (∃ n, (s.endRecovery r res).repair = { s.repair with recov := none, longest := n }) ∧
      (s.endRecovery r res).sched.parts = s.sched.parts.filter (fun p => p.origin != .row) ∧ s.counted (s.endRecovery r res) 0x7821 1 1 ∧
      LogsOne s (s.endRecovery r res) 0x0E04 [w16 r.rung, Config.unitCode r.u, sat16 (s.frame - r.opened.toNat), Config.resultCode res] ∧
      PcFrame [.repair, .sched, .pcs, .ctr, .log, .maint, .out] r.u.pc s (s.endRecovery r res) := by
  obtain ⟨hpc, -, hparts, hcount, hf⟩ := s.rowsEnded_says r.u.pc
  rw [State.endRecovery_rows hr hs hin]
  set y := (s.rowsEnded r.u.pc).withRepair { s.repair with recov := none, longest := max s.repair.longest (min (s.frame - (r.found.toNat + 1)) 0xFFFF) } with hy
  have hyf : OnlyChanges [.repair] (s.rowsEnded r.u.pc) y := State.withRepair_frame _ _
  set t := y.log1 0x0E04 [w16 r.rung, Config.unitCode r.u, sat16 (s.frame - r.opened.toNat), Config.resultCode res] with ht
  have htf : OnlyChanges [.log, .maint, .out] y t := State.log1_frame _ _ _
  have hlater := hyf.then htf
  have hpcs : t.pcs = (s.rowsEnded r.u.pc).pcs := hlater .pcs (by simp)
  refine ⟨?_, ⟨_, htf .repair (by simp)⟩, ?_, State.counted_then hcount hlater (by simp), ?_,
    (hf.andThen (.off_pcs hlater (by simp))).mono (by simp)⟩
  · rw [State.pc, hpcs]
    exact hpc
  · rw [show t.sched = (s.rowsEnded r.u.pc).sched from hlater .sched (by simp), hparts]
  · rw [LogsOne, ← show y.log = s.log from (hf.2.then hyf) .log (by simp)]
    exact State.log1_after (hf.2.then hyf) hd (by simp) _ _

/-! ### The close -/

/-- A step with nothing due at once leaves what was due at the tick (R308). -/
theorem State.atOnce_nothing (s : State) : s.atOnce (fun z => z) = s := by
  show s.withRepair { s.repair with due := s.repair.due ++ [] } = s
  rw [List.append_nil]
  rfl

/-- The one row of a recovery that verified is replaced, and no bank goes (R311). -/
theorem State.closeRows_one {x : Nat × Nat} (hrows : r.rows = [x]) (hv : s.rowVerified r x = true) :
    s.closeRows r true = ((s.useRow r.u.pc x).rowDone r.u.pc x).endRecovery r .passed := by
  have hgood : [x].filter (fun y => true && s.rowVerified r y) = [x] := by simp [hv]
  have hbad : [x].filter (fun y => !(true && s.rowVerified r y)) = [] := by simp [hv]
  unfold State.closeRows
  simp only [hrows, hgood, hbad, List.foldl_cons, List.foldl_nil, List.isEmpty_nil, if_true]
  exact State.atOnce_nothing _

theorem exec_recoveryClose_early (hr : s.repair.recov = some r) (h2 : r.rung = 2) (h : s.frame < r.opened.toNat + 6) (res : RecResult) :
    exec (.recoveryClose res) s = .next s := by
  refine congrArg Host.Outcome.next ?_
  rw [hr]
  exact if_pos (by rw [h2]; exact h)

/-- The close of rung 2, between ticks: no other recovery opens (R307). -/
theorem exec_recoveryClose_rows (hr : s.repair.recov = some r) (h2 : r.rung = 2) (h : r.opened.toNat + 6 ≤ s.frame) (hc : (s.closeRows r true).cyc ≠ 0) :
    exec (.recoveryClose .passed) s = .next (s.closeRows r true) := by
  have hrung : ¬ (r.rung = 1) := by rw [h2]; decide
  refine congrArg Host.Outcome.next ?_
  rw [hr]
  refine (if_neg (by rw [if_neg hrung]; exact Nat.not_lt.mpr h)).trans ?_
  simp only [if_neg hrung]
  exact if_neg hc

theorem recoveryCloses : Claims.RecoveryCloses := by
  intro s r hr h2 hd _ hspared
  refine ⟨fun h res => ⟨s, exec_recoveryClose_early hr h2 h res, rfl⟩, fun b w hopen hcyc hin _ hrows hv => ?_⟩
  set c := r.u.pc with hcdef
  set a := s.useRow c (b, w) with ha
  set z := a.rowDone c (b, w) with hz
  have haf : PcFrame [.pcs] c s a := .useRow s c _
  obtain ⟨hzpc, hzrep, hzlog, hzf⟩ := State.rowDone_says (s := a) (State.dom_of_frame haf.2 hd (by simp)) c (b, w)
  have hsz : PcFrame [.pcs, .repair, .log, .maint, .out] c s z := (haf.andThen hzf).mono (by simp)
  have hzframe : z.frame = s.frame := congrArg (fun v : Anvil => v.frameNo.toNat) (hsz.2 .anvil (by simp))
  obtain ⟨hpc, ⟨n, hrep⟩, hparts, hcount, hlog, hf⟩ :=
    State.endRecovery_says (s := z) (State.dom_of_frame hsz.2 hd (by simp)) h2 hspared (by rw [hzframe]; exact hin) .passed
  have hclose : s.closeRows r true = z.endRecovery r .passed := State.closeRows_one hrows hv
  have hall : PcFrame [.repair, .pcs, .sched, .log, .maint, .out, .ctr] c s (z.endRecovery r .passed) := (hsz.andThen hf).mono (by simp)
  have hcyc' : (s.closeRows r true).cyc ≠ 0 := by
    rw [hclose, State.cyc, hall.2 .clk (by simp)]
    exact hcyc
  refine ⟨_, (exec_recoveryClose_rows hr h2 hopen hcyc').trans (congrArg _ hclose), ?_⟩
  generalize z.endRecovery r .passed = t at *
  have hpart : ∀ p, p ∈ t.sched.parts ↔ p ∈ s.sched.parts ∧ p.origin ≠ .row := fun p => by
    rw [hparts, show z.sched = s.sched from hsz.2 .sched (by simp), List.mem_filter, bne_iff_ne]
  have hpcT : t.pc c = { (a.pc c).rowReplaced (b, w) with recov := false, idleFrom := max ((a.pc c).rowReplaced (b, w)).idleFrom z.clk.now } := by
    rw [hpc, State.returned, hzpc]
  have hrow : a.pc c = _ := State.pc_useRow s c (b, w)
  have hlogT : t.log = (s.log.push (s.event 0x0E07 [w16 c, w16 b, w16 w, Config.formCode false])).push
      (s.event 0x0E04 [w16 r.rung, Config.unitCode r.u, sat16 (s.frame - r.opened.toNat), Config.resultCode .passed]) := by
    rw [hlog, hzlog, hzframe, State.event_of_frame hsz.2 _ _ (by simp) (by simp) (by simp),
      State.event_of_frame haf.2 _ _ (by simp) (by simp) (by simp)]
    rfl
  refine ⟨congrArg Repair.recov hrep, congrArg PcSt.recov hpcT, ?_, ?_, ?_, ?_, ?_, hlogT, fun p hp => ((hpart p).mp hp).2,
    fun p hp ho => (hpart p).mpr ⟨hp, ho⟩, State.counted_of_frame hsz.2 hcount (by simp) (by simp), hall.1, hall.2⟩
  · rw [hpcT, hrow]
    rfl
  · rw [hpcT, hrow]
    exact SMap.getD_put_same _ _ _ _
  · rw [hrep, hzrep]
    rfl
  · rw [hrep, hzrep]
    rfl
  · rw [hrep, hzrep]

end Sys2Proof.Machine

/-!
Notices from other tiles (R199, R312, R313, R318, R319): a retirement kept with those of every tile and mapped by the anchor, a fence that makes a fostering due, and
the fence of this tile itself.
-/
namespace Sys2Proof.Machine
open Sys2Proof

variable {s t : State} {l : List Field}

/-! ### A bank retired elsewhere -/

/-- The tile goes on: the anchor hears its heartbeat and it is not fenced (R330). -/
def State.heardServing (s : State) (u : Nat) : Bool := match SMap.look s.anvil.hb u with
  | some h => decide (h.missed = 0) && h.st != TileSt.fenced
  | none => false

/-- A bank of tile u kept with the retired units of every tile, and in the anchor's map where the tile goes on (R199, R330). -/
def State.bankNoted (s : State) (u c b : Nat) : State :=
  { s.withRepair { s.repair with others := s.repair.others ++ [(u, 0, c, b)],
                                 map := if s.isAnchor && s.heardServing u then s.repair.map ++ [⟨5, u, c, b, 0⟩] else s.repair.map,
                                 mapDue := s.repair.mapDue || (s.isAnchor && s.heardServing u) } with
    seam := { s.seam with standFrom := if s.cyc = 0 then s.anvil.frameNo else s.anvil.frameNo + 1 } }

theorem State.bankNoted_frame (s : State) (u c b : Nat) : OnlyChanges [.repair, .seam] s (s.bankNoted u c b) :=
  ((s.withRepair_frame _).then (State.seam_frame _ _)).mono (by simp)

/-- Without parity no line is lost with a unit, and nothing stands unprotected (R193). -/
theorem State.countGone_noParity (h : s.map.seam = 0) (old : State) (stack : Bool) : s.countGone old stack = s := if_pos (.inl h)

theorem State.unguarded_noParity (h : s.map.seam = 0) : s.unguarded = s := if_pos h

theorem exec_retirementNotice_bank {u : TileNo} {c b : Pc} (hu : u.val < s.n) (ht : u.val ≠ s.t) (hnew : (u.val, 0, c.val, b.val) ∉ s.repair.others)
    (hseam : s.map.seam = 0) : exec (.retirementNotice u 0 c b) s = .next (s.bankNoted u.val c.val b.val) := by
  have hnone : ¬ (s.n ≤ u.val ∨ u.val = s.t ∨ s.repair.others.contains (u.val, 0, c.val, b.val) = true) := by
    simp [hnew, ht, hu]
  have hmap : (s.bankNoted u.val c.val b.val).map.seam = 0 := hseam
  refine congrArg Host.Outcome.next ((if_neg hnone).trans ?_)
  show ((s.bankNoted u.val c.val b.val).countGone s false).unguarded = _
  rw [State.countGone_noParity hmap, State.unguarded_noParity hmap]

/-- Another tile than the anchor, or an anchor that has no record of the tile, maps nothing. -/
theorem State.bankNoted_unmapped {u : Nat} (h : s.repair.anchor ≠ s.t ∨ SMap.look s.anvil.hb u = none) : (s.isAnchor && s.heardServing u) = false := by
  rcases h with h | h
  · simp [State.isAnchor, h]
  · simp [State.heardServing, h]

theorem State.bankNoted_mapped {u : Nat} {h : HbRec} (ha : s.repair.anchor = s.t) (hu : SMap.look s.anvil.hb u = some h) (hm : h.missed = 0) (hf : h.st ≠ .fenced) :
    (s.isAnchor && s.heardServing u) = true := by
  simp [State.isAnchor, State.heardServing, ha, hu, hm, hf]

/-! ### A fence elsewhere -/

theorem exec_fenceNotice_off {u : TileNo} (h : s.dom 29 = false) : exec (.fenceNotice u) s = .next s :=
  congrArg Host.Outcome.next (if_pos (by rw [h]; rfl))

/-- The record of another tile as fenced. -/
def State.heardFenced (s : State) (u : Nat) : State :=
  { s with anvil := { s.anvil with hb := SMap.set s.anvil.hb u { s.anvil.hb.getD u {} with st := .fenced } } }

theorem State.heardFenced_frame (s : State) (u : Nat) : OnlyChanges [.anvil] s (s.heardFenced u) := Fr.only (M := 2 ^ 13) (Fr.upd (Fr.refl s) rfl) (by decide)

theorem exec_fenceNotice_other {u : TileNo} (hd : s.dom 29 = true) (ht : u.val ≠ s.t) (hu : u.val < s.n) (hview : bit s.repair.view u.val = true)
    (hdue : RungAct.foster u.val ∉ s.repair.due) : exec (.fenceNotice u) s = .next ((s.heardFenced u.val).dueAct (.foster u.val)) := by
  have hnone : ¬ (s.n ≤ u.val ∨ (!bit s.repair.view u.val) = true ∨ s.repair.due.contains (.foster u.val) = true) := by
    simp [hdue, hview, hu]
  exact congrArg Host.Outcome.next ((if_neg (by simp [hd])).trans ((if_neg ht).trans (if_neg hnone)))

/-! ### The fence of this tile -/

theorem State.measureBound_frame (s : State) (r : Recov) : OnlyChanges [.repair, .log, .maint, .out] s (s.measureBound r) :=
  .ite (((s.withRepair_frame _).then (State.log1_frame _ _ _)).mono (by simp)) ((s.withRepair_frame _).mono (by simp))

/-- A closed recovery leaves the stack, the ports and the dictionary alone (R308). -/
theorem State.closeRecovery_frame (s : State) (res : RecResult) : OnlyChanges [.repair, .pcs, .sched, .ctr, .log, .maint, .out] s (s.closeRecovery res) := by
  unfold State.closeRecovery
  split
  · next r _ =>
    exact OnlyChanges.mono ((((OnlyChanges.then (l := [.repair, .pcs]) (Fr.only (M := 2 ^ 20 + 2 ^ 30) (Fr.upd (Fr.refl s) rfl) (by decide))
      (State.sched_frame _ _)).then (State.count_frame _ _ _ _)).then (State.measureBound_frame _ r)).then (State.log1_frame _ _ _)) (by simp)
  · exact .refl s _

/-- Messages sent, one for each pseudo-channel named, change nothing but what goes out. -/
theorem State.emitEach_frame (s : State) (cs : List Nat) (k : Nat → Out) : OnlyChanges [.out] s (s.each cs fun a c => a.emit (k c)) :=
  Fr.only (M := 2 ^ 2) (Fr.foldl _ _ (Fr.refl s) fun _ _ ha => Fr.upd ha rfl) (by decide)

theorem State.selfRefresh_frame (s : State) : OnlyChanges [.out, .pcs, .store] s s.selfRefresh :=
  .ite (.refl s _) (((s.emitEach_frame _ fun c => .stack c s.clk.now .srEnter).then
    (Fr.only (l := [.pcs, .store]) (M := 2 ^ 20 + 2 ^ 21) (Fr.upd (Fr.refl _) rfl) (by decide))).mono (by simp))

/-- The stack holds what it held (R74). -/
theorem State.selfRefresh_store (s : State) : s.selfRefresh.store = { s.store with selfRef := true } := by
  unfold State.selfRefresh
  split
  · next h => rw [← h]
  · exact congrArg (fun v : Store => { v with selfRef := true }) (s.emitEach_frame _ (fun c => .stack c s.clk.now .srEnter) .store (by simp))

/-- The state with its recovery abandoned, its stack in self-refresh and its key slots empty, as a fence leaves it (R318). -/
def State.standsDown (s : State) : State := ((s.closeRecovery .abandoned).selfRefresh).emptySlots

theorem State.standsDown_says (s : State) :
    s.standsDown.store = { s.store with selfRef := true } ∧ s.standsDown.cipher.slots = [] ∧
      OnlyChanges [.repair, .pcs, .sched, .ctr, .log, .maint, .out, .store, .cipher] s s.standsDown := by
  have hc := s.closeRecovery_frame .abandoned
  have hr := (s.closeRecovery .abandoned).selfRefresh_frame
  refine ⟨?_, rfl, ((hc.then hr).then (State.cipher_frame _ _)).mono (by simp)⟩
  show (s.closeRecovery .abandoned).selfRefresh.store = _
  rw [State.selfRefresh_store, show (s.closeRecovery .abandoned).store = s.store from hc .store (by simp)]

/-- The fence taken: its cause kept, no recovery waiting, alert low and no cipher work held (R261, R318). -/
def State.shutBy (s : State) (c : FenceCause) : State :=
  { s with repair := { s.repair with fenced := some c, waiting := [] }, pins := { s.pins with alertLow := true }, cipher := { s.cipher with ents := [] } }

theorem State.shutBy_frame (s : State) (c : FenceCause) : OnlyChanges [.repair, .pins, .cipher] s (s.shutBy c) :=
  Fr.only (M := 2 ^ 4 + 2 ^ 26 + 2 ^ 30) (Fr.upd (Fr.refl s) rfl) (by decide)

theorem State.fenceTile_eq (h : s.repair.fenced = none) (c : FenceCause) : s.fenceTile c = (s.standsDown.shutBy c).log1 0x0E0B [Config.fenceCode c] :=
  if_neg (by simp [h])

theorem State.fenceTile_says (h : s.repair.fenced = none) (hd : s.dom 1 = true) (c : FenceCause) :
    (s.fenceTile c).repair.fenced = some c ∧ (s.fenceTile c).pins.alertLow = true ∧ (s.fenceTile c).store = { s.store with selfRef := true } ∧
      (s.fenceTile c).cipher.slots = [] ∧ (s.fenceTile c).log.entries.getLast? = some (s.event 0x0E0B [Config.fenceCode c]) ∧
      OnlyChanges [.repair, .pcs, .sched, .ctr, .log, .maint, .out, .store, .cipher, .pins] s (s.fenceTile c) := by
  obtain ⟨hstore, hslots, hf⟩ := s.standsDown_says
  rw [State.fenceTile_eq h]
  set z := s.standsDown.shutBy c with hz
  have hzf : OnlyChanges [.repair, .pcs, .sched, .ctr, .log, .maint, .out, .store, .cipher, .pins] s z := (hf.then (State.shutBy_frame _ c)).mono (by simp)
  have ht : OnlyChanges [.log, .maint, .out] z (z.log1 0x0E0B [Config.fenceCode c]) := State.log1_frame _ _ _
  have hlog : (z.log1 0x0E0B [Config.fenceCode c]).log = z.log.push (s.event 0x0E0B [Config.fenceCode c]) := State.log1_after hzf hd (by simp) _ _
  generalize z.log1 0x0E0B [Config.fenceCode c] = t at *
  refine ⟨congrArg Repair.fenced (ht .repair (by simp) : t.repair = z.repair), congrArg Pins.alertLow (ht .pins (by simp) : t.pins = z.pins),
    (ht .store (by simp)).trans hstore, (congrArg Cipher.slots (ht .cipher (by simp) : t.cipher = z.cipher)).trans hslots, ?_, (hzf.then ht).mono (by simp)⟩
  rw [hlog, Log.getLast_push]

theorem exec_fenceNotice_own {u : TileNo} (hd : s.dom 29 = true) (ht : u.val = s.t) : exec (.fenceNotice u) s = .next (s.fenceTile .notice) :=
  congrArg Host.Outcome.next ((if_neg (by simp [hd])).trans (if_pos ht))

/-! ### The obligation -/

theorem retirementAndFenceNotices : Claims.RetirementAndFenceNotices := by
  intro s u hu
  refine ⟨fun c b ht hnew hseam => ⟨_, exec_retirementNotice_bank hu ht hnew hseam, rfl, ?_, ?_, rfl, s.bankNoted_frame _ _ _⟩,
    fun hoff => ⟨s, exec_fenceNotice_off hoff, rfl⟩,
    fun hd ht hview hdue => ⟨_, exec_fenceNotice_other hd ht hu hview hdue, rfl, ⟨_, SMap.look_set_same _ _ _, rfl⟩,
      ((s.heardFenced_frame _).then (State.dueAct_frame _ _)).mono (by simp)⟩,
    fun hd ht hun hon => ?_⟩
  · intro h
    have hno := State.bankNoted_unmapped h
    exact ⟨if_neg (by simp [hno]), by simp [State.bankNoted, State.withRepair, hno]⟩
  · intro h ha hlook hm hst
    have hyes := State.bankNoted_mapped ha hlook hm hst
    exact ⟨if_pos hyes, by simp [State.bankNoted, State.withRepair, hyes]⟩
  · obtain ⟨hfenced, halert, hstore, hslots, hlog, hf⟩ := State.fenceTile_says hun hon .notice
    exact ⟨_, exec_fenceNotice_own hd ht, hfenced, halert, congrArg Store.selfRef hstore, (congrArg Store.data hstore :), hslots, hlog,
      hf .ports (by simp), hf .dict (by simp)⟩

/-- Settles O55: a rung 2 recovery closes through the row replaced, the recovery ended and nothing due (`State.rowDone_says`, `State.endRecovery_says`), and each notice
is one equation of its command with what the state it names holds. The verification of a row and the buffer it rests on are log 77, a repair row used whether or not it
holds is log 56, the messages that a tile with its ring stop down ignores are log 61, and the entry of another tile's unit in the anchor's map is log 31: readings of the
rules and a choice of the model's. A close at the tick itself, where the next recovery opens, is left out by the statement. -/
theorem recoveriesAndNotices : Obligations.RecoveriesAndNotices := ⟨recoveryCloses, retirementAndFenceNotices⟩

end Sys2Proof.Machine

/-!
Links of the ring (R324): the break of a link, the notice of one, and its restoring, where the ring holds no split and where it does (R328).
-/
namespace Sys2Proof.Machine
open Sys2Proof

variable {s t : State} {l : List Field}

/-! ### The log -/

/-- The last event is still in the log after one more, whether or not the oldest leaves it (R388). -/
theorem Log.mem_push_of_last {g : Log} {e : LogEntry} (h : g.entries.getLast? = some e) (e' : LogEntry) : e ∈ (g.push e').entries := by
  obtain ⟨es, hes⟩ := List.getLast?_eq_some_iff.mp h
  unfold Log.push
  split
  · simp [hes]
  · next hfull =>
    have hlen : 1 ≤ es.length := by
      rw [hes, List.length_append, List.length_singleton] at hfull
      omega
    show e ∈ g.entries.drop 1 ++ [e']
    rw [hes, List.drop_append_of_le_length hlen]
    simp

/-! ### Broken links -/

/-- The one link that breaks is the only one that is broken. -/
theorem State.brokenLinks_first (h : s.brokenLinks = []) (k : Nat) : (s.setLink k true).brokenLinks.length < 2 := by
  have honly (j : Nat) (hj : j ∈ List.range s.n) (hb : bit (setBit s.repair.links k true) j = true) : (j == k) = true := by
    refine beq_iff_eq.mpr (by_contra fun hne => ?_)
    rw [bit_setBit_ne _ _ hne] at hb
    have hmem : j ∈ s.brokenLinks := List.mem_filter.mpr ⟨hj, hb⟩
    rw [h] at hmem
    cases hmem
  have hle : (s.setLink k true).brokenLinks.length ≤ (List.range s.n).count k :=
    List.countP_eq_length_filter ▸ List.countP_mono_left honly
  have hone := List.nodup_iff_count_le_one.mp (List.nodup_range (n := s.n)) k
  omega

theorem State.brokenLinks_of_frame (k : OnlyChanges l s t) (hi : .ident ∉ l) (hr : .repair ∉ l) : t.brokenLinks = s.brokenLinks := by
  have ei : t.ident = s.ident := k .ident hi
  have er : t.repair = s.repair := k .repair hr
  rw [State.brokenLinks, State.brokenLinks, State.n, State.n, ei, er]

/-- With one break at most the ring reaches every tile, and nothing follows (R325). -/
theorem State.linksKnown_one (h : s.brokenLinks.length < 2) : s.linksKnown = s := if_pos (.inl h)

theorem State.setLink_frame (s : State) (k : Nat) (b : Bool) : OnlyChanges [.repair] s (s.setLink k b) := s.withRepair_frame _

/-! ### The break of a link -/

/-- A link of this tile broken: event 0x0E0D and a link fault (R324). -/
def State.linkDown (s : State) (k : Nat) : State := ((s.setLink k true).log1 0x0E0D [w16 k]).fault .link ⟨k, 0, 0, 0⟩

theorem State.linkDown_says (hd : s.dom 1 = true) (k : Nat) :
    (s.linkDown k).repair = (s.setLink k true).repair ∧ s.event 0x0E0D [w16 k] ∈ (s.linkDown k).log.entries ∧
      OnlyChanges [.ctr, .log, .maint, .out] (s.setLink k true) (s.linkDown k) := by
  set z := s.setLink k true with hz
  set y := z.log1 0x0E0D [w16 k] with hy
  have hyf : OnlyChanges [.log, .maint, .out] z y := z.log1_frame _ _
  have hcf : OnlyChanges [.ctr] y (y.count 0x7820 29) := y.count_frame _ _ _
  have hlast : (y.count 0x7820 29).log.entries.getLast? = some (s.event 0x0E0D [w16 k]) := by
    rw [State.count_log, hy, State.log1_after (s.setLink_frame k true) hd (by simp), Log.getLast_push]
  have hx : s.linkDown k = (y.count 0x7820 29).log1 0x0E02 [w16 (classNo .link), Config.unitCode ⟨k, 0, 0, 0⟩] := State.fault_high (by decide) _
  have hf : OnlyChanges [.ctr, .log, .maint, .out] z (s.linkDown k) := hx ▸ ((hyf.then hcf).then (State.log1_frame _ _ _)).mono (by simp)
  refine ⟨hf .repair (by simp), ?_, hf⟩
  rw [hx, State.log1_after (hyf.then hcf) hd (by simp)]
  exact Log.mem_push_of_last hlast _

theorem exec_linkTimeout {side : Fin 2} (hn : 1 < s.n) (hnone : s.brokenLinks = []) (hb : bit s.repair.links (s.linkAt side) = false) (hd : s.dom 1 = true) :
    exec (.linkTimeout side) s = .next (((s.linkDown (s.linkAt side)).ring (.linkNotice (s.linkAt side))).ring (.resend side)) := by
  set k := s.linkAt side
  have hf : OnlyChanges [.ctr, .log, .maint, .out] (s.setLink k true) (((s.linkDown k).ring (.linkNotice k)).ring (.resend side)) :=
    (((State.linkDown_says hd k).2.2.then (State.emit_frame _ _)).then (State.emit_frame _ _)).mono (by simp)
  have hgo : ¬ (s.n ≤ 1 ∨ bit s.repair.links k = true) := by simp [hb, hn]
  refine congrArg Host.Outcome.next ((if_neg hgo).trans (State.linksKnown_one ?_))
  exact (State.brokenLinks_of_frame hf (by simp) (by simp)).symm ▸ State.brokenLinks_first hnone k

theorem linksWatched : Claims.LinksWatched := by
  intro s hn _ hnone
  refine ⟨fun side hd hb => ?_, fun k hk hb => ?_, fun k hk => ?_⟩
  · obtain ⟨hr, hlog, hf⟩ := State.linkDown_says hd (s.linkAt side)
    refine ⟨_, exec_linkTimeout hn hnone hb hd, hr, hlog, ?_, ?_, ?_⟩
    · simp [State.ring, State.emit]
    · simp [State.ring, State.emit]
    · exact ((((s.setLink_frame _ true).then hf).then (State.emit_frame _ _)).then (State.emit_frame _ _)).mono (by simp)
  · have hgo : ¬ (s.n ≤ 1 ∨ s.n ≤ k.val ∨ bit s.repair.links k.val = true) := by simp [hb, hn, hk]
    exact ⟨_, congrArg Host.Outcome.next ((if_neg hgo).trans (State.linksKnown_one (State.brokenLinks_first hnone k.val))), rfl, s.setLink_frame _ _⟩
  · exact ⟨s, congrArg Host.Outcome.next (if_pos (.inr (.inl hk))), rfl⟩

/-! ### The restoring of a link -/

/-- A link restored, with event 0x0E0E at its own ring stops (R324). -/
def State.linkUp (s : State) (k : TileNo) : State :=
  if k.val = s.linkAt 0 ∨ k.val = s.linkAt 1 then (s.setLink k false).log1 0x0E0E [w16 k] else s.setLink k false

theorem State.linkUp_frame (s : State) (k : TileNo) : OnlyChanges [.log, .maint, .out] (s.setLink k false) (s.linkUp k) :=
  .ite (State.log1_frame _ _ _) (.refl _ _)

/-- Whether the restoring of a link lets a split heal (R328). -/
def State.healsWith (s : State) (k : TileNo) : Prop :=
  (s.linkUp k).brokenLinks.length ≤ 1 ∧ (s.linkUp k).repair.split.isSome = true ∧ (s.linkUp k).repair.healAt.isNone = true

theorem exec_linkRestore {k : TileNo} (hb : bit s.repair.links k.val = true) (h : ¬ s.healsWith k) : exec (.linkRestore k) s = .next (s.linkUp k) := by
  have hgo : ¬ ((!bit s.repair.links k.val) = true) := by simp [hb]
  exact congrArg Host.Outcome.next ((if_neg hgo).trans (if_neg h))

/-- The anchor's declaration of the heal, two ticks later. -/
def State.declareHeal (s : State) : State :=
  (s.withRepair { s.repair with healAt := some (BitVec.ofNat 64 (s.frame + 2)) }).ring (.heal (BitVec.ofNat 64 (s.frame + 2)))

theorem exec_linkRestore_heals {k : TileNo} (hb : bit s.repair.links k.val = true) (h : s.healsWith k) (ha : (s.linkUp k).isAnchor = true) :
    exec (.linkRestore k) s = .next (s.linkUp k).declareHeal := by
  have hgo : ¬ ((!bit s.repair.links k.val) = true) := by simp [hb]
  exact congrArg Host.Outcome.next ((if_neg hgo).trans ((if_pos h).trans (if_pos ha)))

theorem linkRestored : Claims.LinkRestored := by
  intro s k hb hd
  have hf := s.linkUp_frame k
  have hsf := s.setLink_frame k.val false
  have hr : (s.linkUp k).repair = { s.repair with links := setBit s.repair.links k.val false } := hf .repair (by simp)
  have hall : OnlyChanges [.repair, .log, .maint, .out] s (s.linkUp k) := (hsf.then hf).mono (by simp)
  constructor
  · intro hsplit
    have hno : ¬ s.healsWith k := fun h => by
      have := h.2.1
      rw [hr] at this
      simp [hsplit] at this
    refine ⟨_, exec_linkRestore hb hno, hr, ?_, hall⟩
    unfold State.linkUp
    split
    · exact State.log1_after hsf hd (by simp) _ _
    · rfl
  · intro hsplit hheal hanchor hlinks
    have hheals : s.healsWith k := by
      refine ⟨?_, by rw [hr]; exact hsplit, by rw [hr]; exact Option.isNone_iff_eq_none.mpr hheal⟩
      rw [State.brokenLinks_of_frame hf (by simp) (by simp)]
      exact hlinks
    have hframe : (s.linkUp k).frame = s.frame := congrArg (fun a : Anvil => a.frameNo.toNat) (hall .anvil (by simp))
    have hself : (s.linkUp k).isAnchor = true := by
      rw [State.isAnchor, hr, State.t, hall .ident (by simp)]
      exact beq_iff_eq.mpr hanchor
    refine ⟨_, exec_linkRestore_heals hb hheals hself, ?_, ?_, (congrArg Repair.split hr :), ?_⟩
    · rw [← hframe]
      rfl
    · rw [← hframe]
      exact List.mem_append_right _ (List.mem_singleton.mpr rfl)
    · exact ((hall.then (State.withRepair_frame _ _)).then (State.emit_frame _ _)).mono (by simp)

end Sys2Proof.Machine

/-!
Splits and heals (R202 to R204, R325 to R329): a split tick on a tile with nothing under way at its home or its ports, and a heal tick on one with no line in doubt.
-/
namespace Sys2Proof.Machine
open Sys2Proof

variable {s t : State} {l : List Field}

/-! ### What a split tick finds nothing of -/

/-- Rows that fit the list leave no event (R203); with none to add the list stands. -/
theorem State.listRows_nil (h : s.seam.resync.length ≤ 4096) : s.listRows [] = s := if_pos h

theorem State.abortJob_none (h : s.seam.job = none) : s.abortJob = s := by
  unfold State.abortJob
  rw [h]

/-- The Seam part of a tile with no write, no job and no write-back of Pickle's under way: the queues are looked through and kept. -/
theorem State.splitSeam_quiet (hw : s.seam.writes = []) (hj : s.seam.job = none) (hp : ∀ p ∈ s.sched.parts, p.origin ≠ .pickleBack)
    (hr : s.seam.resync.length ≤ 4096) : s.splitSeam = s.fixV := by
  unfold State.splitSeam
  simp only [hw, List.filter_nil, List.map_nil, List.foldl_nil, State.listRows_nil hr, State.abortJob_none hj]
  exact State.dropParts_none fun p hmem => by simp [hp p hmem]

/-- The home of a tile with no transaction under way (R235): the classification and the hold begin. -/
theorem State.homeSplit_quiet (h : s.ha.txns = []) :
    s.homeSplit = { s with ha := { s.ha with classify := true, holdFrom := some s.anvil.frameNo, expired := false, healing := false } } := by
  rw [State.homeSplit, h]
  rfl

/-- Ports with no request onward lose none across the split (R236). -/
theorem State.endOutstanding_none (h : s.ports = []) (f : Nat → Bool) (w : Lost) : s.endOutstanding f w = s := by
  have hport (p : Port) : ((s.port p).onward.filter fun o => f o.home) = [] := by
    rw [State.port, h]
    rfl
  unfold State.endOutstanding
  simp only [hport, List.foldl_nil]
  exact List.foldl_fixed _

/-! ### The split tick -/

/-- The split stands from tick d, with this tile's arc and its leader (R325 to R327). -/
def State.splitFrom (s : State) (d : BitVec 64) : State :=
  s.withRepair { s.repair with splitAt := none, split := some d, arc := s.arcOf s.t,
                               leader := decide (s.arcLeader = some s.t ∧ !bit (s.arcOf s.t) s.repair.anchor) }

/-- The Seam part takes no more writes (R202). -/
def State.seamClosed (s : State) : State := { s with seam := { s.seam with readOnly := true } }

theorem State.seamClosed_frame (s : State) : OnlyChanges [.seam] s s.seamClosed := s.seam_frame _

/-- The split as it is told: event 0x0E0F with its tick and arc. -/
def State.splitTold (s : State) (d : BitVec 64) : State := (s.splitFrom d).log1 0x0E0F (two d.toNat ++ [(s.arcOf s.t).setWidth 16])

theorem State.splitTold_frame (s : State) (d : BitVec 64) : OnlyChanges [.repair, .log, .maint, .out] s (s.splitTold d) :=
  ((s.withRepair_frame _).then (State.log1_frame _ _ _)).mono (by simp)

/-- The Seam part read-only, told by event 0x0905. -/
def State.seamSplit (s : State) (d : BitVec 64) : State := (s.splitTold d).seamClosed.log1 0x0905 []

theorem State.seamSplit_says (hd : s.dom 1 = true) (d : BitVec 64) :
    (s.seamSplit d).repair = (s.splitFrom d).repair ∧ (s.seamSplit d).seam = { s.seam with readOnly := true } ∧
      (s.seamSplit d).log = (s.log.push (s.event 0x0E0F (two d.toNat ++ [(s.arcOf s.t).setWidth 16]))).push (s.event 0x0905 []) ∧
      OnlyChanges [.repair, .seam, .log, .maint, .out] s (s.seamSplit d) := by
  have hto : OnlyChanges [.log, .maint, .out] (s.splitFrom d) (s.splitTold d) := State.log1_frame _ _ _
  have hcl := (s.splitTold d).seamClosed_frame
  have hin : OnlyChanges [.seam, .repair, .log, .maint, .out] s (s.splitTold d).seamClosed := (s.splitTold_frame d).then hcl
  have hlast : OnlyChanges [.log, .maint, .out] (s.splitTold d).seamClosed (s.seamSplit d) := State.log1_frame _ _ _
  have htold : LogsOne s (s.splitTold d) 0x0E0F (two d.toNat ++ [(s.arcOf s.t).setWidth 16]) :=
    State.log1_after (s.withRepair_frame _) hd (by simp) _ _
  have hclosed : (s.seamSplit d).log = (s.splitTold d).log.push (s.event 0x0905 []) := State.log1_after hin hd (by simp) _ _
  refine ⟨(hto.then (hcl.then hlast)) .repair (by simp), ?_, ?_, (hin.then hlast).mono (by simp)⟩
  · rw [hlast .seam (by simp), State.seamClosed, show (s.splitTold d).seam = s.seam from s.splitTold_frame d .seam (by simp)]
  · rw [hclosed, htold]

theorem exec_splitApply_early {d : BitVec 64} (hat : s.repair.splitAt = some d) (h : s.frame < d.toNat) : exec .splitApply s = .next s := by
  refine congrArg Host.Outcome.next ?_
  rw [hat]
  exact if_pos h

/-- The split tick, its work cut into what is told, the Seam part's, the home's and the ports'. -/
theorem exec_splitApply {d : BitVec 64} (hat : s.repair.splitAt = some d) (h : d.toNat ≤ s.frame) (hseam : s.map.seam ≠ 0) :
    exec .splitApply s =
      .next ((s.seamSplit d).splitSeam.homeSplit.endOutstanding (fun u => (s.seamSplit d).splitSeam.across u) .across) := by
  have hmap : (s.splitTold d).map.seam ≠ 0 := by rwa [State.map_of_frame (s.splitTold_frame d) (by simp) (by simp) (by simp)]
  let work (z : State) : State := z.homeSplit.endOutstanding (fun u => z.across u) .across
  have hx : exec .splitApply s = .next (work (if (s.splitTold d).map.seam = 0 then s.splitTold d else (s.seamSplit d).splitSeam)) := by
    refine congrArg Host.Outcome.next ?_
    rw [hat]
    exact if_neg (Nat.not_lt.mpr h)
  rw [hx, if_neg hmap]

theorem splitApplied : Claims.SplitApplied := by
  intro s d hat hd
  refine ⟨fun h => ⟨s, exec_splitApply_early hat h, rfl⟩, fun h hseam hwrites hjob hparts htx hports hresync => ?_⟩
  obtain ⟨hrep, hsm, hlog, hf⟩ := State.seamSplit_says hd d
  have hsched : (s.seamSplit d).sched = s.sched := hf .sched (by simp)
  have hha : (s.seamSplit d).ha = s.ha := hf .ha (by simp)
  have hanvil : (s.seamSplit d).anvil = s.anvil := hf .anvil (by simp)
  have hp : (s.seamSplit d).ports = [] := (hf .ports (by simp) : _ = s.ports).trans hports
  have hquiet : (s.seamSplit d).splitSeam = (s.seamSplit d).fixV :=
    State.splitSeam_quiet (by rw [hsm]; exact hwrites) (by rw [hsm]; exact hjob) (by rw [hsched]; exact hparts) (by rw [hsm]; exact hresync)
  have hhome := State.homeSplit_quiet (s := (s.seamSplit d).fixV) (by rw [← htx, ← hha]; rfl)
  have hx := exec_splitApply hat h hseam
  rw [hquiet, hhome, State.endOutstanding_none (by exact hp)] at hx
  refine ⟨_, hx, congrArg Repair.split hrep, congrArg Repair.splitAt hrep, congrArg Repair.arc hrep, hsm, rfl, congrArg (fun a => some a.frameNo) hanvil,
    (congrArg Home.filter hha :), hlog, (congrArg Sched.parts hsched :), ?_⟩
  exact ((hf.then (State.sched_frame _ _)).then (State.ha_frame _ _)).mono (by simp)

/-! ### What a heal tick finds nothing of -/

/-- A home with no entry in doubt and no work of its own resolves nothing (R238). -/
theorem State.healFrame_none (hf : s.ha.filter = []) (hw : s.ha.work = []) : s.healFrame = s := by
  have hnone : s.doubtful = [] := by
    rw [State.doubtful, hf]
    rfl
  unfold State.healFrame
  split
  · rfl
  · simp only [hnone, List.filter_nil, List.take_nil, List.foldl_nil]
    exact State.startWork_nil hw _

theorem State.homeHeal_none (hf : s.ha.filter = []) (hw : s.ha.work = []) :
    s.homeHeal = { s with ha := { s.ha with classify := false, holdFrom := none, healing := true } } := by
  unfold State.homeHeal
  simp only [hf, List.foldl_nil, ite_self]
  exact State.healFrame_none rfl hw

/-- The digest stands while the dictionary does (R81). -/
theorem State.digest_of_frame (k : OnlyChanges l s t) (hd : .dict ∉ l) (hi : .ident ∉ l) (staged : Bool) :
    t.digest staged = s.digest staged := by
  have ed : t.dict = s.dict := k .dict hd
  have ei : t.ident = s.ident := k .ident hi
  simp only [State.digest, State.pkgWords, State.aclDigest, State.masterWord, State.reg_of_frame k hd hi, ed, ei]

/-! ### The heal tick -/

/-- The split is over, with event 0x0E10 at the heal's tick (R328). -/
def State.splitOver (s : State) (f : BitVec 64) : State :=
  (s.withRepair { s.repair with healAt := none, split := none, arc := 0xFF, leader := false }).log1 0x0E10 (two f.toNat)

/-- The Seam part takes writes again and resynchronises the rows listed here and at the other tiles (R204). -/
def State.seamHealed (s : State) (e : HealEnv) : State :=
  { s with seam := { s.seam with readOnly := false, resyncing := s.map.seam != 0, rowsDone := [], listed := e.rows.foldl insNat s.seam.resync,
                                 listedAll := e.whole || s.seam.resyncAll } }

/-- The repair map's entries of this tile go to the anchor where they are not written yet (R330). -/
def State.sendsEntries (s : State) : State :=
  if s.repair.mapDue && !s.isAnchor then s.ring (.repairEntries (s.repair.map.filter (fun x => x.tile == s.t))) else s

/-- The anchor sends its CONFIG_GEN and digest (R329). -/
def State.sendsConfig (s : State) : State := if s.isAnchor then s.ring (.config s.anvil.gen (s.digest false)) else s

/-- A tile whose split is over takes up its Seam part and its home again, and sends what the others lack (R204, R238, R329, R330). -/
def State.takesUp (s : State) (e : HealEnv) : State := (s.seamHealed e).homeHeal.sendsEntries.sendsConfig

theorem State.sendsEntries_frame (s : State) : OnlyChanges [.out] s s.sendsEntries := .ite (State.emit_frame _ _) (.refl _ _)

theorem State.sendsConfig_frame (s : State) : OnlyChanges [.out] s s.sendsConfig := .ite (State.emit_frame _ _) (.refl _ _)

theorem State.takesUp_says (hf : s.ha.filter = []) (hw : s.ha.work = []) (e : HealEnv) :
    (s.takesUp e).seam = (s.seamHealed e).seam ∧ (s.takesUp e).ha.healing = true ∧
      (s.repair.anchor = s.t → Out.ring (.config s.anvil.gen (s.digest false)) ∈ (s.takesUp e).out) ∧ OnlyChanges [.seam, .ha, .out] s (s.takesUp e) := by
  set z := (s.seamHealed e).homeHeal with hz
  have hx : z = { s.seamHealed e with ha := { s.ha with classify := false, holdFrom := none, healing := true } } := State.homeHeal_none hf hw
  have hzf : OnlyChanges [.ha, .seam] s z := hx ▸ (s.seam_frame _).then (State.ha_frame _ _)
  have hyf : OnlyChanges [.out] z z.sendsEntries := z.sendsEntries_frame
  have htf : OnlyChanges [.out] z.sendsEntries (s.takesUp e) := State.sendsConfig_frame _
  refine ⟨?_, ?_, fun ha => ?_, ((hzf.then hyf).then htf).mono (by simp)⟩
  · rw [(hyf.then htf) .seam (by simp), hx]
  · rw [(hyf.then htf) .ha (by simp), hx]
  · have hall : OnlyChanges [.out, .ha, .seam] s z.sendsEntries := hzf.then hyf
    have hself : z.sendsEntries.isAnchor = true := by
      rw [State.isAnchor, State.t, hall .repair (by simp), hall .ident (by simp)]
      exact beq_iff_eq.mpr ha
    have hsent : s.takesUp e = z.sendsEntries.ring (.config s.anvil.gen (s.digest false)) := by
      rw [State.takesUp, ← hz, State.sendsConfig, if_pos hself, hall .anvil (by simp), State.digest_of_frame hall (by simp) (by simp)]
    rw [hsent]
    exact List.mem_append_right _ (List.mem_singleton.mpr rfl)

/-- A tile of the other arc takes the anchor's tick marker before it does (R76). -/
def State.healed (s : State) (f : BitVec 64) (e : HealEnv) : State :=
  (if !bit s.repair.arc s.repair.anchor then (s.splitOver f).takeMarker e.mark else s.splitOver f).takesUp e

theorem exec_healApply_early {h : BitVec 64} (gen digest : BitVec 32) (group : List (Nat × Word)) (differs : Bool) (e : HealEnv) (hat : s.repair.healAt = some h)
    (hf : s.frame < (e.at_.getD h).toNat) : exec (.healApply gen digest group differs e) s = .next s := by
  refine congrArg Host.Outcome.next ?_
  rw [hat]
  exact if_pos (.inl hf)

/-- The heal tick, its work cut into what every tile does and the configuration of one that comes back. -/
theorem exec_healApply {h : BitVec 64} (gen digest : BitVec 32) (group : List (Nat × Word)) (differs : Bool) (e : HealEnv) (hat : s.repair.healAt = some h)
    (hf : (e.at_.getD h).toNat ≤ s.frame) (hsplit : s.repair.split.isSome = true) (hfo : e.fostered = false) :
    exec (.healApply gen digest group differs e) s =
      .next (if !bit s.repair.arc s.repair.anchor then (s.healed (e.at_.getD h) e).reconcile gen digest group differs else s.healed (e.at_.getD h) e) := by
  have hgo : ¬ (s.frame < (e.at_.getD h).toNat ∨ s.repair.split.isNone = true) := by
    rw [not_or, Option.isNone_iff_eq_none]
    exact ⟨Nat.not_lt.mpr hf, Option.isSome_iff_ne_none.mp hsplit⟩
  have hstay : ¬ ((!bit s.repair.arc s.repair.anchor && e.fostered) = true) := by simp [hfo]
  refine congrArg Host.Outcome.next ?_
  rw [hat]
  exact (if_neg hgo).trans (if_neg hstay)

theorem State.splitOver_frame (s : State) (f : BitVec 64) : OnlyChanges [.repair, .log, .maint, .out] s (s.splitOver f) :=
  ((s.withRepair_frame _).then (State.log1_frame _ _ _)).mono (by simp)

theorem State.repair_splitOver (s : State) (f : BitVec 64) :
    (s.splitOver f).repair = { s.repair with healAt := none, split := none, arc := 0xFF, leader := false } := State.log1_repair _ _ _

theorem State.takeMarker_frame (s : State) (m : Marker) : OnlyChanges [.anvil, .clk] s (s.takeMarker m) :=
  Fr.only (M := 2 ^ 13 + 2 ^ 5) (Fr.ite (Fr.upd (Fr.refl s) rfl) (Fr.upd (Fr.refl s) rfl)) (by decide)

/-- Another digest has the package-wide group copied, which holds the ports' requests (R329). -/
theorem State.reconcile_copies {gen digest : BitVec 32} (h : s.digest false ≠ digest) (group : List (Nat × Word)) (differs : Bool) :
    s.reconcile gen digest group differs = s.withRepair { s.repair with copying := some ⟨gen, digest, group, s.anvil.frameNo + 4, differs⟩ } := if_neg h

theorem healApplied : Claims.HealApplied := by
  intro s h gen digest group differs e hfo hat hsplit hd f
  refine ⟨fun hf => ⟨s, exec_healApply_early gen digest group differs e hat hf, rfl⟩, fun hf harc hfil hwork => ?_, fun hf harc hfil hwork hdig => ?_⟩
  · have hx := exec_healApply gen digest group differs e hat hf hsplit hfo
    simp only [State.healed, harc, Bool.not_true, Bool.false_eq_true, if_false] at hx
    have hof := s.splitOver_frame f
    have hha : (s.splitOver f).ha = s.ha := hof .ha (by simp)
    obtain ⟨hsm, hheal, hconf, htf⟩ := State.takesUp_says (s := s.splitOver f) (by rw [hha, hfil]) (by rw [hha, hwork]) e
    refine ⟨_, hx, (htf .repair (by simp)).trans (s.repair_splitOver f), ?_, hheal, (hof.then htf) .anvil (by simp), (hof.then htf) .dict (by simp),
      fun ha => ?_, ?_, (hof.then htf).mono (by simp)⟩
    · rw [hsm, State.seamHealed, State.map_of_frame hof (by simp) (by simp) (by simp), show (s.splitOver f).seam = s.seam from hof .seam (by simp)]
    · rw [show (s.splitOver f).anvil = s.anvil from hof .anvil (by simp), State.digest_of_frame hof (by simp) (by simp)] at hconf
      refine hconf ?_
      rw [s.repair_splitOver f, State.t, hof .ident (by simp)]
      exact ha
    · exact (htf .log (by simp)).trans (State.log1_after (s.withRepair_frame _) hd (by simp) _ _)
  · have hx := exec_healApply gen digest group differs e hat hf hsplit hfo
    simp only [State.healed, harc, Bool.not_false, if_true] at hx
    have hmf := (s.splitOver f).takeMarker_frame e.mark
    have hof : OnlyChanges [.anvil, .clk, .repair, .log, .maint, .out] s ((s.splitOver f).takeMarker e.mark) := (s.splitOver_frame f).then hmf
    have hha : ((s.splitOver f).takeMarker e.mark).ha = s.ha := hof .ha (by simp)
    obtain ⟨-, -, -, htf⟩ := State.takesUp_says (s := (s.splitOver f).takeMarker e.mark) (by rw [hha, hfil]) (by rw [hha, hwork]) e
    generalize ((s.splitOver f).takeMarker e.mark).takesUp e = z at hx htf
    have hall := hof.then htf
    have hrep : z.repair = { s.repair with healAt := none, split := none, arc := 0xFF, leader := false } :=
      ((hmf.then htf) .repair (by simp)).trans (s.repair_splitOver f)
    rw [State.reconcile_copies (by rwa [State.digest_of_frame hall (by simp) (by simp)])] at hx
    exact ⟨_, hx, (congrArg Repair.split hrep :), rfl, Bool.or_true _, (hall .dict (by simp) :), (hall .ports (by simp) :)⟩

/-- Settles O56: the first broken link leaves the ring whole, a split tick with nothing under way and a heal tick with no line in doubt change what is told of
them and no more. That link events are logged at the link's two ring stops alone, that the split and the heal apply at ticks each tile holds, and that the copy takes
its whole 4 frames is the model's reading (log entry 53); that `resend` stands for the messages sent again is its choice (log entry 78); event 0x0905 carries no
arguments (log entry 30), and Seam writes without their acknowledgement would fail at the split tick (log entry 58). -/
theorem linksAndSplits : Obligations.LinksAndSplits := ⟨linksWatched, linkRestored, splitApplied, healApplied⟩

end Sys2Proof.Machine
